-- ==== Sys2Proof/Word.lean ====
section
/-!
DEFINITION. Word types of the collector and saturating counts.
-/

namespace Sys2Proof

/-- One byte, as sent and stored. -/
abbrev Byte := BitVec 8

/-- Station time: milliseconds since the last start, wrapping (R9). -/
abbrev Time := BitVec 32

/-- A meter ID, an unsigned 32-bit number (00, Meter IDs). -/
abbrev MeterId := BitVec 32

end Sys2Proof
end

