-- ==== Sys2Proof/Config.lean ====
section
/-!
DEFINITION. What the part fixes (capacities, slots, times) and the free values the manual leaves open.
-/

namespace Sys2Proof.Config

/-- Slot of the navigation unit (00, Stations and slots). -/
def navigationSlot : Nat := 9
/-- Slot of the driver console (00, Stations and slots). -/
def consoleSlot : Nat := 10
/-- Slot of the dock (00, Stations and slots). -/
def dockSlot : Nat := 11
/-- Destination value meaning all stations (00, Stations and slots). -/
def allStations : Nat := 15

/-- Intake queue capacity (R10). -/
def intakeCapacity : Nat := 16
/-- Relay intake queue capacity (R128). -/
def relayIntakeCapacity : Nat := 8
/-- Relay list capacity (R121). -/
def relayListCapacity : Nat := 32
/-- Held memory capacity (R133). -/
def heldMemoryCapacity : Nat := 32
/-- HELD pending list capacity (R131). -/
def heldPendingCapacity : Nat := 16
/-- Suspect pending list capacity (R114). -/
def noticeCapacity : Nat := 64
/-- Reply list capacity (R174). -/
def replyCapacity : Nat := 8
/-- Route table capacity (R64). -/
def tableCapacity : Nat := 8192
/-- Plan write queue capacity (R185). -/
def planQueueCapacity : Nat := 64
/-- Records a page buffer or the second buffer holds (R161). -/
def bufferCapacity : Nat := 8
/-- Records streamed beyond the upload mark at which a session pauses (R177). -/
def outstandingLimit : Nat := 32
/-- Transmit errors in a row at which an item is dropped (R30). -/
def retryLimit : Nat := 8
/-- Range of every error counter (R194). -/
def counterMax : Nat := 65535
/-- The value of the sequence counter at which no number is given (R159). -/
def seqMax : Nat := 4294967295
/-- Greatest erase count of a sector (R156, R168). -/
def eraseCountMax : Nat := 16777214
/-- Numbers covered by one reserve entry (R169). -/
def reserveSpan : Nat := 8192

/-- Period of the presence timer in ms (R38). -/
def presencePeriod : Nat := 500
/-- A slot not heard for this long stops participating, in ms (R42). -/
def absenceTime : Nat := 2000
/-- Presumption lasts this long, in ms (R41). -/
def presumptionTime : Nat := 2000
/-- A duplicate younger than this is recent, in ms (R35). -/
def duplicateTime : Nat := 2000
/-- Wait for a HELD after a relay send, in ms (R125). -/
def relayWait : Nat := 250
/-- Longest wait of a record in RAM, in ms (R161). -/
def pageBufferTime : Nat := 500
/-- Upload pause timer, in ms (R177). -/
def pauseTime : Nat := 3000
/-- Time in which the configuration memory answers the read command of step 2, in ms (R189). -/
def answerTime : Nat := 2
/-- Erase time of one sector, in ms (R154). -/
def eraseTime : Nat := 40

/-- Bytes of the flash array (R154). -/
def flashBytes : Nat := 2097152
/-- Bytes of a sector (R154). -/
def sectorBytes : Nat := 4096
/-- Bytes of a slot (R154). -/
def slotBytes : Nat := 32
/-- First log sector (R155). -/
def firstLogSector : Nat := 128
/-- Number of log sectors (R155). -/
def logSectors : Nat := 384
/-- Slots of a log sector (R154). -/
def sectorSlots : Nat := 128
/-- Abandoned pages at which a sector retires (R164). -/
def retireAfter : Nat := 4

/-- FREE VALUE (log 7, log 8): the byte that decides, bit by bit, between old and intended contents
where a program, an erase or a save was cut off or failed. The first argument counts the uses, the second is the address. -/
opaque freeByte : Nat → Nat → Byte

/-- FREE VALUE (log 26): whether a packet operation has read the held memory and its packet's share state before an event that R79 and R80
let fall on either side of the reading. The argument counts the uses. -/
opaque readsFirst : Nat → Bool

/-- FREE VALUE (log 9): what a two-byte figure shows for a count of more than 65,535 (R186 states no such value). -/
opaque freeCount : Nat → BitVec 16

end Sys2Proof.Config
end

