-- ==== Sys2Proof/Syntax.lean ====
section
/-!
DEFINITION. The commands of the collector: one constructor of `Instr` for each row of spec/opcode_table.json, and the
payloads of the frames they carry.
-/

namespace Sys2Proof

/-- A rack frame as its fields, before stuffing (R17). The length field is the number of payload bytes. -/
structure RackFrame where
  cls : BitVec 4
  src : BitVec 4
  dst : BitVec 4
  payload : List Byte
deriving DecidableEq, Repr

/-- Payload of a PRESENCE frame (R24, R39). -/
structure PresencePayload where
  runState : Byte
  run : BitVec 16
  plan : BitVec 32
  conditions : BitVec 16
  adopted : Byte
  participation : Byte
  freeSectors : BitVec 16
  revision : Byte
deriving DecidableEq, Repr

/-- Payload of a RELAY frame (R24, R124). -/
structure RelayPayload where
  meterId : MeterId
  counter : BitVec 16
  reading : BitVec 32
  digitsKind : Byte
  flags : Byte
  rssi : Byte
  channel : Byte
  sendNumber : Byte
deriving DecidableEq, Repr

/-- Payload of a HANDOVER frame (R24, R54). -/
structure HandoverPayload where
  meterId : MeterId
  counter : BitVec 16
  reading : BitVec 32
  digits : Byte
  flags : Byte
  active : Byte
deriving DecidableEq, Repr

/-- The commands. One constructor for each row of the opcode table, in the table's order; the docstring of each names the row's
rule. A frame's source is an operand only where several stations send that class. -/
inductive Instr where
  /-- START (R188): `straps` is the value of the slot straps read at step 1. -/
  | start (straps : BitVec 3)
  /-- POWER_LOSS (R154). -/
  | powerLoss
  /-- CONFIG_READ (R189): the configuration memory answers with what it holds. -/
  | configRead
  /-- CONFIG_ANSWER_TIMEOUT (R189). -/
  | configAnswerTimeout
  /-- START_UP_SCAN (R170). -/
  | startUpScan
  /-- INTAKE_CHARACTER (R4): the eight data bits, the parity bit and the stop bit as read (R2). -/
  | intakeCharacter (data : Byte) (parity stop : Bool)
  /-- GAP_EXPIRY (R3). -/
  | gapExpiry
  /-- SEARCHING_COMPLETE (R20). -/
  | searchingComplete
  /-- RECEIVE_ERROR (R21): the bits read from the start bit on, true being recessive; the bus is recessive after them. -/
  | receiveError (bits : List Bool)
  /-- RACK_FRAME_OTHER (R25): a valid frame that reaches no other row. -/
  | rackFrameOther (frame : RackFrame)
  /-- DUPLICATE_FRAME (R23). -/
  | duplicateFrame
  /-- FRAME_SENT (R31). -/
  | frameSent
  /-- ARBITRATION_LOSS (R28), or the other start bit of R27 (log 10). -/
  | arbitrationLoss
  /-- TRANSMIT_ERROR (R29): `atStart` says that the bit read as recessive is the start bit, so that no frame has begun; by
  default it is a later bit (log 49). -/
  | transmitError (atStart : Bool := false)
  /-- RUN_OPEN (R138). -/
  | runOpen (run day : BitVec 16)
  /-- RUN_CLOSE (R142): the day number is carried and not used. -/
  | runClose (run day : BitVec 16)
  /-- POSITION (R146). -/
  | position (valid : Byte) (segment : BitVec 16)
  /-- POSITION_WATCHDOG_EXPIRY (R149). -/
  | positionWatchdogExpiry
  /-- PRESENCE (R40). -/
  | presence (src : BitVec 4) (payload : PresencePayload)
  /-- PRESENCE_TIMER_EXPIRY (R38). -/
  | presenceTimerExpiry
  /-- ABSENCE_EXPIRY (R42). -/
  | absenceExpiry (slot : BitVec 4)
  /-- PRESUMPTION_EXPIRY (R41). -/
  | presumptionExpiry (slot : BitVec 4)
  /-- PACKET_OPERATION (R80). -/
  | packetOperation
  /-- PAGE_BUFFER_TIMEOUT (R161). -/
  | pageBufferTimeout
  /-- RELEASE (R53). -/
  | release
  /-- CLOSE_RELEASE (R143). -/
  | closeRelease
  /-- CLOSURE_MARKING (R147). -/
  | closureMarking
  /-- RUN_RESET (R71). -/
  | runReset
  /-- REBUILD_READ (R141). -/
  | rebuildRead
  /-- FINDINGS_CLEAR (R117). -/
  | findingsClear
  /-- ROUTE_TABLE_EMPTYING (R72). -/
  | routeTableEmptying
  /-- KEPT_RECORD_RELEASE (R178). -/
  | keptRecordRelease
  /-- PLAN_READ (R62). -/
  | planRead
  /-- HELD (R132). -/
  | held (src : BitVec 4) (meterId : MeterId) (counter : BitVec 16)
  /-- RELAY (R128). -/
  | relay (src : BitVec 4) (payload : RelayPayload)
  /-- HANDOVER (R128). -/
  | handover (src : BitVec 4) (payload : HandoverPayload)
  /-- RELAY_WAIT_EXPIRY (R125): the entry is named by its pair. -/
  | relayWaitExpiry (meterId : MeterId) (counter : BitVec 16)
  /-- LIST_REVISIT (R152). -/
  | listRevisit (startIndex : BitVec 16)
  /-- QUERY_CLEAR_CONDITIONS (R193). -/
  | queryClearConditions
  /-- UPLOAD_OPEN (R176). -/
  | uploadOpen (startNumber : BitVec 32)
  /-- UPLOAD_READ (R177). -/
  | uploadRead
  /-- UPLOAD_MARK (R178). -/
  | uploadMark (m : BitVec 32)
  /-- UPLOAD_PAUSE_TIMEOUT (R178). -/
  | uploadPauseTimeout
  /-- UPLOAD_CLOSE (R181). -/
  | uploadClose
  /-- ERASE_UPLOADED (R182). -/
  | eraseUploaded
  /-- CLEAR_FINDINGS (R183). -/
  | clearFindings
  /-- PLAN_BEGIN (R184). -/
  | planBegin (identifier : BitVec 32) (recordCount segmentCount : BitVec 16)
  /-- PLAN_DATA (R185): an index and the 32 bytes of a plan record. -/
  | planData (index : BitVec 16) (record : List Byte)
  /-- PLAN_END (R186). -/
  | planEnd
  /-- SETTING_WRITE (R190): an offset and 1 to 16 data bytes. -/
  | settingWrite (offset : Byte) (data : List Byte)
  /-- SETTING_SAVE (R191). -/
  | settingSave
  /-- SAVE_COMPLETION (R191): whether the write and the read-back succeeded. -/
  | saveCompletion (ok : Bool)
  /-- DOCK_CLEAR_CONDITIONS (R193). -/
  | dockClearConditions
  /-- PAGE_PROGRAM (R162): whether the program verified (R154). -/
  | pageProgram (ok : Bool)
  /-- SECTOR_OPENING (R162): whether the program verified. -/
  | sectorOpening (ok : Bool)
  /-- HEADER_MARK_PROGRAM (R168): whether the program verified. -/
  | headerMarkProgram (ok : Bool)
  /-- SECTOR_ERASE (R168). -/
  | sectorErase
  /-- PLAN_SECTOR_ERASE (R184). -/
  | planSectorErase
  /-- PLAN_RECORD_PROGRAM (R185): whether the program verified. -/
  | planRecordProgram (ok : Bool)
  /-- PLAN_HEADER_PROGRAM (R186): whether the program verified. -/
  | planHeaderProgram (ok : Bool)
  /-- LINE_RETURN_HIGH (R3). -/
  | lineReturnHigh
deriving DecidableEq, Repr

end Sys2Proof
end

