-- ==== Sys2Proof/Decode.lean ====
section
/-!
DEFINITION. Words of commands. No row of spec/opcode_table.json has bits, so no word spells a command.
-/

namespace Sys2Proof

/-- The command that a word of `nbits` bits spells: none, since no row of the table gives bits. -/
def decodeTableWord (_nbits _w : Nat) : Option Instr := none

end Sys2Proof
end

