-- ==== Sys2Proof/Machine/Bytes.lean ====
section
/-!
DEFINITION. Byte order and the one CRC of the part (00, Byte order; R1).
-/

namespace Sys2Proof.Machine

/-- The `n` low bytes of `v`, most significant first (00, Byte order). -/
def bytesOf : Nat → Nat → List Byte
  | 0, _ => []
  | n + 1, v => bytesOf n (v / 256) ++ [BitVec.ofNat 8 v]

/-- The number whose bytes, most significant first, are `bs`. -/
def numberOf (bs : List Byte) : Nat :=
  bs.foldl (fun acc b => acc * 256 + b.toNat) 0

/-- The number in the `n` bytes at offset `off` of `bs`. -/
def fieldOf (bs : List Byte) (off n : Nat) : Nat :=
  numberOf ((bs.drop off).take n)

/-- The byte at offset `off`; a byte past the end reads 0xFF, the erased state. -/
def byteAt (bs : List Byte) (off : Nat) : Byte :=
  bs.getD off 0xFF

/-- One shift of the CRC register (R1): left by one, and the polynomial where the bit shifted out was 1. -/
def crcShift (r : BitVec 16) : BitVec 16 :=
  if r.msb then (r <<< 1) ^^^ 0x1021 else r <<< 1

/-- One covered byte (R1): into the high eight bits, then eight shifts. -/
def crcByte (r : BitVec 16) (b : Byte) : BitVec 16 :=
  (List.range 8).foldl (fun r _ => crcShift r) (r ^^^ (b.setWidth 16 <<< 8))

/-- The CRC of the part (R1): polynomial 0x1021, initial value 0xFFFF, no reflection, no final inversion. -/
def crc16 (bs : List Byte) : BitVec 16 :=
  bs.foldl crcByte 0xFFFF

/-- The two CRC bytes appended after the bytes they cover (R1). -/
def crcBytes (bs : List Byte) : List Byte :=
  bytesOf 2 (crc16 bs).toNat

/-- The check of `n` covered bytes at `off` against the two bytes after them (R1). -/
def crcGood (bs : List Byte) (off n : Nat) : Bool :=
  crcBytes ((bs.drop off).take n) == (bs.drop (off + n)).take 2

/-- Every byte in the erased state. -/
def allOnes (bs : List Byte) : Bool :=
  bs.all (· == 0xFF)

end Sys2Proof.Machine
end

