-- ==== Sys2Proof/Machine/State.lean ====
section
/-!
DEFINITION. The state of the collector as plain data, block by block; how a step can stop; the state after reset.
Fields marked MODEL are the model's own and stand for nothing in the spec.
-/

namespace Sys2Proof.Machine

/-- Memory bytes in one canonical form: addresses strictly rising, no byte equal to what an unlisted address reads (0xFF). -/
abbrev Memory := List Host.Cell

/-! ## Settings (R101, R189) -/

/-- Disposition of a detector (R101). -/
inductive Disposition where
  | latch | release | note | off
deriving DecidableEq, Repr

/-- The four settings of a detector (R101). -/
structure DetectorSetting where
  disposition : Disposition
  debounce : Nat
  weight : Nat
  releaseCount : Nat
deriving DecidableEq, Repr

/-- High and low percentage of a band class (R90). -/
structure Band where
  high : Nat
  low : Nat
deriving DecidableEq, Repr

/-- The settings in use (R189), each field in its range. -/
structure Settings where
  collectors : Nat
  threshold : Nat
  detectors : List DetectorSetting
  bands : List Band
  zeroDays : Nat
  reverseWindow : Nat
  lookback : Nat
  /-- position timeout in ms (R149) -/
  positionTimeout : Nat
  storeUnlisted : Bool
deriving DecidableEq, Repr

/-! ## Packets, records and entries -/

/-- A valid packet (R9). -/
structure Packet where
  meterId : MeterId
  counter : BitVec 16
  reading : BitVec 32
  digits : BitVec 4
  /-- kind 2, an alarm bubble -/
  alarm : Bool
  flags : Byte
  rssi : Byte
  channel : Byte
deriving DecidableEq, Repr

/-- Record kinds (R157). -/
inductive RecordKind where
  | runMark | firstRead | exception | suspect | relayUnconfirmed | unlisted | unstored
deriving DecidableEq, Repr

/-- Origin of a record (R82, R127, R157). -/
inductive Origin where
  | own
  | adopted (share : Nat)
  | relayedIn (slot : Nat)
  | unconfirmed (slot : Option Nat)
  | adopting
deriving DecidableEq, Repr

/-- A log record without its sequence number and CRC (R157). -/
structure RecordBody where
  kind : RecordKind
  origin : Origin
  meterId : MeterId
  counter : BitVec 16
  reading : BitVec 32
  digits : BitVec 4
  flags : Byte
  run : BitVec 16
  segment : Nat
  stale : Bool
  late : Bool
  alarm : Bool
  active : Byte
  raised : Nat
  score : Nat
  rssi : Byte
  channel : Byte
deriving DecidableEq, Repr

/-- State of a detector record (R100). -/
inductive DetectorState where
  | idle | pending | active
deriving DecidableEq, Repr

/-- A detector record (R100); `last` is absent, shown (true) or clean (false). -/
structure Detector where
  state : DetectorState
  consecutive : Nat
  clean : Nat
  last : Option Bool
deriving DecidableEq, Repr

/-- Status of a route entry (R68). -/
inductive Status where
  | unread | read | late | missed | elsewhere | handing
deriving DecidableEq, Repr

/-- Origin of a route entry (R63). -/
inductive EntryOrigin where
  | own
  | adopted (share : Nat)
deriving DecidableEq, Repr

/-- Last-heard of a route entry (R63). -/
structure LastHeard where
  counter : BitVec 16
  reading : BitVec 32
  flags : Byte
deriving DecidableEq, Repr

/-- A route entry (R63). -/
structure Entry where
  meterId : MeterId
  origin : EntryOrigin
  planIndex : Nat
  segment : Nat
  billed : Nat
  billedDay : Nat
  digits : Nat
  band : Nat
  rate : Nat
  status : Status
  lastHeard : Option LastHeard
  firstRead : Option Nat
  kept : Option RecordBody
  detectors : List Detector
  score : Nat
  suspect : Bool
deriving DecidableEq, Repr

/-- A log position: sector sequence and slot (R158). -/
structure LogPos where
  sector : Nat
  slot : Nat
deriving DecidableEq, Repr

/-- The interrupted run: run number, position and sequence number of its RUN MARK(open) (R137, R172). -/
structure Interrupted where
  run : BitVec 16
  pos : LogPos
  number : Nat
deriving DecidableEq, Repr

/-! ## Radio Intake (01) -/

/-- State of the line receiver (R3). -/
inductive LineState where
  | idle
  | assembling (bytes : List Byte)
  | spoiled
deriving DecidableEq, Repr

/-- The Radio Intake: line receiver, intake queue and counters (R3, R10, R14). -/
structure Radio where
  line : LineState
  /-- the gap timer runs (R3) -/
  gapRunning : Bool
  /-- a framing error waits for the line to return high (R2) -/
  awaitHigh : Bool
  queue : List Packet
  lineErrors : Nat
  intakeCrc : Nat
  malformed : Nat
  outOfRun : Nat
  overrun : Nat
deriving DecidableEq, Repr

/-! ## Rack Port (02) -/

/-- State of the rack receiver (R20, R26); `ownSpoiled` is FRAME after an own transmit error, whose fault is not counted (R29). -/
inductive RxState where
  | notFollowing | searching | idle | frame | ownSpoiled
deriving DecidableEq, Repr

/-- The frame being offered or sent (R27, R31): its class names the producer, `tag` (MODEL) its item. It stays after its item has left the
producer, until its outcome (R31; log 10). -/
structure Sending where
  tag : Nat
  frame : RackFrame
deriving DecidableEq, Repr

/-- The retry state while the retry item is present (R30): the item by producer class and tag (MODEL). -/
structure Retry where
  cls : Nat
  tag : Nat
  count : Nat
deriving DecidableEq, Repr

/-- The Rack Port (R20, R30, R34, R35). -/
structure Rack where
  rx : RxState
  sending : Option Sending
  retry : Option Retry
  lastDuplicate : Option Time
  rxCrc : Nat
  rxFormat : Nat
  txErrors : Nat
  txDrops : Nat
deriving DecidableEq, Repr

/-! ## Presence Monitor (03) -/

/-- Contents of a view entry (R40). -/
structure PeerContents where
  runState : Byte
  run : BitVec 16
  plan : BitVec 32
deriving DecidableEq, Repr

/-- An entry of the presence view (R40); `presumed` holds the presumption deadline while the mark is set. -/
structure ViewEntry where
  slot : Nat
  lastHeard : Time
  contents : Option PeerContents
  presumed : Option Time
deriving DecidableEq, Repr

/-- State of a share (R44). -/
inductive ShareState where
  | own | notMine | queued | loading | adopted
deriving DecidableEq, Repr

/-- The Presence Monitor: `owners` and `shares` hold share s at position s - 1 (R43, R44). -/
structure Presence where
  view : List ViewEntry
  owners : List Nat
  shares : List ShareState
  adoptQueue : List Nat
  /-- time of the next expiry of the presence timer; absent while it is stopped (R38) -/
  timer : Option Time
  /-- the PRESENCE item pending, by its tag (R38) -/
  item : Option Nat
deriving DecidableEq, Repr

/-! ## Evaluation Engine (04, 05, 06, 08) -/

/-- The station run state (R137). -/
inductive RunState where
  | blank | loadingErase | loadingData | ready | rebuilding | running | closing
deriving DecidableEq, Repr

/-- The values held while the plan state is VALID (4.2, R61). -/
structure Plan where
  ident : BitVec 32
  count : Nat
  segments : Nat
deriving DecidableEq, Repr

/-- An item of the relay intake queue (R128). -/
inductive RelayItem where
  | relay (src : Nat) (payload : RelayPayload)
  | handover (payload : HandoverPayload)
  | moved (packet : Packet) (segment : Nat) (stale : Bool)
deriving DecidableEq, Repr

/-- An item taken by a packet operation (R77). -/
inductive Taken where
  | intake (packet : Packet)
  | relayed (item : RelayItem)
deriving DecidableEq, Repr

/-- A release request: a share's release (R53) or the close release (R142). -/
inductive ReleaseReq where
  | share (s : Nat)
  | close
deriving DecidableEq, Repr

/-- A station request (R76). -/
inductive StationReq where
  | closure (segment : Nat)
  | runReset
  | resetRebuild (mark : Interrupted)
  | planCheck
  | ownBuild
  | findingsClear
  | emptying
  | keptRelease (meterId : MeterId) (number : Nat)
deriving DecidableEq, Repr

/-- What a packet operation has read at its start (R79, R80): whether the held memory holds its packet's pair, and the state of the
packet's share. -/
structure PacketReading where
  held : Bool
  share : ShareState
deriving DecidableEq, Repr

/-- The engine: IDLE, or BUSY with one operation (R75). A packet operation carries its reading once that has been taken (log 26). The
rebuild scan carries the position of the last slot it has read and the number of the last record it has accepted. -/
inductive EngineOp where
  | idle
  | packet (item : Taken) (reading : Option PacketReading)
  | release (share : Nat)
  | closeRelease
  | closure (segment : Nat)
  | runReset
  | resumeReset (mark : Interrupted)
  | rebuild (pos : LogPos) (last : Nat)
  | planCheckHeader
  | planCheckRecord (index : Nat) (header : Plan)
  | ownBuild (index : Nat)
  | load (share index : Nat)
  | findingsClear
  | emptying
  | keptRelease (meterId : MeterId) (number : Nat)
deriving DecidableEq, Repr

/-- The packet queue last taken from (R77). -/
inductive Side where
  | intake | relay
deriving DecidableEq, Repr

/-- A HANDOVER item, one for each HANDING entry, in the order made (R54). -/
structure HandingItem where
  tag : Nat
  meterId : MeterId
  share : Nat
deriving DecidableEq, Repr

/-- A suspect notice (R114). -/
structure Notice where
  tag : Nat
  meterId : MeterId
  score : Nat
  active : Byte
  segment : Nat
deriving DecidableEq, Repr

/-- The Evaluation Engine. -/
structure Engine where
  op : EngineOp
  releases : List ReleaseReq
  requests : List StationReq
  lastSide : Side
  runState : Option RunState
  currentRun : Option (BitVec 16)
  /-- the opening run; present while the open-in-progress mark is set (R139) -/
  openingRun : Option (BitVec 16)
  runDay : BitVec 16
  interrupted : Option Interrupted
  /-- present while the plan state is VALID (R61) -/
  plan : Option Plan
  table : List Entry
  ownUntracked : Nat
  untracked : List (Nat × Nat)
  duplicates : Nat
  handing : List HandingItem
  notices : List Notice
  relayQueue : List RelayItem
  /-- the close finish waits for its flush (R143) -/
  closeWaits : Bool
  handoverDrop : Nat
  heldDrop : Nat
  unlistedDrop : Nat
  relayReject : Nat
  suspectDrop : Nat
  runReject : Nat
  relayOverrun : Nat
  relayOutOfRun : Nat
deriving DecidableEq, Repr

/-! ## Route Tracker (08) -/

/-- State of a segment (R144). -/
inductive SegmentState where
  | ahead | opened | closed
deriving DecidableEq, Repr

/-- A row of the segment table (R144). -/
structure SegmentRow where
  segment : Nat
  state : SegmentState
  expected : Nat
  read : Nat
  missed : Nat
  suspect : Nat
deriving DecidableEq, Repr

/-- An item of the revisit list (R151). -/
structure RevisitItem where
  meterId : MeterId
  segment : Nat
  planIndex : Nat
deriving DecidableEq, Repr

/-- A tally pending (R148). -/
structure TallyItem where
  tag : Nat
  segment : Nat
deriving DecidableEq, Repr

/-- The REVISIT reply pending (R152). -/
structure RevisitReply where
  tag : Nat
  startIndex : BitVec 16
deriving DecidableEq, Repr

/-- The Route Tracker. No segment table is an empty list of rows (S is at least 1). -/
structure Tracker where
  rows : List SegmentRow
  revisit : List RevisitItem
  tallies : List TallyItem
  reply : Option RevisitReply
  /-- start index of a QUERY LIST REVISIT that has come while the reply's frame is on the bus, and waits for that frame's outcome (R152) -/
  query : Option (BitVec 16)
  segment : Nat
  stale : Bool
  /-- time of the arming or last reload of the watchdog; absent while disarmed (R149) -/
  watchdog : Option Time
  tallyDrop : Nat
deriving DecidableEq, Repr

/-! ## Relay Unit (07) -/

/-- Phase of a relay list entry (R123). -/
inductive RelayPhase where
  | unsent | waiting | due
deriving DecidableEq, Repr

/-- An entry of the relay list (R121). -/
structure RelayEntry where
  tag : Nat
  packet : Packet
  share : Nat
  segment : Nat
  stale : Bool
  sends : Nat
  lastSend : Option Time
  target : Option Nat
  phase : RelayPhase
deriving DecidableEq, Repr

/-- A (meter ID, counter) pair of the held memory (R133). -/
structure HeldPair where
  meterId : MeterId
  counter : BitVec 16
deriving DecidableEq, Repr

/-- An entry of the HELD pending list (R131). -/
structure HeldItem where
  tag : Nat
  pair : HeldPair
deriving DecidableEq, Repr

/-- The Relay Unit. -/
structure Relay where
  list : List RelayEntry
  heldMemory : List HeldPair
  heldPending : List HeldItem
  duplicates : Nat
  confirmed : Nat
  unconfirmed : Nat
  heldDrop : Nat
deriving DecidableEq, Repr

/-! ## Store Controller (09) -/

/-- State of a log sector (R156). -/
inductive SectorState where
  | erased | opened | full | uploaded | eraseListed | erasing | retired
deriving DecidableEq, Repr

/-- A row of the sector table (R156). -/
structure SectorRow where
  sector : Nat
  state : SectorState
  seq : Option Nat
  eraseCount : Nat
  abandoned : Nat
  first : Option Nat
  last : Option Nat
deriving DecidableEq, Repr

/-- A record in a page buffer: its number, its content and the time it entered a buffer (R161). -/
structure Buffered where
  number : Nat
  body : RecordBody
  entered : Time
deriving DecidableEq, Repr

/-- An opening in progress (R162): the values its program writes. -/
structure Opening where
  sector : Nat
  seq : Nat
  eraseCount : Nat
  bound : Nat
deriving DecidableEq, Repr

/-- A rank 1 request (R166). The plan record's content is taken from the plan write queue when it is served. -/
inductive ProgramReq where
  | logPage | opening | planRecord | planHeader
deriving DecidableEq, Repr

/-- A header-mark program (R166): FULL, UPLOADED, ERASE-BEGUN, RETIRED, or a reserve entry (2 or 3) with its bound. -/
inductive MarkReq where
  | full (sector : Nat)
  | uploaded (sector : Nat)
  | eraseBegun (sector : Nat)
  | retired (sector : Nat)
  | reserve (sector entry bound : Nat)
deriving DecidableEq, Repr

/-- The operation the flash is serving (R166), erases apart. A read whose reader has gone is not `live` (R52, R142, R181). -/
inductive Serving where
  | logPage
  | opening
  | planRecord (index : Nat) (bytes : List Byte)
  | planHeader
  | planRead (live : Bool)
  | rebuildRead (live : Bool)
  | uploadRead (live : Bool)
  | mark (m : MarkReq)
deriving DecidableEq, Repr

/-- The erase in progress and the erase time it has spent, in ms (R167). It is suspended while the flash serves anything else. -/
structure EraseRun where
  sector : Nat
  spent : Nat
deriving DecidableEq, Repr

/-- How far a sector of the erase list has come (R168). -/
inductive ErasePhase where
  | listed | marking | ready
deriving DecidableEq, Repr

/-- A sector of the erase list; the ERASE-BEGUN program is skipped for one that the start-up scan placed (R168). -/
structure EraseItem where
  sector : Nat
  scanPlaced : Bool
  phase : ErasePhase
deriving DecidableEq, Repr

/-- The Store Controller. -/
structure Store where
  flash : Memory
  pageBuf : List Buffered
  second : List Buffered
  /-- PROGRAMMING, not FILLING (R161) -/
  programming : Bool
  flushing : Bool
  /-- head sector and slot; absent when no sector is OPENED or being opened (R160, R162) -/
  head : Option (Nat × Nat)
  opening : Option Opening
  rows : List SectorRow
  sectorSeq : Nat
  seqCounter : Nat
  durableBound : Nat
  uploadMark : Nat
  lastGiven : Nat
  eraseList : List EraseItem
  progs : List ProgramReq
  marks : List MarkReq
  /-- the plan sector whose erase is requested (R184) -/
  planErase : Option Nat
  serving : Option Serving
  erase : Option EraseRun
  dropped : Nat
  faults : Nat
deriving DecidableEq, Repr

/-! ## Dock Agent (10) -/

/-- Content of a reply: fixed when made, or a part of UPLOAD END, read at its offer (R180). -/
inductive ReplyBody where
  | fixed (bytes : List Byte)
  | uploadEnd (part : Nat)
deriving DecidableEq, Repr

/-- An item of the reply list (R174). -/
structure Reply where
  tag : Nat
  body : ReplyBody
deriving DecidableEq, Repr

/-- Upload session state (R176). -/
inductive SessionState where
  | none | starting | streaming | paused | stalled | done
deriving DecidableEq, Repr

/-- Phase of a session (R176). -/
inductive SessionPhase where
  | log | synthesized
deriving DecidableEq, Repr

/-- The pending UPLOAD DATA item (R177): its record's number and 32 bytes. -/
structure UploadItem where
  tag : Nat
  number : Nat
  bytes : List Byte
deriving DecidableEq, Repr

/-- What the upload reads ask for, one slot a service (R158, R166, R176, R177): the record of the start number, the tail, or the next
record. A search and a next carry the position of the last slot read and the number of the last record accepted (log 22). -/
inductive UploadAsk where
  | search (pos : LogPos) (last : Nat)
  | tail
  | next (pos : LogPos) (last : Nat)
deriving DecidableEq, Repr

/-- The upload session (R176). `outstanding` holds the numbers that the field counts. -/
structure Session where
  state : SessionState
  phase : SessionPhase
  start : Nat
  /-- position and number of the last record streamed -/
  readPos : Option (LogPos × Nat)
  highest : Nat
  streamed : Nat
  outstanding : List Nat
  synthList : List (MeterId × Nat)
  synthCount : Nat
  /-- kept records copied at the head of the log and not yet synthesized (R179) -/
  toSynth : List RecordBody
  unsynthesized : Nat
  /-- start of the pause timer while it runs (R178) -/
  pauseSince : Option Time
  data : Option UploadItem
  ask : Option UploadAsk
  /-- a sequence number has been asked for and waits for a reserve entry or an opening (R169) -/
  numberWait : Bool
deriving DecidableEq, Repr

/-- Plan-load state (10.4). -/
inductive LoadPhase where
  | none | erasing | receiving | ending
deriving DecidableEq, Repr

/-- The plan load (10.4). The received and bad counts are the lengths of `received` and `bad`. -/
structure PlanLoad where
  phase : LoadPhase
  ident : BitVec 32
  count : Nat
  segments : Nat
  /-- the received map: the indexes marked -/
  received : List Nat
  ignored : Nat
  /-- the indexes counted bad, each once (R186) -/
  bad : List Nat
  /-- the plan write queue (R185) -/
  queue : List (Nat × List Byte)
  /-- the indexes the check read at PLAN END has still to read (R186) -/
  check : Option (List Nat)
deriving DecidableEq, Repr

/-- The Dock Agent. -/
structure Dock where
  replies : List Reply
  rejects : Nat
  replyDrops : Nat
  session : Session
  load : PlanLoad
deriving DecidableEq, Repr

/-! ## Start-up Controller (11) -/

/-- Step of the start sequence in progress (R188); step 1 is within START; `up` is past step 6. -/
inductive StartStep where
  | config | scan | planCheck | build | up
deriving DecidableEq, Repr

/-- The latched conditions 0 to 7 (R192). -/
structure Conditions where
  fresh : Bool
  intakeOverrun : Bool
  positionStale : Bool
  storeFull : Bool
  storeFault : Bool
  txFault : Bool
  duplicateSlot : Bool
  configDefaulted : Bool
deriving DecidableEq, Repr

/-- A save in progress (R191): the 98 bytes it writes and the number of SAVEs it serves. -/
structure SaveJob where
  bytes : List Byte
  serves : Nat
deriving DecidableEq, Repr

/-- The Start-up Controller. -/
structure Startup where
  /-- power is good and RESET is high -/
  powered : Bool
  /-- the slot straps as read at step 1 (R188) -/
  straps : BitVec 3
  step : StartStep
  /-- station time (R9) -/
  now : Time
  image : List Byte
  settings : Settings
  conds : Conditions
  /-- the configuration memory (R189) -/
  cfg : Memory
  save : Option SaveJob
  waitingSaves : Nat
deriving DecidableEq, Repr

/-- The collector. -/
structure State where
  radio : Radio
  rack : Rack
  presence : Presence
  engine : Engine
  tracker : Tracker
  relay : Relay
  store : Store
  dock : Dock
  startup : Startup
  /-- MODEL (log 27): the tag the next transmit item takes -/
  nextTag : Nat
  /-- MODEL (log 7): how many free values have been used -/
  freeIndex : Nat
  /-- MODEL (log 1): the commands that wait, first in, first out -/
  pending : List Instr
deriving DecidableEq, Repr

/-- Why a step stops with a fault. -/
inductive Fault where
  /-- Raised by a program, an erase or a plan read whose address lies outside the flash array of R154; no run from reset meets it.
  Safe: the spec gives such an access no meaning. -/
  | flashAddress
deriving DecidableEq, Repr

/-- Why a command is refused. -/
inductive Refusal where
  /-- Raised by an arm of exec whose command has no meaning yet; no arm raises it. Safe. -/
  | notModelled (mnemonic : String)
deriving DecidableEq, Repr

/-! ## After reset -/

/-- The default image (R189, R101): offsets 0 to 95. -/
def defaultImage : List Byte :=
  [4, 60,
    0, 2, 40, 3, 0, 1, 30, 3, 1, 2, 20, 3, 1, 2, 10, 3, 0, 1, 35, 3, 0, 1, 60, 3, 0, 1, 50, 3,
    0, 250, 20, 1, 44, 10, 1, 144, 0, 3, 232, 0,
    14, 0, 50, 2, 1, 1] ++ List.replicate 48 0xFF

/-- The settings in use that the default image gives (R101, R189). -/
def defaultSettings : Settings where
  collectors := 4
  threshold := 60
  detectors := [⟨.latch, 2, 40, 3⟩, ⟨.latch, 1, 30, 3⟩, ⟨.release, 2, 20, 3⟩, ⟨.release, 2, 10, 3⟩, ⟨.latch, 1, 35, 3⟩,
    ⟨.latch, 1, 60, 3⟩, ⟨.latch, 1, 50, 3⟩]
  bands := [⟨250, 20⟩, ⟨300, 10⟩, ⟨400, 0⟩, ⟨1000, 0⟩]
  zeroDays := 14
  reverseWindow := 50
  lookback := 2
  positionTimeout := 2000
  storeUnlisted := true

/-- The Radio Intake after start (R15). -/
def Radio.afterStart : Radio where
  line := .spoiled
  gapRunning := true
  awaitHigh := false
  queue := []
  lineErrors := 0
  intakeCrc := 0
  malformed := 0
  outOfRun := 0
  overrun := 0

/-- The Rack Port after step 1 (R26, R36). -/
def Rack.afterStart : Rack where
  rx := .searching
  sending := none
  retry := none
  lastDuplicate := none
  rxCrc := 0
  rxFormat := 0
  txErrors := 0
  txDrops := 0

/-- Share states after start (R44): own share OWN, every other NOT MINE. -/
def sharesAfterStart (slot n : Nat) : List ShareState :=
  (List.range n).map fun i => if i + 1 = slot then .own else .notMine

/-- The Presence Monitor after start (R40, R57) at `slot`, for `n` shares: every share belongs to its own slot. -/
def Presence.afterStart (slot n : Nat) : Presence where
  view := ((List.range 8).filter (fun i => i + 1 != slot)).map fun i => ⟨i + 1, 0, none, some 2000⟩
  owners := (List.range n).map (· + 1)
  shares := sharesAfterStart slot n
  adoptQueue := []
  timer := none
  item := none

/-- The engine after start (R73, R99, R136, R153). -/
def Engine.afterStart : Engine where
  op := .idle
  releases := []
  requests := []
  lastSide := .relay
  runState := none
  currentRun := none
  openingRun := none
  runDay := 0
  interrupted := none
  plan := none
  table := []
  ownUntracked := 0
  untracked := []
  duplicates := 0
  handing := []
  notices := []
  relayQueue := []
  closeWaits := false
  handoverDrop := 0
  heldDrop := 0
  unlistedDrop := 0
  relayReject := 0
  suspectDrop := 0
  runReject := 0
  relayOverrun := 0
  relayOutOfRun := 0

/-- The Route Tracker after start (R153). -/
def Tracker.afterStart : Tracker where
  rows := []
  revisit := []
  tallies := []
  reply := none
  query := none
  segment := 0
  stale := false
  watchdog := none
  tallyDrop := 0

/-- The Relay Unit after start (R136). -/
def Relay.afterStart : Relay where
  list := []
  heldMemory := []
  heldPending := []
  duplicates := 0
  confirmed := 0
  unconfirmed := 0
  heldDrop := 0

/-- The Store Controller after start, before the scan (R173; log 5), over the flash as it is. -/
def Store.afterStart (flash : Memory) : Store where
  flash := flash
  pageBuf := []
  second := []
  programming := false
  flushing := false
  head := none
  opening := none
  rows := []
  sectorSeq := 1
  seqCounter := 1
  durableBound := 1
  uploadMark := 0
  lastGiven := 0
  eraseList := []
  progs := []
  marks := []
  planErase := none
  serving := none
  erase := none
  dropped := 0
  faults := 0

/-- No session (R176, R187). DESIGN CHOICE (log 55): phase LOG and figures of 0 before the first UPLOAD OPEN. -/
def Session.afterStart : Session where
  state := .none
  phase := .log
  start := 0
  readPos := none
  highest := 0
  streamed := 0
  outstanding := []
  synthList := []
  synthCount := 0
  toSynth := []
  unsynthesized := 0
  pauseSince := none
  data := none
  ask := none
  numberWait := false

/-- No plan load (10.4, R187). DESIGN CHOICE (log 55): the announced plan identifier is 0 before the first PLAN BEGIN. -/
def PlanLoad.afterStart : PlanLoad where
  phase := .none
  ident := 0
  count := 0
  segments := 0
  received := []
  ignored := 0
  bad := []
  queue := []
  check := none

/-- The Dock Agent after start (R187). -/
def Dock.afterStart : Dock where
  replies := []
  rejects := 0
  replyDrops := 0
  session := Session.afterStart
  load := PlanLoad.afterStart

/-- Conditions after start (R192): FRESH set, the other latched ones clear. -/
def Conditions.afterStart : Conditions where
  fresh := true
  intakeOverrun := false
  positionStale := false
  storeFull := false
  storeFault := false
  txFault := false
  duplicateSlot := false
  configDefaulted := false

/-- The Start-up Controller after step 1 (R188), over the configuration memory as it is; image and settings by log 4. -/
def Startup.afterStart (powered : Bool) (straps : BitVec 3) (cfg : Memory) : Startup where
  powered := powered
  straps := straps
  step := .config
  now := 0
  image := defaultImage
  settings := defaultSettings
  conds := Conditions.afterStart
  cfg := cfg
  save := none
  waitingSaves := 0

/-- The collector after step 1 of a start (R188): RAM state fresh, flash and configuration memory as given. -/
def State.afterStart (powered : Bool) (straps : BitVec 3) (flash cfg : Memory) (freeIndex : Nat) (pending : List Instr) : State where
  radio := Radio.afterStart
  rack := Rack.afterStart
  presence := Presence.afterStart (straps.toNat + 1) defaultSettings.collectors
  engine := Engine.afterStart
  tracker := Tracker.afterStart
  relay := Relay.afterStart
  store := Store.afterStart flash
  dock := Dock.afterStart
  startup := Startup.afterStart powered straps cfg
  nextTag := 0
  freeIndex := freeIndex
  pending := pending

/-- The machine right after reset: step 1 of the first start of a new part (R188; log 3). -/
def State.reset : State := State.afterStart true 0 [] [] 0 []

end Sys2Proof.Machine
end

