-- ==== Sys2Proof/Machine/Ops.lean ====
section
/-!
DEFINITION. Named operations that every block uses: memory, counters, station time, and small readings of the state.
-/

namespace Sys2Proof.Machine

/-! ## Memory -/

/-- One byte of memory; an unlisted byte reads 0xFF, the erased state (R154; log 3). -/
def Memory.read : Memory → Nat → Byte
  | [], _ => 0xFF
  | (k, b) :: m, a => if k = a then b else Memory.read m a

/-- One byte set to a value, the canonical form kept: 0xFF is not listed, and addresses rise. -/
def Memory.write : Memory → Nat → Byte → Memory
  | [], a, v => if v = 0xFF then [] else [(a, v)]
  | (k, b) :: m, a, v =>
    if a < k then (if v = 0xFF then (k, b) :: m else (a, v) :: (k, b) :: m)
    else if a = k then (if v = 0xFF then m else (a, v) :: m)
    else (k, b) :: Memory.write m a v

/-- `n` bytes from address `a` on. -/
def Memory.readBytes (m : Memory) (a n : Nat) : List Byte :=
  (List.range n).map fun i => m.read (a + i)

/-- Bytes set to values from address `a` on. -/
def Memory.writeBytes : Memory → Nat → List Byte → Memory
  | m, _, [] => m
  | m, a, v :: vs => Memory.writeBytes (m.write a v) (a + 1) vs

/-- A page program (R154): each bit written as 0 becomes 0, each bit written as 1 is left as it is. -/
def Memory.program : Memory → Nat → List Byte → Memory
  | m, _, [] => m
  | m, a, v :: vs => Memory.program (m.write a (m.read a &&& v)) (a + 1) vs

/-- A program cut off, or one that fails its verify (R154, R164): each byte lies anywhere between its old value and the intended
one, as the free byte for its address decides (log 7). -/
def Memory.tornProgram (use : Nat) : Memory → Nat → List Byte → Memory
  | m, _, [] => m
  | m, a, v :: vs =>
    Memory.tornProgram use (m.write a (m.read a &&& (v ||| Config.freeByte use a))) (a + 1) vs

/-- An erase (R154): every bit of the `n` bytes from `a` on becomes 1. -/
def Memory.erase (m : Memory) (a n : Nat) : Memory :=
  m.filter fun c => !(decide (a ≤ c.1) && decide (c.1 < a + n))

/-- An erase cut off (R154): any mix of erased and unerased bits, as the free byte of each address decides (log 7). -/
def Memory.tornErase (use : Nat) (m : Memory) (a n : Nat) : Memory :=
  m.filterMap fun c =>
    if a ≤ c.1 ∧ c.1 < a + n then
      (if c.2 ||| Config.freeByte use c.1 = 0xFF then none else some (c.1, c.2 ||| Config.freeByte use c.1))
    else some c

/-- Bytes left with any value (log 8). -/
def Memory.tornWrite (use : Nat) (m : Memory) (a n : Nat) : Memory :=
  (List.range n).foldl (fun m i => m.write (a + i) (Config.freeByte use (a + i))) m

/-- Addresses strictly rise from one listed byte to the next. -/
def Memory.rising : Memory → Bool
  | [] => true
  | [_] => true
  | (a, _) :: (b, v) :: m => decide (a < b) && Memory.rising ((b, v) :: m)

/-- The canonical form: addresses strictly rising, no listed byte equal to what an unlisted one reads. -/
def Memory.wf (m : Memory) : Bool :=
  Memory.rising m && m.all fun c => c.2 != 0xFF

/-- No byte of the `n` bytes from `a` on differs from the erased state. -/
def Memory.blank (m : Memory) (a n : Nat) : Bool :=
  m.all fun c => !(decide (a ≤ c.1) && decide (c.1 < a + n)) || c.2 == 0xFF

/-! ## Flash addresses -/

/-- Address of a slot of a sector (R154). -/
def slotAddress (sector slot : Nat) : Nat :=
  sector * Config.sectorBytes + slot * Config.slotBytes

/-- Address of slot `j` of the plan region (4.1). -/
def planSlotAddress (j : Nat) : Nat := j * Config.slotBytes

/-- The `n` bytes from `a` on lie in the flash array (R154). -/
def inFlash (a n : Nat) : Bool := decide (a + n ≤ Config.flashBytes)

/-! ## Counters and time -/

/-- An error counter grows by one and stays at 65,535 (R14, R34, R194). -/
def countUp (n : Nat) : Nat := min (n + 1) Config.counterMax

/-- An error counter grows by `k`, one for each. -/
def countUpBy (n k : Nat) : Nat := min (n + k) Config.counterMax

/-- Milliseconds from `since` to `now`, modulo 2 to the power 32 (R9). -/
def elapsed (now since : Time) : Nat := (now - since).toNat

/-! ## Readings of the state -/

/-- This station's slot: the strap value plus 1 (R188). -/
def State.slot (s : State) : Nat := s.startup.straps.toNat + 1

/-- Station time. -/
def State.now (s : State) : Time := s.startup.now

/-- The settings in use. -/
def State.settings (s : State) : Settings := s.startup.settings

/-- The station is RUNNING. -/
def State.isRunning (s : State) : Bool := s.engine.runState == some .running

/-- The current run, 0 where none is present. -/
def State.runNumber (s : State) : BitVec 16 := s.engine.currentRun.getD 0

/-- This station is past start step 6: it sends, and received frames are delivered (R26). -/
def State.isUp (s : State) : Bool := s.startup.step == .up

/-! ## Packets -/

/-- Meter flag bits kept in a packet: the two unused bits are 0 (R7). -/
def usedFlags (flags : Byte) : Byte := flags &&& 0xFC

/-- A valid meter ID (1.1, R6). -/
def validMeterId (m : MeterId) : Bool := m != 0 && m != 0xFFFFFFFF

/-- A set of detector numbers, or of slots or shares, as a byte: number j is bit j - 1 (R39, R100). -/
def numberSet (p : Nat → Bool) : Byte :=
  (List.range 8).foldl (fun acc i => if p (i + 1) then acc ||| (1 <<< i) else acc) 0

/-- A two-byte figure: a count past 65,535, for which no rule states a value, is free (log 9). -/
def figure16 (n : Nat) : List Byte :=
  if n ≤ 65535 then bytesOf 2 n else bytesOf 2 (Config.freeCount n).toNat

end Sys2Proof.Machine
end

