-- ==== Sys2Proof/Machine/Flags.lean ====
section
/-!
DEFINITION. Station conditions (R192) and the settings image (R101, R189).
-/

namespace Sys2Proof.Machine

/-! ## Conditions -/

/-- PLAN_INVALID follows the plan state (R61, R192). -/
def State.planInvalid (s : State) : Bool := s.engine.plan.isNone

/-- The sum of the untracked counts (R67). -/
def Engine.untrackedSum (e : Engine) : Nat := e.ownUntracked + (e.untracked.map (·.2)).sum

/-- CAPACITY follows the untracked counts (R67, R192). -/
def State.capacity (s : State) : Bool := decide (0 < s.engine.untrackedSum)

/-- The conditions field (R192): bit set for a condition that is set, bits 10 to 15 being 0. -/
def State.conditionsField (s : State) : BitVec 16 :=
  let c := s.startup.conds
  let flags := [c.fresh, c.intakeOverrun, c.positionStale, c.storeFull, c.storeFault, c.txFault, c.duplicateSlot,
    c.configDefaulted, s.planInvalid, s.capacity]
  flags.foldr (fun b acc => (acc <<< 1) ||| (if b then 1 else 0)) 0

/-- A block reports a verify failure: STORE_FAULT is set (R192). -/
def State.setStoreFault (s : State) : State := { s with startup.conds.storeFault := true }

/-! ## The settings image -/

/-- A field outside its range is taken as the nearer end of the range (R189). -/
def clampField (v lo hi : Nat) : Nat := max lo (min v hi)

/-- Disposition from its code; a code above 3 is taken as OFF (R189). -/
def dispositionOf (code : Nat) : Disposition :=
  match code with
  | 0 => .latch
  | 1 => .release
  | 2 => .note
  | _ => .off

/-- Position timeout in ms from its code; a code above 3 is taken as 10 s (R189). -/
def positionTimeoutOf (code : Nat) : Nat :=
  match code with
  | 0 => 1000
  | 1 => 2000
  | 2 => 5000
  | _ => 10000

/-- Settings of detector `j + 1` in the image (R189). -/
def detectorSettingOf (image : List Byte) (j : Nat) : DetectorSetting where
  disposition := dispositionOf (fieldOf image (2 + 4 * j) 1)
  debounce := clampField (fieldOf image (3 + 4 * j) 1) 1 8
  weight := clampField (fieldOf image (4 + 4 * j) 1) 0 63
  releaseCount := clampField (fieldOf image (5 + 4 * j) 1) 1 15

/-- Percentages of band class `i` in the image (R189). -/
def bandOf (image : List Byte) (i : Nat) : Band where
  high := clampField (fieldOf image (30 + 3 * i) 2) 100 1000
  low := clampField (fieldOf image (32 + 3 * i) 1) 0 100

/-- The settings in use formed from an image (R189). -/
def settingsOf (image : List Byte) : Settings where
  collectors := clampField (fieldOf image 0 1) 2 8
  threshold := clampField (fieldOf image 1 1) 1 255
  detectors := (List.range 7).map (detectorSettingOf image)
  bands := (List.range 4).map (bandOf image)
  zeroDays := clampField (fieldOf image 42 1) 1 60
  reverseWindow := clampField (fieldOf image 43 2) 0 500
  lookback := clampField (fieldOf image 45 1) 1 4
  positionTimeout := positionTimeoutOf (fieldOf image 46 1)
  storeUnlisted := decide (0 < fieldOf image 47 1)

/-- Bytes of settings in the image (R189). -/
def imageBytes : Nat := 96

/-- The image in the configuration memory: 96 bytes and a CRC (R189). -/
def savedImageBytes : Nat := 98

/-- The image accepted at step 2: the 96 bytes when the CRC over them checks good (R189). -/
def acceptedImage (bs : List Byte) : Option (List Byte) :=
  if crcGood bs 0 imageBytes then some (bs.take imageBytes) else none

/-- The 98 bytes a save writes: the image and the CRC over it (R191). -/
def savedImage (image : List Byte) : List Byte := image ++ crcBytes image

/-- The weight of a detector's setting, the default being its default record. -/
def Settings.detector (st : Settings) (j : Nat) : DetectorSetting :=
  st.detectors.getD j ⟨.off, 1, 0, 1⟩

/-- The band of a class (R90). -/
def Settings.band (st : Settings) (k : Nat) : Band :=
  st.bands.getD k ⟨1000, 0⟩

end Sys2Proof.Machine
end

