-- ==== Sys2Proof/Machine/Layout.lean ====
section
/-!
DEFINITION. Layouts in flash: log records (R157), sector headers (R156), plan records (R59) and the plan header (R60); and the
walk of the log (R158).
-/

namespace Sys2Proof.Machine

/-! ## Log records (R157) -/

/-- Code of a record kind (R157). -/
def RecordKind.code : RecordKind → Nat
  | .runMark => 1
  | .firstRead => 2
  | .exception => 3
  | .suspect => 4
  | .relayUnconfirmed => 5
  | .unlisted => 6
  | .unstored => 7

/-- The origin byte: high and low nibble (R157). -/
def Origin.code : Origin → Nat
  | .own => 0x00
  | .adopted s => 0x10 + s % 16
  | .relayedIn s => 0x20 + s % 16
  | .unconfirmed none => 0x30
  | .unconfirmed (some s) => 0x30 + s % 16
  | .adopting => 0x40

/-- The marks byte of a record: bit 7 stale, bit 6 late, bit 5 alarm bubble (R157). -/
def RecordBody.marks (r : RecordBody) : Byte :=
  (if r.stale then 0x80 else 0) ||| (if r.late then 0x40 else 0) ||| (if r.alarm then 0x20 else 0)

/-- Offsets 0 to 29 of a record (R157). -/
def recordCovered (number : Nat) (r : RecordBody) : List Byte :=
  bytesOf 4 number ++ [BitVec.ofNat 8 r.kind.code, BitVec.ofNat 8 r.origin.code] ++ bytesOf 4 r.meterId.toNat
    ++ bytesOf 2 r.counter.toNat ++ bytesOf 4 r.reading.toNat ++ [r.digits.setWidth 8, r.flags] ++ bytesOf 2 r.run.toNat
    ++ bytesOf 2 r.segment ++ [r.marks, r.active, BitVec.ofNat 8 r.raised, BitVec.ofNat 8 r.score, r.rssi, r.channel]
    ++ [0xFF, 0xFF]

/-- The 32 bytes of a record (R157). -/
def recordBytes (number : Nat) (r : RecordBody) : List Byte :=
  recordCovered number r ++ crcBytes (recordCovered number r)

/-- What the machine reads of a record in flash (R141, R158, R172, R177). -/
structure LogRecord where
  pos : LogPos
  number : Nat
  kind : Nat
  meterId : MeterId
  counter : BitVec 16
  reading : BitVec 32
  flags : Byte
  run : BitVec 16
  late : Bool
  bytes : List Byte
deriving DecidableEq, Repr

/-- A slot holds a record: it is not free and its CRC checks good (R158). -/
def recordGood (bs : List Byte) : Bool := !allOnes bs && crcGood bs 0 30

/-- The record in the 32 bytes of a slot. -/
def recordOf (pos : LogPos) (bs : List Byte) : LogRecord where
  pos := pos
  number := fieldOf bs 0 4
  kind := (byteAt bs 4).toNat
  meterId := BitVec.ofNat 32 (fieldOf bs 6 4)
  counter := BitVec.ofNat 16 (fieldOf bs 10 2)
  reading := BitVec.ofNat 32 (fieldOf bs 12 4)
  flags := byteAt bs 17
  run := BitVec.ofNat 16 (fieldOf bs 18 2)
  late := (byteAt bs 22).getLsbD 6
  bytes := bs

/-! ## Sector headers (R156) -/

/-- Magic of a sector header (R156). -/
def headerMagic : Nat := 0x5EC7

/-- Offsets 0 to 8 of a sector header (R156). -/
def headerCovered (seq eraseCount : Nat) : List Byte :=
  bytesOf 2 headerMagic ++ bytesOf 4 seq ++ bytesOf 3 eraseCount

/-- A reserve entry: a bound and its CRC (R156). -/
def reserveBytes (bound : Nat) : List Byte :=
  bytesOf 4 bound ++ crcBytes (bytesOf 4 bound)

/-- What an opening programs (R162): header, CRC, the OPENED mark, reserve entry 1; the rest stays all ones. Of a sector sequence past the
range of R156 the header holds the low 32 bits (DESIGN CHOICE, log 64). -/
def openingBytes (o : Opening) : List Byte :=
  headerCovered o.seq o.eraseCount ++ crcBytes (headerCovered o.seq o.eraseCount) ++ [0x7F] ++ reserveBytes o.bound
    ++ List.replicate 14 0xFF

/-- Offset of the marks byte in a sector header (R156). -/
def marksOffset : Nat := 11

/-- Offset of reserve entry `k`, 1 to 3 (R156). -/
def reserveOffset (k : Nat) : Nat := 12 + 6 * (k - 1)

/-- The program of a header mark: offset in slot 0 and pattern (R156, R154: each bit written as 1 is left as it is). -/
def MarkReq.offset : MarkReq → Nat
  | .reserve _ k _ => reserveOffset k
  | _ => marksOffset

/-- See `MarkReq.offset`. -/
def MarkReq.pattern : MarkReq → List Byte
  | .full _ => [0xBF]
  | .uploaded _ => [0xDF]
  | .eraseBegun _ => [0xEF]
  | .retired _ => [0xF7]
  | .reserve _ _ b => reserveBytes b

/-- The sector a header mark is programmed in. -/
def MarkReq.sector : MarkReq → Nat
  | .full n | .uploaded n | .eraseBegun n | .retired n | .reserve n _ _ => n

/-- A sector header as read from slot 0 (R156, R170). A mark is set when its bit reads 0. -/
structure SectorHeader where
  allOnes : Bool
  magicGood : Bool
  crcGood : Bool
  seq : Nat
  eraseCount : Nat
  opened : Bool
  full : Bool
  uploaded : Bool
  eraseBegun : Bool
  retired : Bool
  /-- bounds of the valid reserve entries -/
  reserves : List Nat
deriving DecidableEq, Repr

/-- A reserve entry of slot 0 is valid: not all ones, CRC good. -/
def reserveAt (bs : List Byte) (k : Nat) : Option Nat :=
  let e := (bs.drop (reserveOffset k)).take 6
  if !allOnes e && crcGood e 0 4 then some (fieldOf e 0 4) else none

/-- Slot 0 read as a header (R156). -/
def headerOf (bs : List Byte) : SectorHeader where
  allOnes := Machine.allOnes bs
  magicGood := fieldOf bs 0 2 == headerMagic
  crcGood := Machine.crcGood bs 0 9
  seq := fieldOf bs 2 4
  eraseCount := fieldOf bs 6 3
  opened := !(byteAt bs marksOffset).getLsbD 7
  full := !(byteAt bs marksOffset).getLsbD 6
  uploaded := !(byteAt bs marksOffset).getLsbD 5
  eraseBegun := !(byteAt bs marksOffset).getLsbD 4
  retired := !(byteAt bs marksOffset).getLsbD 3
  reserves := [1, 2, 3].filterMap (reserveAt bs)

/-- A header is intact (R170, R172): magic and CRC good and one of the marks that the table of R170 asks for. DEDUCED (log 50): a header
without any of them falls under the table's last row, which calls it not intact. -/
def SectorHeader.intact (h : SectorHeader) : Bool :=
  h.magicGood && h.crcGood && (h.opened || h.uploaded || h.eraseBegun || h.retired)

/-! ## The plan (R58 to R60) -/

/-- A plan record's CRC checks good (R59). -/
def planRecordGood (bs : List Byte) : Bool := crcGood bs 0 17

/-- Meter ID of a plan record (R59). -/
def planMeterId (bs : List Byte) : MeterId := BitVec.ofNat 32 (fieldOf bs 0 4)

/-- The clamps of R59, in the rule's order: segment, digits, billed reading, band class, expected rate. -/
def planBaseline (segments : Nat) (bs : List Byte) : Nat × Nat × Nat × Nat × Nat :=
  let seg := min (fieldOf bs 4 2) (segments - 1)
  let digits := min (max (fieldOf bs 12 1) 5) 9
  let billed := min (fieldOf bs 6 4) (10 ^ digits - 1)
  let band := min (fieldOf bs 13 1) 3
  let rate := min (fieldOf bs 14 3) 1048575
  (seg, digits, billed, band, rate)

/-- A fresh detector record (R100). -/
def Detector.fresh : Detector := ⟨.idle, 0, 0, none⟩

/-- The route entry made from plan record `index` (R59, R63). -/
def entryOf (segments index : Nat) (origin : EntryOrigin) (bs : List Byte) : Entry :=
  let (seg, digits, billed, band, rate) := planBaseline segments bs
  { meterId := planMeterId bs, origin := origin, planIndex := index, segment := seg, billed := billed,
    billedDay := fieldOf bs 10 2, digits := digits, band := band, rate := rate, status := .unread, lastHeard := none,
    firstRead := none, kept := none, detectors := List.replicate 7 Detector.fresh, score := 0, suspect := false }

/-- Offset of the plan header in slot 0 (R60). -/
def planHeaderOffset : Nat := 19

/-- Offsets 19 to 27 of slot 0 (R60), state 0x3C. -/
def planHeaderCovered (p : Plan) : List Byte :=
  bytesOf 4 p.ident.toNat ++ bytesOf 2 p.count ++ bytesOf 2 p.segments ++ [0x3C]

/-- What the header program writes from offset 19 on (R60). -/
def planHeaderBytes (p : Plan) : List Byte :=
  planHeaderCovered p ++ crcBytes (planHeaderCovered p)

/-- The plan header of slot 0, where it passes the header checks of R61. -/
def planHeaderOf (bs : List Byte) : Option Plan :=
  let count := fieldOf bs 23 2
  let segments := fieldOf bs 25 2
  if crcGood bs 19 9 && byteAt bs 27 == 0x3C && decide (1 ≤ count ∧ count ≤ 16384) && decide (1 ≤ segments ∧ segments ≤ 512) then
    some ⟨BitVec.ofNat 32 (fieldOf bs 19 4), count, segments⟩
  else none

/-! ## Reading the flash -/

/-- The 32 bytes of a slot of a sector (R154). -/
def Memory.slotBytes (flash : Memory) (sector slot : Nat) : List Byte :=
  flash.readBytes (slotAddress sector slot) Config.slotBytes

/-- See `Memory.slotBytes`. -/
def Store.slotBytes (st : Store) (sector slot : Nat) : List Byte := st.flash.slotBytes sector slot

/-- The 32 bytes of plan slot `j` (R58). -/
def Store.planBytes (st : Store) (j : Nat) : List Byte :=
  st.flash.readBytes (planSlotAddress j) Config.slotBytes

/-! ## The walk of the log (R158) -/

/-- States whose sectors are in log order when they carry a sector sequence (R158). -/
def SectorState.inLog : SectorState → Bool
  | .opened | .full | .uploaded | .eraseListed | .retired => true
  | .erased | .erasing => false

/-- Insertion into a list of rows in ascending sector sequence. -/
def insertRow (r : Nat × SectorRow) : List (Nat × SectorRow) → List (Nat × SectorRow)
  | [] => [r]
  | x :: xs => if r.1 ≤ x.1 then r :: x :: xs else x :: insertRow r xs

/-- Rows that carry a sector sequence, in ascending sequence. -/
def sortRows (rows : List SectorRow) : List (Nat × SectorRow) :=
  (rows.filterMap fun r => r.seq.map fun q => (q, r)).foldr insertRow []

/-- The sectors of log order (R158), each with its sequence. -/
def logOrder (rows : List SectorRow) : List (Nat × SectorRow) :=
  sortRows (rows.filter (·.state.inLog))

/-- The records of one sector that a walk with last accepted number `last` accepts, from `slot` on for `fuel` slots; the walk's
last number after them (R158). -/
def walkSlots (flash : Memory) (q sector : Nat) : Nat → Nat → Nat → List LogRecord
  | 0, _, _ => []
  | fuel + 1, slot, last =>
    let bs := flash.slotBytes sector slot
    let r := recordOf ⟨q, slot⟩ bs
    if recordGood bs && decide (last < r.number) then r :: walkSlots flash q sector fuel (slot + 1) r.number
    else walkSlots flash q sector fuel (slot + 1) last

/-- The position before the log (R158). -/
def LogPos.start : LogPos := ⟨0, 0⟩

/-- The records a walk of these sectors accepts (R158). -/
def walkSectors (flash : Memory) (last : Nat) : List (Nat × SectorRow) → List LogRecord
  | [] => []
  | (q, r) :: rest =>
    let got := walkSlots flash q r.sector (Config.sectorSlots - 1) 1 last
    got ++ walkSectors flash ((got.getLast?.map (·.number)).getD last) rest

/-- Every record that a walk from the beginning of log order accepts (R158). -/
def Store.walk (st : Store) : List LogRecord := walkSectors st.flash 0 (logOrder st.rows)

/-- The tail (R158): the first accepted record, passing over RETIRED sectors. -/
def Store.tail (st : Store) : Option LogRecord :=
  (walkSectors st.flash 0 ((logOrder st.rows).filter fun r => r.2.state != .retired)).head?

/-- The first slot of a sector that the log does not reach: the head slot in the head sector (R158). -/
def slotLimit (head : Option (Nat × Nat)) (sector : Nat) : Nat :=
  match head with
  | some (n, slot) => if n = sector then slot else Config.sectorSlots
  | none => Config.sectorSlots

/-- The first slot after position `pos` in these sectors, with its sector's number (R158): in the sector of `pos` while it is in log
order, else from the first slot of the next sector. -/
def nextSlotIn (head : Option (Nat × Nat)) (pos : LogPos) : List (Nat × SectorRow) → Option (LogPos × Nat)
  | [] => none
  | (q, r) :: rest =>
    let slot := if q = pos.sector then pos.slot + 1 else 1
    if pos.sector ≤ q ∧ slot < slotLimit head r.sector then some (⟨q, slot⟩, r.sector) else nextSlotIn head pos rest

/-- The next slot of the log after position `pos`, up to the head; absent where the head is reached (R158). -/
def Store.nextSlot (st : Store) (pos : LogPos) : Option (LogPos × Nat) := nextSlotIn st.head pos (logOrder st.rows)

/-- The record in a slot of a sector, where a walk whose last accepted number is `last` accepts it (R158). -/
def Store.acceptedAt (st : Store) (pos : LogPos) (sector last : Nat) : Option LogRecord :=
  let bs := st.slotBytes sector pos.slot
  let r := recordOf pos bs
  if recordGood bs && decide (last < r.number) then some r else none

/-- The log holds the record of this number at this position: its sector is still in log order (R140, R158). -/
def Store.holdsAt (st : Store) (pos : LogPos) (number : Nat) : Bool :=
  (logOrder st.rows).any fun x =>
    x.1 == pos.sector && recordGood (st.slotBytes x.2.sector pos.slot) && fieldOf (st.slotBytes x.2.sector pos.slot) 0 4 == number

end Sys2Proof.Machine
end

