-- ==== Sys2Proof/Machine/Store.lean ====
section
/-!
DEFINITION. The Store Controller's own operations (chapter 9): sector table, room, append, page buffers, openings, header marks,
reserve entries, disposal of records without a place.
-/

namespace Sys2Proof.Machine

/-! ## Sector table (R156) -/

/-- The row of a sector. -/
def Store.row (st : Store) (n : Nat) : Option SectorRow := st.rows.find? (·.sector == n)

/-- A change of one sector's row. -/
def Store.updateRow (st : Store) (n : Nat) (f : SectorRow → SectorRow) : Store :=
  { st with rows := st.rows.map fun r => if r.sector = n then f r else r }

/-- The newest sector that carries a sector sequence (R160). -/
def Store.newest (st : Store) : Option (Nat × SectorRow) := (sortRows st.rows).getLast?

/-- The candidate (R160): the first sector not RETIRED in circular order after the newest, or sector 128 when none carries a
sequence. -/
def Store.candidate (st : Store) : Option SectorRow :=
  match st.newest with
  | none => st.row Config.firstLogSector
  | some (_, r) =>
    (st.rows.filter (fun x => decide (r.sector < x.sector)) ++ st.rows.filter (fun x => decide (x.sector ≤ r.sector))).find?
      fun x => x.state != .retired

/-- The candidate is ERASED. -/
def Store.candidateErased (st : Store) : Bool :=
  match st.candidate with
  | some r => r.state == .erased
  | none => false

/-- Number of ERASED log sectors (R39, R168). -/
def Store.freeSectors (st : Store) : Nat := st.rows.countP (·.state == .erased)

/-- Highest erase count among the log sectors (R168). -/
def Store.highestEraseCount (st : Store) : Nat := (st.rows.map (·.eraseCount)).foldl max 0

/-! ## Room (R160) -/

/-- The places of the store (R160). -/
def Store.places (st : Store) : Nat :=
  match st.head with
  | some (_, slot) => Config.sectorSlots - slot
  | none => 0

/-- Records held in the two page buffers. -/
def Store.held (st : Store) : Nat := st.pageBuf.length + st.second.length

/-- The store has room (R159, R160). -/
def Store.hasRoom (st : Store) : Bool :=
  decide (st.seqCounter < Config.seqMax) && (decide (st.held < st.places) || st.candidateErased)

/-- The page buffer's target (R161): the free slots from the head to the end of its page. -/
def Store.target (st : Store) : Nat :=
  match st.head with
  | some (_, slot) => 8 - slot % 8
  | none => 0

/-- The start-up scan has ended, so that the store is judged (R173). -/
def State.scanned (s : State) : Bool := s.startup.step != .config && s.startup.step != .scan

/-- The store's becoming full is reported: STORE_FULL is set while it has no room (R160; log 36). -/
def State.noteFull (s : State) : State :=
  if s.scanned && !s.store.hasRoom then { s with startup.conds.storeFull := true } else s

/-- A verify failure is counted and reported (R164). -/
def State.countFault (s : State) : State :=
  { s with store.faults := countUp s.store.faults, startup.conds.storeFault := true }

/-! ## Page buffers (R161, R162) -/

/-- The page buffer begins its page program: it is PROGRAMMING, and its request waits at the arbiter (R161). -/
def Store.startProgram (st : Store) : Store :=
  { st with programming := true, progs := st.progs ++ [.logPage] }

/-- FILLING, and as many records as the target, or a flush in progress with a record held (R161, R163). -/
def Store.programIfDue (st : Store) : Store :=
  if !st.programming && !st.pageBuf.isEmpty && (decide (st.target ≤ st.pageBuf.length) || st.flushing) then st.startProgram else st

/-- The oldest record of the page buffer entered more than 500 ms ago (R162). -/
def Store.overdue (st : Store) (now : Time) : Bool :=
  match st.pageBuf with
  | b :: _ => decide (Config.pageBufferTime < elapsed now b.entered)
  | [] => false

/-- Steps 3 and 4 of R162: FILLING, refilled from the second buffer up to the target, and the next program begun where due. -/
def Store.refill (st : Store) (now : Time) : Store :=
  let k := st.target - st.pageBuf.length
  let st := { st with programming := false, pageBuf := st.pageBuf ++ st.second.take k, second := st.second.drop k }
  if st.overdue now then st.startProgram else st.programIfDue

/-- A number is given (R159, R183): the counter grows by one, and the number is the last given. -/
def Store.givenNumber (st : Store) : Store :=
  { st with seqCounter := st.seqCounter + 1, lastGiven := st.seqCounter }

/-- A record enters the page buffer (R160). -/
def Store.enterPage (st : Store) (b : Buffered) : Store := { st with pageBuf := st.pageBuf ++ [b] }

/-- A record enters the second buffer (R160). -/
def Store.enterSecond (st : Store) (b : Buffered) : Store := { st with second := st.second ++ [b] }

/-- An append (R160): accepted with its number, or refused. -/
def append (s : State) (b : RecordBody) : State × Option Nat :=
  let st := s.store
  let n := st.seqCounter
  if !st.hasRoom then (s, none)
  else if !st.programming then
    (State.noteFull { s with store := (st.givenNumber.enterPage ⟨n, b, s.now⟩).programIfDue }, some n)
  else if st.second.length < Config.bufferCapacity then
    (State.noteFull { s with store := st.givenNumber.enterSecond ⟨n, b, s.now⟩ }, some n)
  else (s, none)

/-- A refused record is dropped and counted (R160). -/
def State.countDropped (s : State) : State := { s with store.dropped := countUp s.store.dropped }

/-- An append of a record that is dropped and counted when refused (R160). -/
def appendOrDrop (s : State) (b : RecordBody) : State :=
  match append s b with
  | (s, some _) => s
  | (s, none) => s.countDropped

/-! ## Sector ends and openings (R162) -/

/-- A header-mark program is requested; a request that already waits or is being served is not repeated (R156; log 29). -/
def Store.requestMark (st : Store) (m : MarkReq) : Store :=
  if st.marks.contains m || st.serving == some (.mark m) then st else { st with marks := st.marks ++ [m] }

/-- The candidate is opened if it is ERASED; otherwise no sector is OPENED and the places are 0 (R162). -/
def Store.openCandidate (st : Store) : Store :=
  match st.candidate with
  | some r =>
    if r.state = .erased then
      { st with
        opening := some ⟨r.sector, st.sectorSeq, r.eraseCount, st.seqCounter⟩
        head := some (r.sector, 1)
        progs := st.progs ++ [.opening] }
    else { st with head := none }
  | none => { st with head := none }

/-- The head leaves a full sector (R162 step 2). DESIGN CHOICE (log 63): its FULL mark is requested here even where a head sector taken on
at start (log 16) has the mark set already. -/
def Store.sectorEnd (st : Store) (n : Nat) : Store :=
  ((st.updateRow n fun r => { r with state := .full }).requestMark (.full n)).openCandidate

/-- The head leaves a sector that retires (R164). -/
def Store.sectorRetired (st : Store) (n : Nat) : Store :=
  ((st.updateRow n fun r => { r with state := .retired }).requestMark (.retired n)).openCandidate

/-- The bytes of the page buffer's program (R161): its records, oldest first. -/
def Store.pageBytes (st : Store) : List Byte :=
  st.pageBuf.flatMap fun b => recordBytes b.number b.body

/-- A page program that verified (R162 steps 1 and 2): records in flash and in the row, the head past them. DEDUCED (log 44): the sector
is full when the head passes its last slot, as R156 says of FULL, so a program of the last page's first slots leaves it OPENED. -/
def Store.pageVerified (st : Store) (sector slot : Nat) : Store :=
  let st1 := { st with
    flash := st.flash.program (slotAddress sector slot) st.pageBytes
    head := some (sector, slot + st.pageBuf.length)
    pageBuf := [] }
  let st2 := st1.updateRow sector fun r =>
    { r with first := r.first.or (st.pageBuf.head?.map (·.number)), last := (st.pageBuf.getLast?.map (·.number)).or r.last }
  if Config.sectorSlots ≤ slot + st.pageBuf.length then st2.sectorEnd sector else st2

/-- First slot of the page after the one that holds `slot` (R164, R171). -/
def nextPage (slot : Nat) : Nat := (slot / 8 + 1) * 8

/-- A page program that failed (R164): the page is abandoned, and the sector may retire or end. `use` names the free bytes. -/
def Store.pageAbandoned (st : Store) (use sector slot : Nat) : Store :=
  let st1 := { st with
    flash := st.flash.tornProgram use (slotAddress sector slot) st.pageBytes
    head := some (sector, nextPage slot) }
  let st2 := st1.updateRow sector fun r => { r with abandoned := r.abandoned + 1 }
  let retires := match st2.row sector with
    | some r => decide (Config.retireAfter ≤ r.abandoned)
    | none => false
  if retires then st2.sectorRetired sector
  else if Config.sectorSlots ≤ nextPage slot then st2.sectorEnd sector
  else st2

/-- After a fault (R164, R165): the page buffer takes the new target, what is beyond it goes ahead of the second buffer, and the
records beyond the places, with no ERASED candidate, are removed. The second part of the answer is what was removed. DESIGN CHOICE
(log 45): the second buffer takes the records that return to it whatever it holds, so it may then hold more than 8. -/
def Store.resplit (st : Store) : Store × List Buffered :=
  let all := st.pageBuf ++ st.second
  let keep := if st.places < all.length && !st.candidateErased then all.take st.places else all
  let gone := if st.places < all.length && !st.candidateErased then all.drop st.places else []
  let fromPage := min st.pageBuf.length (min st.target keep.length)
  ({ st with pageBuf := keep.take fromPage, second := keep.drop fromPage }, gone)

/-- After `resplit`, the page buffer's program is requested again (R164). DESIGN CHOICE (log 62): a page buffer that R165 has left empty is
FILLING, with no program requested. -/
def Store.reprogram (st : Store) : Store :=
  let rest := st.progs.filter (· != .logPage)
  if st.pageBuf.isEmpty then { st with programming := false, progs := rest }
  else if st.programming then { st with progs := rest ++ [.logPage] }
  else st

/-- The opening's program verified (R162). DESIGN CHOICE (log 64): past 4,294,967,294, the last sector sequence of R156, the counter goes on
growing, and the header holds its low 32 bits. -/
def Store.opened (st : Store) (o : Opening) : Store :=
  let st1 := { st with
    flash := st.flash.program (slotAddress o.sector 0) (openingBytes o)
    opening := none
    sectorSeq := st.sectorSeq + 1 }
  st1.updateRow o.sector fun r => { r with state := .opened, seq := some o.seq, abandoned := 0, first := none, last := none }

/-- The opening's program failed (R164): its sector sequence is consumed, the sector retires, the next candidate is opened. -/
def Store.openingFailed (st : Store) (use : Nat) (o : Opening) : Store :=
  let st1 := { st with
    flash := st.flash.tornProgram use (slotAddress o.sector 0) (openingBytes o)
    opening := none
    sectorSeq := st.sectorSeq + 1 }
  (st1.updateRow o.sector fun r => { r with seq := some o.seq }).sectorRetired o.sector

/-! ## Numbers beyond the log (R169) -/

/-- How a request for a sequence number for a synthesized record is answered (R169). -/
inductive NumberAnswer where
  | given
  | reserve (sector entry bound : Nat)
  | openFirst
  | wait
  | noNumber
deriving DecidableEq, Repr

/-- The next unused reserve entry, 2 or 3, of a sector (R156, R169). DESIGN CHOICE (log 46): an entry is unused while its bytes are all
ones, so one whose failed program left them so is taken again. -/
def Store.unusedReserve (st : Store) (sector : Nat) : Option Nat :=
  [2, 3].find? fun k => allOnes (((st.slotBytes sector 0).drop (reserveOffset k)).take 6)

/-- The bound a reserve entry records (R169). -/
def Store.reserveBound (st : Store) : Nat := min (st.seqCounter + Config.reserveSpan) Config.seqMax

/-- The answer to a request for a number (R159, R169). DEDUCED (log 30): with the counter at 4,294,967,295 it is no number at once, and no
reserve entry is requested. -/
def Store.numberAnswer (st : Store) : NumberAnswer :=
  if Config.seqMax ≤ st.seqCounter then .noNumber
  else if st.seqCounter < st.durableBound then .given
  else
    match (sortRows (st.rows.filter (·.state != .retired))).getLast? with
    | some (_, r) =>
      match st.unusedReserve r.sector with
      | some k => .reserve r.sector k st.reserveBound
      | none => .noNumber
    | none =>
      if st.opening.isSome then .wait
      else if st.candidateErased then .openFirst
      else .noNumber

/-! ## The erase list (R168) -/

/-- A sector's place in the erase list: its sector sequence, and 0 for one without (R168, R170). -/
def Store.eraseKey (st : Store) (n : Nat) : Nat := ((st.row n).bind (·.seq)).getD 0

/-- An item put into the erase list by sector sequence, after those of its own (R168). -/
def Store.insertErase (st : Store) (i : EraseItem) : List EraseItem → List EraseItem
  | [] => [i]
  | x :: xs => if st.eraseKey i.sector < st.eraseKey x.sector then i :: x :: xs else x :: st.insertErase i xs

/-- An UPLOADED sector joins the erase list, which holds no sector twice (R168, R182). -/
def Store.listErase (st : Store) (l : List EraseItem) (n : Nat) : List EraseItem :=
  if l.any (·.sector == n) then l else st.insertErase ⟨n, false, .listed⟩ l

/-- The sector at the head of the erase list is taken on: its ERASE-BEGUN mark is requested, or skipped for a sector the scan
placed (R168). -/
def Store.serviceEraseList (st : Store) : Store :=
  match st.eraseList with
  | ⟨n, scanPlaced, .listed⟩ :: rest =>
    if scanPlaced then
      ({ st with eraseList := ⟨n, scanPlaced, .ready⟩ :: rest }).updateRow n fun r => { r with state := .erasing }
    else
      ({ st with eraseList := ⟨n, scanPlaced, .marking⟩ :: rest }).requestMark (.eraseBegun n)
  | _ => st

/-- The ERASE-BEGUN program of a sector has ended, verified or not: the sector is ERASING and its erase waits (R168). -/
def Store.eraseBegun (st : Store) (n : Nat) : Store :=
  ({ st with eraseList := st.eraseList.map fun (e : EraseItem) => if e.sector = n then { e with phase := .ready } else e }).updateRow n
    fun r => { r with state := .erasing }

/-- A log sector's erase completes (R168): ERASED, its erase count up, out of the list. The candidate is opened if it is ERASED now
and no sector is OPENED (R162): the erased sector, or one that its erase has made the candidate. -/
def Store.sectorErased (st : Store) (n : Nat) : Store :=
  let st1 := { st with
    flash := st.flash.erase (slotAddress n 0) Config.sectorBytes
    erase := none
    eraseList := st.eraseList.filter (·.sector != n) }
  let st2 := st1.updateRow n fun r =>
    { r with
      state := .erased
      seq := none
      eraseCount := min (r.eraseCount + 1) Config.eraseCountMax
      abandoned := 0
      first := none
      last := none }
  if st2.head.isNone && st2.candidateErased then st2.openCandidate else st2

end Sys2Proof.Machine
end

