-- ==== Sys2Proof/Machine/Table.lean ====
section
/-!
DEFINITION. The route table and what the Route Tracker keeps from the engine's reports: segment counts (R145) and the revisit
list (R151). A change of an entry and its report are one operation (R74).
-/

namespace Sys2Proof.Machine

/-! ## Shares (R37) -/

/-- The share of a meter for `n` collectors (R37). -/
def shareOf (n : Nat) (m : MeterId) : Nat := (m.toNat % 65521) % n + 1

/-- The share of a meter at this station (R37). -/
def State.shareOf (s : State) (m : MeterId) : Nat := Machine.shareOf s.settings.collectors m

/-- The number of the share an entry belongs to (R63). -/
def Entry.share (own : Nat) (e : Entry) : Nat :=
  match e.origin with
  | .own => own
  | .adopted n => n

/-! ## Segment counts (R144, R145) -/

/-- An entry counts in the segment table in any status other than HANDING (R144). -/
def Entry.counted (e : Entry) : Bool := e.status != .handing

/-- An entry counts as read: READ, LATE or ELSEWHERE (R144). -/
def Entry.countsRead (e : Entry) : Bool := e.status == .read || e.status == .late || e.status == .elsewhere

/-- An entry counts as missed (R144). -/
def Entry.countsMissed (e : Entry) : Bool := e.status == .missed

/-- An entry counts as suspect: other than HANDING, with its mark set (R144). -/
def Entry.countsSuspect (e : Entry) : Bool := e.counted && e.suspect

/-- A row with an entry counted in, where it is the entry's segment (R144). -/
def SegmentRow.add (r : SegmentRow) (e : Entry) : SegmentRow :=
  if r.segment = e.segment then
    { r with
      expected := r.expected + e.counted.toNat
      read := r.read + e.countsRead.toNat
      missed := r.missed + e.countsMissed.toNat
      suspect := r.suspect + e.countsSuspect.toNat }
  else r

/-- A row with an entry counted out, where it is the entry's segment (R144). -/
def SegmentRow.remove (r : SegmentRow) (e : Entry) : SegmentRow :=
  if r.segment = e.segment then
    { r with
      expected := r.expected - e.counted.toNat
      read := r.read - e.countsRead.toNat
      missed := r.missed - e.countsMissed.toNat
      suspect := r.suspect - e.countsSuspect.toNat }
  else r

/-- The segment table at the end of a build (R66, R144): S rows AHEAD with the counts of the entries. -/
def freshRows (segments : Nat) (table : List Entry) : List SegmentRow :=
  (List.range segments).map fun i => table.foldl SegmentRow.add ⟨i, .ahead, 0, 0, 0, 0⟩

/-! ## The revisit list (R151) -/

/-- The revisit item of an entry. -/
def Entry.revisitItem (e : Entry) : RevisitItem := ⟨e.meterId, e.segment, e.planIndex⟩

/-- The order of the revisit list: segment, then plan index (R151). -/
def RevisitItem.before (a b : RevisitItem) : Bool :=
  decide (a.segment < b.segment) || (a.segment == b.segment && decide (a.planIndex < b.planIndex))

/-- An insertion at its place in the order (R151). -/
def insertRevisit (i : RevisitItem) : List RevisitItem → List RevisitItem
  | [] => [i]
  | x :: xs => if i.before x then i :: x :: xs else x :: insertRevisit i xs

/-- The tracker after the report that an entry is no longer as it was (R145, R151). -/
def Tracker.forget (t : Tracker) (e : Entry) : Tracker :=
  { t with
    rows := t.rows.map (·.remove e)
    revisit := if e.status = .missed then t.revisit.filter (· != e.revisitItem) else t.revisit }

/-- The tracker after the report of an entry as it is now (R145, R151). -/
def Tracker.learn (t : Tracker) (e : Entry) : Tracker :=
  { t with
    rows := t.rows.map (·.add e)
    revisit := if e.status = .missed then insertRevisit e.revisitItem t.revisit else t.revisit }

/-- The state of a segment (R144); AHEAD where there is no row. -/
def Tracker.segmentState (t : Tracker) (n : Nat) : SegmentState :=
  match t.rows.find? (·.segment == n) with
  | some r => r.state
  | none => .ahead

/-! ## The route table (R64, R65) -/

/-- The entry of a meter (R65). -/
def Engine.lookup (e : Engine) (m : MeterId) : Option Entry := e.table.find? (·.meterId == m)

/-- The table kept in ascending plan index (R64). -/
def insertEntry (e : Entry) : List Entry → List Entry
  | [] => [e]
  | x :: xs => if e.planIndex < x.planIndex then e :: x :: xs else x :: insertEntry e xs

/-- The entry of a meter replaced by its changed self, unreported; no two entries are of one meter (R64). -/
def Engine.replaceEntry (g : Engine) (old new : Entry) : Engine :=
  { g with table := g.table.map fun e => if e.meterId = old.meterId then new else e }

/-- A change of an entry, with its report to the Route Tracker (R74, R145). -/
def changeEntry (s : State) (old new : Entry) : State :=
  { s with
    engine := s.engine.replaceEntry old new
    tracker := (s.tracker.forget old).learn new }

/-- A kept record is handed to the store as a FIRST READ append, dropped and counted where refused (R70, R71). -/
def giveKept (s : State) (e : Entry) : State :=
  match e.kept with
  | some b => appendOrDrop s b
  | none => s

/-- An entry taken out of the table, with its HANDOVER item (R54, R70). -/
def Engine.dropEntry (g : Engine) (e : Entry) : Engine :=
  { g with
    table := g.table.filter (·.meterId != e.meterId)
    handing := g.handing.filter (·.meterId != e.meterId) }

/-- A removal (R70): kept record to the store first, the entry gone, the removal reported. -/
def removeEntry (s : State) (e : Entry) : State :=
  let s := giveKept s e
  { s with engine := s.engine.dropEntry e, tracker := s.tracker.forget e }

/-- The entries of an abandoned load go, none of them counted in the segments (R52, R70). -/
def dropLoadEntries (s : State) (share : Nat) : State :=
  { s with engine.table := s.engine.table.filter (·.origin != .adopted share) }

/-! ## Records (R95, R96, R150, R157) -/

/-- A RUN MARK record (R157): counter 1 with the run day for open, counter 2 with 0 for close. -/
def runMarkRecord (s : State) (isOpen : Bool) (run : BitVec 16) : RecordBody where
  kind := .runMark
  origin := .own
  meterId := 0
  counter := if isOpen then 1 else 2
  reading := if isOpen then s.engine.runDay.setWidth 32 else 0
  digits := 0
  flags := 0
  run := run
  segment := s.tracker.segment
  stale := s.tracker.stale
  late := false
  alarm := false
  active := 0
  raised := 0
  score := 0
  rssi := 0
  channel := 0

/-- An UNLISTED record of a packet (R96). -/
def unlistedRecord (s : State) (origin : Origin) (p : Packet) : RecordBody where
  kind := .unlisted
  origin := origin
  meterId := p.meterId
  counter := p.counter
  reading := p.reading
  digits := p.digits
  flags := p.flags
  run := s.runNumber
  segment := s.tracker.segment
  stale := s.tracker.stale
  late := false
  alarm := p.alarm
  active := 0
  raised := 0
  score := 0
  rssi := p.rssi
  channel := p.channel

/-- A RELAY-UNCONFIRMED record (R127). -/
def unconfirmedRecord (s : State) (p : Packet) (segment : Nat) (stale : Bool) (target : Option Nat) : RecordBody where
  kind := .relayUnconfirmed
  origin := .unconfirmed target
  meterId := p.meterId
  counter := p.counter
  reading := p.reading
  digits := p.digits
  flags := p.flags
  run := s.runNumber
  segment := segment
  stale := stale
  late := false
  alarm := p.alarm
  active := 0
  raised := 0
  score := 0
  rssi := p.rssi
  channel := p.channel

/-- A self-store (R127): one RELAY-UNCONFIRMED record handed over and counted. -/
def selfStore (s : State) (p : Packet) (segment : Nat) (stale : Bool) (target : Option Nat) : State :=
  let s := appendOrDrop s (unconfirmedRecord s p segment stale target)
  { s with relay.unconfirmed := countUp s.relay.unconfirmed }

/-- A self-store of a relay list entry, with its target slot as it stands (R127). -/
def selfStoreEntry (s : State) (e : RelayEntry) : State :=
  selfStore s e.packet e.segment e.stale e.target

end Sys2Proof.Machine
end

