-- ==== Sys2Proof/Machine/Detectors.lean ====
section
/-!
DEFINITION. The reading arithmetic (R84 to R91), the detector transitions (R102 to R110), the score and the findings clear
(R111 to R118).
-/

namespace Sys2Proof.Machine

/-! ## The reading arithmetic (5.4) -/

/-- The four kinds of packet by stage 1 (R85). -/
inductive PacketKind where
  | first | repeated | advance | regress
deriving DecidableEq, Repr

/-- Stage 1 (R85). -/
def packetKind (last : Option LastHeard) (c : BitVec 16) : PacketKind :=
  match last with
  | none => .first
  | some l =>
    let g := (c - l.counter).toNat
    if g = 0 then .repeated else if g ≤ 32767 then .advance else .regress

/-- Stage 0, the range check (R84): passed. -/
def rangePassed (e : Entry) (p : Packet) : Bool :=
  p.digits.toNat == e.digits && decide (p.reading.toNat < 10 ^ e.digits)

/-- The reverse window (R87). -/
def reverseWindow (st : Settings) (e : Entry) : Nat := 10 ^ e.digits * st.reverseWindow / 10000

/-- A drop from `high` to `low` by the window or less (R87, R88). -/
def smallDrop (w high low : Nat) : Bool := decide (low < high) && decide (high - low ≤ w)

/-- The drive check shows REVERSE (R87): made for an advance or a regress. -/
def driveReverse (st : Settings) (e : Entry) (p : Packet) : Bool :=
  match packetKind e.lastHeard p.counter, e.lastHeard with
  | .advance, some l | .regress, some l => smallDrop (reverseWindow st e) l.reading.toNat p.reading.toNat
  | _, _ => false

/-- The billing check (R88): the consumption, or none where it shows REVERSE. -/
def consumption (st : Settings) (e : Entry) (p : Packet) : Option Nat :=
  let r := p.reading.toNat
  if e.billed ≤ r then some (r - e.billed)
  else if smallDrop (reverseWindow st e) e.billed r then none
  else some (r + 10 ^ e.digits - e.billed)

/-- Stage 3, the elapsed days (R89). -/
def elapsedDays (runDay billedDay : Nat) : Nat :=
  if billedDay < runDay then min (runDay - billedDay) 4095 else 1

/-- Stage 4, RATE_HIGH (R90). -/
def rateHigh (st : Settings) (e : Entry) (q d : Nat) : Bool :=
  decide (e.rate * d * (st.band e.band).high < q * 1600)

/-- Stage 4, RATE_LOW (R90). -/
def rateLow (st : Settings) (e : Entry) (q d : Nat) : Bool :=
  decide (q * 1600 < e.rate * d * (st.band e.band).low) || (q == 0 && decide (st.zeroDays ≤ d))

/-- Meter flag bits (1.1): bit 7 MAG, bit 6 COVER, bit 5 TILT, bit 4 REVFLOW. -/
def tamperFlag (flags : Byte) : Bool := flags.getLsbD 7 || flags.getLsbD 6 || flags.getLsbD 5

/-- REVFLOW (1.1). -/
def reverseFlow (flags : Byte) : Bool := flags.getLsbD 4

/-- The seven results of a packet, detectors 1 to 7 (R84 to R91): shown (true), clean (false) or not tested. -/
def packetResults (st : Settings) (runDay : BitVec 16) (e : Entry) (p : Packet) : List (Option Bool) :=
  match packetKind e.lastHeard p.counter with
  | .repeated =>
    let differs := match e.lastHeard with
      | some l => p.reading != l.reading
      | none => false
    [none, none, none, none, none, some differs, none]
  | kind =>
    let passed := rangePassed e p
    let q := consumption st e p
    let d := elapsedDays runDay.toNat e.billedDay
    let reverse := driveReverse st e p || q.isNone || reverseFlow p.flags
    let rated := passed && decide (0 < e.rate)
    [some (tamperFlag p.flags),
      if passed then some reverse else none,
      if rated then q.map fun q => rateHigh st e q d else none,
      if rated then q.map fun q => rateLow st e q d else none,
      match kind with
        | .advance => some false
        | .regress => some true
        | _ => none,
      none,
      some (!passed)]

/-! ## Detector transitions (6.3) -/

/-- The consecutive count after a shown result (R103 to R106): `jump` is the alarm-bubble case of METER_FLAGS (R105). -/
def shownCount (k : Nat) (jump : Bool) (c : Nat) : Nat :=
  if jump then min 8 (max k (c + 1)) else c + 1

/-- A shown result (R103 to R106): the detector after it, and whether it is raised. -/
def detectorShown (ds : DetectorSetting) (jump : Bool) (d : Detector) : Detector × Bool :=
  let n := shownCount ds.debounce jump d.consecutive
  match d.state, ds.disposition with
  | _, .off => (d, false)
  | .active, .note => ({ d with last := some true }, false)
  | .active, _ => (⟨.active, min 8 n, 0, some true⟩, false)
  | _, .note =>
    if n = ds.debounce then (⟨.idle, 0, 0, some true⟩, true) else (⟨.pending, n, 0, some true⟩, false)
  | _, _ =>
    if n = ds.debounce then (⟨.active, n, 0, some true⟩, true) else (⟨.pending, n, 0, some true⟩, false)

/-- A clean result (R107 to R109). -/
def detectorClean (ds : DetectorSetting) (d : Detector) : Detector :=
  match d.state, ds.disposition with
  | _, .off => d
  | .active, .release =>
    if d.clean + 1 = ds.releaseCount then ⟨.idle, 0, 0, some false⟩ else ⟨.active, 0, d.clean + 1, some false⟩
  | .active, _ => ⟨.active, 0, 0, some false⟩
  | _, _ => ⟨.idle, 0, d.clean, some false⟩

/-- One detector takes its result (R102): the record after it, and whether it is raised. -/
def detectorStep (ds : DetectorSetting) (jump : Bool) (r : Option Bool) (d : Detector) : Detector × Bool :=
  match r with
  | none => (d, false)
  | some true => detectorShown ds jump d
  | some false => (detectorClean ds d, false)

/-- The seven detectors take their results in number order (R102): the records after them, and which are raised. `alarm` reaches
METER_FLAGS alone (R105). -/
def detectorsStep (st : Settings) (alarm : Bool) (results : List (Option Bool)) (ds : List Detector) : List (Detector × Bool) :=
  (List.range 7).map fun j =>
    detectorStep (st.detector j) (alarm && j == 0) (results.getD j none) (ds.getD j ⟨.idle, 0, 0, none⟩)

/-- The score (R111): the weights of the ACTIVE detectors, at most 255. -/
def scoreOf (st : Settings) (ds : List Detector) : Nat :=
  min 255 (((List.range 7).map fun j =>
    if (ds.getD j ⟨.idle, 0, 0, none⟩).state = .active then (st.detector j).weight else 0).sum)

/-- The active-detector set as a byte (R100): detector j is bit j - 1. -/
def activeSet (ds : List Detector) : Byte :=
  numberSet fun j => match ds[j - 1]? with
    | some d => d.state == .active
    | none => false

/-! ## Findings clear (6.6) -/

/-- One detector in the findings clear (R117): ACTIVE and last result not shown returns to IDLE, the last result kept. -/
def clearDetector (d : Detector) : Detector :=
  if d.state = .active ∧ d.last ≠ some true then { d with state := .idle, consecutive := 0, clean := 0 } else d

/-- How many detectors of an entry the clear returns to IDLE (R118). -/
def clearedCount (ds : List Detector) : Nat :=
  ds.countP fun d => d.state == .active && d.last != some true

/-- One entry in the findings clear (R117, R118): detectors, score, and a mark that clears below the threshold. -/
def clearEntry (st : Settings) (e : Entry) : Entry :=
  let ds := e.detectors.map clearDetector
  let score := scoreOf st ds
  { e with detectors := ds, score := score, suspect := e.suspect && decide (st.threshold ≤ score) }

end Sys2Proof.Machine
end

