-- ==== Sys2Proof/Machine/Presence.lean ====
section
/-!
DEFINITION. The Presence Monitor (chapter 3): participation, effective owners, recomputation, and what it orders: adoption,
abandoned loads, release requests, the judgement of held relay entries.
-/

namespace Sys2Proof.Machine

/-! ## Participation and owners (R42, R43) -/

/-- The view entry of a slot (R40). -/
def Presence.entry (p : Presence) (slot : Nat) : Option ViewEntry := p.view.find? (·.slot == slot)

/-- A change of one slot's view entry. -/
def Presence.updateView (p : Presence) (slot : Nat) (f : ViewEntry → ViewEntry) : Presence :=
  { p with view := p.view.map fun v => if v.slot = slot then f v else v }

/-- Contents agree with this station: RUNNING, the same current run, the same plan (R42). -/
def State.agrees (s : State) (c : PeerContents) : Bool :=
  c.runState == 5 && s.engine.currentRun == some c.run && s.engine.plan.map (·.ident) == some c.plan

/-- A slot of the view participates: heard within 2,000 ms, and presumed or in agreement (R42). -/
def State.participates (s : State) (slot : Nat) : Bool :=
  match s.presence.entry slot with
  | none => false
  | some v =>
    decide (elapsed s.now v.lastHeard < Config.absenceTime) &&
      (v.presumed.isSome || (match v.contents with
        | some c => s.agrees c
        | none => false))

/-- Slots after `n` in cyclic order over 1 to 8, the seven others first (R43). -/
def cyclicAfter (n : Nat) : List Nat := (List.range 8).map fun i => (n + i) % 8 + 1

/-- The effective owner of a share in this station's view (R43). -/
def State.effectiveOwner (s : State) (share : Nat) : Nat :=
  if share = s.slot then s.slot
  else if s.participates share then share
  else ((cyclicAfter share).find? fun n => n == s.slot || s.participates n).getD s.slot

/-- The effective owner of a share as the map holds it (R43). -/
def State.ownerOf (s : State) (share : Nat) : Nat := s.presence.owners.getD (share - 1) s.slot

/-- The state of a share (R44). -/
def State.shareState (s : State) (share : Nat) : ShareState := s.presence.shares.getD (share - 1) .notMine

/-- A share put into a state (R44). -/
def Presence.setShare (p : Presence) (share : Nat) (x : ShareState) : Presence :=
  { p with shares := p.shares.set (share - 1) x }

/-! ## The reading of a packet operation (R79, R80) -/

/-- The (meter ID, counter) pair of a taken item. -/
def Taken.pair : Taken → HeldPair
  | .intake p | .relayed (.moved p _ _) => ⟨p.meterId, p.counter⟩
  | .relayed (.relay _ p) => ⟨p.meterId, p.counter⟩
  | .relayed (.handover p) => ⟨p.meterId, p.counter⟩

/-- What a packet operation on an item reads now (R79, R80, R55). -/
def State.readingOf (s : State) (item : Taken) : PacketReading where
  held := s.relay.heldMemory.contains item.pair
  share := s.shareState (s.shareOf item.pair.meterId)

/-- A packet operation in progress has taken its reading (5.3; log 26). -/
def State.withReading (s : State) : State :=
  match s.engine.op with
  | .packet item none => { s with engine.op := .packet item (some (s.readingOf item)) }
  | _ => s

/-- A recomputation or a HELD meets a packet operation that has not yet taken its reading (R79, R80): either may be taken first
(FREE VALUE, log 26). -/
def raceReading (s : State) : State :=
  match s.engine.op with
  | .packet _ none =>
    { (if Config.readsFirst s.freeIndex then s.withReading else s) with freeIndex := s.freeIndex + 1 }
  | _ => s

/-! ## Held relay entries (R50, R125) -/

/-- A change of one relay list entry. -/
def Relay.updateEntry (r : Relay) (tag : Nat) (f : RelayEntry → RelayEntry) : Relay :=
  { r with list := r.list.map fun e => if e.tag = tag then f e else e }

/-- A relay list entry removed. -/
def Relay.removeEntry (r : Relay) (tag : Nat) : Relay := { r with list := r.list.filter (·.tag != tag) }

/-- The wait of an entry has run out (R125): 250 ms or more since its last send. -/
def RelayEntry.waitOver (e : RelayEntry) (now : Time) : Bool :=
  e.phase == .waiting && (match e.lastSend with
    | some t => decide (Config.relayWait ≤ elapsed now t)
    | none => false)

/-- The expiry of an entry's wait with its share NOT MINE (R125): DUE after sends 1 and 2, self-stored after the third. -/
def expireWait (s : State) (e : RelayEntry) : State :=
  if e.sends < 3 then { s with relay := s.relay.updateEntry e.tag fun x => { x with phase := .due } }
  else
    let s := selfStoreEntry s e
    { s with relay := s.relay.removeEntry e.tag }

/-- Held entries of a share that is NOT MINE again without a completed load (R50, R125). DESIGN CHOICE (log 52): those whose wait has
run out after the third send are self-stored in the order of the relay list. -/
def judgeHeldEntries (s : State) (share : Nat) : State :=
  (s.relay.list.filter fun e => e.share == share && e.waitOver s.now).foldl expireWait s

/-! ## Recomputation (R45) -/

/-- A read the engine waits for loses its reader (R52, R142). -/
def Store.orphanEngineRead (st : Store) : Store :=
  match st.serving with
  | some (.planRead _) => { st with serving := some (.planRead false) }
  | some (.rebuildRead _) => { st with serving := some (.rebuildRead false) }
  | _ => st

/-- The engine stops a load: its entries and its untracked count go, and the operation ends (R52). -/
def stopLoad (s : State) (share : Nat) : State :=
  let s := dropLoadEntries s share
  { s with
    engine.op := .idle
    engine.untracked := s.engine.untracked.filter (·.1 != share)
    store := s.store.orphanEngineRead }

/-- NOT MINE to QUEUED (R45, R46). -/
def queueShare (s : State) (share : Nat) : State :=
  { s with presence := { s.presence.setShare share .queued with adoptQueue := s.presence.adoptQueue ++ [share] } }

/-- QUEUED to NOT MINE (R52). -/
def unqueueShare (s : State) (share : Nat) : State :=
  judgeHeldEntries
    { s with presence := { s.presence.setShare share .notMine with adoptQueue := s.presence.adoptQueue.filter (· != share) } } share

/-- LOADING to NOT MINE: the load is abandoned (R52). -/
def abandonLoad (s : State) (share : Nat) : State :=
  let s := stopLoad s share
  judgeHeldEntries { s with presence := s.presence.setShare share .notMine } share

/-- ADOPTED to NOT MINE: a release request (R53). -/
def requestRelease (s : State) (share : Nat) : State :=
  { s with
    presence := s.presence.setShare share .notMine
    engine.releases := s.engine.releases ++ [.share share] }

/-- The comparison of one share's new effective owner with its state (R45). -/
def compareShare (s : State) (share : Nat) : State :=
  match s.shareState share, s.ownerOf share == s.slot && s.isRunning with
  | .notMine, true => queueShare s share
  | .queued, false => unqueueShare s share
  | .loading, false => abandonLoad s share
  | .adopted, false => requestRelease s share
  | _, _ => s

/-- The shares 1 to N (R37). -/
def State.allShares (s : State) : List Nat := (List.range s.settings.collectors).map (· + 1)

/-- The map computed afresh (R43). -/
def remap (s : State) : State := { s with presence.owners := s.allShares.map s.effectiveOwner }

/-- A recomputation (R45): the map, then every share in ascending number. A packet operation's reading comes before it or after it
(R80). -/
def recompute (s : State) : State := s.allShares.foldl compareShare (remap (raceReading s))

/-! ## Events of the view (R40, R41) -/

/-- A heard report (R22, R40). DEDUCED (log 57): the map is computed afresh at the report itself (R45), with the slot's contents as the last
delivered PRESENCE left them, before a PRESENCE of the same frame is delivered. -/
def heardReport (s : State) (slot : Nat) : State :=
  recompute { s with presence := s.presence.updateView slot fun v => { v with lastHeard := s.now } }

/-- Every entry is presumed, with deadline 2,000 ms from now (R41). -/
def presumeAll (s : State) : State :=
  { s with presence.view := s.presence.view.map fun v =>
      { v with presumed := some (s.now + BitVec.ofNat 32 Config.presumptionTime) } }

/-- A PRESENCE from a slot is delivered (R40, R41). -/
def deliverPresence (s : State) (slot : Nat) (p : PresencePayload) : State :=
  recompute { s with presence := s.presence.updateView slot fun v =>
    { v with contents := some ⟨p.runState, p.run, p.plan⟩, presumed := none } }

/-- A presumption deadline has been reached (R41). -/
def deadlineReached (now deadline : Time) : Bool :=
  decide (Config.presumptionTime ≤ elapsed now (deadline - BitVec.ofNat 32 Config.presumptionTime))

end Sys2Proof.Machine
end

