-- ==== Sys2Proof/Machine/Runs.lean ====
section
/-!
DEFINITION. Replies of the Dock Agent (R174), the end of a session (R181), the flush (R163), and the changes of the run state that
several commands share (chapter 8).
-/

namespace Sys2Proof.Machine

/-! ## Replies (R174) -/

/-- Status codes of a DOCKREPLY (R174). -/
inductive DockStatus where
  | accepted | done | refusedState | refusedRunning | refusedNotUploaded
deriving DecidableEq, Repr

/-- Code of a status (R174). -/
def DockStatus.code : DockStatus → Byte
  | .accepted => 0
  | .done => 1
  | .refusedState => 2
  | .refusedRunning => 3
  | .refusedNotUploaded => 4

/-- A reply joins the reply list; the oldest goes, counted, when the list holds 8 (R174). -/
def makeReply (s : State) (body : ReplyBody) : State :=
  let full := decide (Config.replyCapacity ≤ s.dock.replies.length)
  { s with
    dock.replies := (if full then s.dock.replies.drop 1 else s.dock.replies) ++ [⟨s.nextTag, body⟩]
    dock.replyDrops := if full then countUp s.dock.replyDrops else s.dock.replyDrops
    nextTag := s.nextTag + 1 }

/-- A reply of fixed content: echo, status, operands (R174). -/
def replyWith (s : State) (echo : Byte) (status : DockStatus) (operands : List Byte) : State :=
  makeReply s (.fixed ([echo, status.code] ++ operands))

/-! ## The session's end (R181) -/

/-- An upload read that is being served loses its reader (R181). -/
def Store.orphanUploadRead (st : Store) : Store :=
  match st.serving with
  | some (.uploadRead _) => { st with serving := some (.uploadRead false) }
  | _ => st

/-- The session becomes NONE: the pending UPLOAD DATA item is withdrawn, the synthesized list discarded (R181). DESIGN CHOICE (log 54):
a request for a sequence number that still waits is dropped. DESIGN CHOICE (log 59): the read position becomes absent, and the figures and the
rest of the session keep their values. -/
def Session.ended (x : Session) : Session :=
  { x with
    state := .none
    readPos := none
    synthList := []
    toSynth := []
    pauseSince := none
    data := none
    ask := none
    numberWait := false }

/-- The session ends (R181). -/
def endSession (s : State) : State :=
  { s with dock.session := s.dock.session.ended, store := s.store.orphanUploadRead }

/-! ## Run state (R137) -/

/-- A change of the run state, reported to the blocks that depend on it (R137), with the recomputation of R45. -/
def setRunState (s : State) (r : RunState) : State :=
  recompute { s with engine.runState := some r }

/-- The entry to RUNNING (R41, R139, R141, R149): peers presumed, the watchdog armed, the stale state set. -/
def enterRunning (s : State) (run : BitVec 16) : State :=
  setRunState
    { presumeAll s with
      engine.currentRun := some run
      engine.openingRun := none
      tracker.watchdog := some s.now
      tracker.stale := true } .running

/-- CLOSING ends in READY, the current run absent (R143). -/
def finishClose (s : State) : State :=
  setRunState { s with engine.closeWaits := false, engine.currentRun := none } .ready

/-! ## The flush (R163) -/

/-- Both buffers are empty. -/
def Store.buffersEmpty (st : Store) : Bool := st.pageBuf.isEmpty && st.second.isEmpty

/-- The end of a flush is reported to its requesters: the close finish (R143) and a STARTING session (R176). -/
def flushEnded (s : State) : State :=
  let s := { s with store.flushing := false }
  let s := if s.engine.closeWaits && s.engine.runState == some .closing then finishClose s else s
  if s.dock.session.state = .starting then
    { s with dock.session.ask := some (if s.dock.session.start = 0 then .tail else .search LogPos.start 0) }
  else s

/-- A flush request (R163). -/
def requestFlush (s : State) : State :=
  if s.store.buffersEmpty then flushEnded s
  else { s with store := ({ s.store with flushing := true }).programIfDue }

/-- The flush ends when both buffers are empty and the last program has verified (R163). -/
def checkFlush (s : State) : State :=
  if s.store.flushing && s.store.buffersEmpty then flushEnded s else s

/-- The close finish (R143): RUN MARK(close) handed over, then the buffers programmed. -/
def closeFinish (s : State) : State :=
  let s := appendOrDrop s (runMarkRecord s false s.runNumber)
  requestFlush { s with engine.closeWaits := true }

/-- Close work is left: the close release, or a closure marking (R143). -/
def Engine.closeWorkLeft (e : Engine) : Bool :=
  e.releases.contains .close || e.op == .closeRelease ||
    e.requests.any (fun r => match r with | .closure _ => true | _ => false) ||
    (match e.op with | .closure _ => true | _ => false)

/-- The last act of the close work that ends last (R143). -/
def closeIfDone (s : State) : State :=
  if s.engine.runState = some .closing ∧ s.engine.closeWorkLeft = false ∧ s.engine.closeWaits = false then closeFinish s else s

/-- A station request joins the list (R76). -/
def requestStation (s : State) (r : StationReq) : State :=
  { s with engine.requests := s.engine.requests ++ [r] }

/-- Start step 6 (R26, R38, R188): presence timer, a PRESENCE item pending, transmitter and delivery. -/
def startStepSix (s : State) : State :=
  { s with
    startup.step := .up
    presence.timer := some (s.now + BitVec.ofNat 32 Config.presencePeriod)
    presence.item := some s.nextTag
    nextTag := s.nextTag + 1 }

/-! ## The route tracker's part (R146 to R149) -/

/-- The tracker's start of a run at the acceptance of a RUN OPEN (R144, R148): tallies emptied and counted, every row AHEAD, current
segment 0, stale set. -/
def Tracker.startRun (t : Tracker) : Tracker :=
  { t with
    rows := t.rows.map fun r => { r with state := .ahead }
    tallies := []
    tallyDrop := countUpBy t.tallyDrop t.tallies.length
    segment := 0
    stale := true }

/-- Closure requests for segments, in the order given (R147). -/
def requestClosures (s : State) (segments : List Nat) : State :=
  { s with engine.requests := s.engine.requests ++ segments.map StationReq.closure }

end Sys2Proof.Machine
end

