-- ==== Sys2Proof/Machine/Evaluation.lean ====
section
/-!
DEFINITION. The packet operation (chapters 5 to 7): classification, evaluation against a route entry, records, suspect notices, new
relays, HELD requests, and the receipt of a HANDOVER.
-/

namespace Sys2Proof.Machine

/-! ## What a packet operation works on -/

/-- A packet of the operation, with its hearing slot when relayed in (R78). -/
structure Heard where
  packet : Packet
  hearingSlot : Option Nat
deriving DecidableEq, Repr

/-- A RELAY frame's meter ID and kind are valid (R78). -/
def relayValid (p : RelayPayload) : Bool :=
  validMeterId p.meterId && ((p.digitsKind.toNat % 16 == 1) || (p.digitsKind.toNat % 16 == 2))

/-- The packet of a RELAY frame (R78): unused flag bits 0. -/
def relayPacket (p : RelayPayload) : Packet where
  meterId := p.meterId
  counter := p.counter
  reading := p.reading
  digits := BitVec.ofNat 4 (p.digitsKind.toNat / 16)
  alarm := p.digitsKind.toNat % 16 == 2
  flags := usedFlags p.flags
  rssi := p.rssi
  channel := p.channel

/-- The (meter ID, counter) pair of a packet. -/
def Packet.pair (p : Packet) : HeldPair := ⟨p.meterId, p.counter⟩

/-- The packet operation begins on a taken item (R11, R75), its reading not yet taken (R79, R80; log 26). -/
def beginPacket (s : State) (item : Taken) : State := { s with engine.op := .packet item none }

/-! ## Suspect notices (R114, R115) -/

/-- A notice is placed (R114, R115). -/
def placeNotice (s : State) (n : Notice) : State :=
  let others := s.engine.notices.filter (·.meterId != n.meterId)
  let full := decide (Config.noticeCapacity ≤ others.length)
  { s with
    engine.notices := (if full then others.drop 1 else others) ++ [{ n with tag := s.nextTag }]
    engine.suspectDrop := if full then countUp s.engine.suspectDrop else s.engine.suspectDrop
    nextTag := s.nextTag + 1 }

/-! ## HELD requests (R131) and new relays (R122) -/

/-- A HELD request (R131). -/
def requestHeld (s : State) (p : HeldPair) : State :=
  if s.relay.heldPending.any (·.pair == p) then s
  else
    let full := decide (Config.heldPendingCapacity ≤ s.relay.heldPending.length)
    { s with
      relay.heldPending := (if full then s.relay.heldPending.drop 1 else s.relay.heldPending) ++ [⟨s.nextTag, p⟩]
      relay.heldDrop := if full then countUp s.relay.heldDrop else s.relay.heldDrop
      nextTag := s.nextTag + 1 }

/-- The oldest entry of a full relay list is evicted: self-stored and removed (R122). -/
def evictRelay (s : State) : State :=
  if s.relay.list.length < Config.relayListCapacity then s
  else
    match s.relay.list with
    | [] => s
    | e :: rest =>
      let s := selfStoreEntry s e
      { s with relay.list := rest }

/-- A new relay (R122). DESIGN CHOICE (log 60): outside RUNNING, where no entry is made, the record of its self-store takes the segment and
the stale state that the Route Tracker holds at the end of the packet operation. -/
def newRelay (s : State) (p : Packet) : State :=
  if !s.isRunning then selfStore s p s.tracker.segment s.tracker.stale none
  else if s.relay.list.any (·.packet.pair == p.pair) then { s with relay.duplicates := countUp s.relay.duplicates }
  else
    let s := evictRelay s
    { s with
      relay.list := s.relay.list ++
        [⟨s.nextTag, p, s.shareOf p.meterId, s.tracker.segment, s.tracker.stale, 0, none, none, .unsent⟩]
      nextTag := s.nextTag + 1 }

/-! ## Evaluation (5.4, 5.5, 6.2 to 6.5) -/

/-- The status after a first reading (R93). -/
def Status.afterReading : Status → Status
  | .missed => .late
  | _ => .read

/-- The packet is the entry's first reading of the run at this station (R93). -/
def isFirstReading (e : Entry) (p : Packet) : Bool :=
  packetKind e.lastHeard p.counter != .repeated && (e.status == .unread || e.status == .missed || e.status == .elsewhere)

/-- The detector records after a packet, and which were raised (R102). -/
def evaluated (st : Settings) (runDay : BitVec 16) (e : Entry) (p : Packet) : List (Detector × Bool) :=
  detectorsStep st p.alarm (packetResults st runDay e p) e.detectors

/-- The entry after the evaluation of a packet (R92, R93, R102, R111, R112), the first-read reference apart. -/
def evaluatedEntry (st : Settings) (runDay : BitVec 16) (e : Entry) (p : Packet) : Entry :=
  let ds := (evaluated st runDay e p).map (·.1)
  let score := scoreOf st ds
  { e with
    detectors := ds
    score := score
    suspect := e.suspect || decide (st.threshold ≤ score)
    lastHeard := if packetKind e.lastHeard p.counter = .repeated then e.lastHeard else some ⟨p.counter, p.reading, p.flags⟩
    status := if isFirstReading e p then e.status.afterReading else e.status }

/-- A record of an evaluated packet (R95): `e` is the entry after the packet. -/
def evaluatedRecord (s : State) (kind : RecordKind) (origin : Origin) (e : Entry) (p : Packet) (raised : Nat) : RecordBody where
  kind := kind
  origin := origin
  meterId := p.meterId
  counter := p.counter
  reading := p.reading
  digits := p.digits
  flags := p.flags
  run := s.runNumber
  segment := s.tracker.segment
  stale := s.tracker.stale
  late := e.status == .late
  alarm := p.alarm
  active := activeSet e.detectors
  raised := raised
  score := e.score
  rssi := p.rssi
  channel := p.channel

/-- The FIRST READ is handed over (R69): appended and referenced, or kept in the entry. -/
def storeFirstRead (s : State) (e : Entry) (b : RecordBody) : State :=
  match append s b with
  | (s, some n) => { s with engine := s.engine.replaceEntry e { e with firstRead := some n, kept := none } }
  | (s, none) => { s with engine := s.engine.replaceEntry e { e with firstRead := none, kept := some b } }

/-- The numbers of the detectors raised, in order (R94). -/
def raisedNumbers (rs : List (Detector × Bool)) : List Nat :=
  (List.range 7).filterMap fun j => if ((rs[j]?).map (·.2)).getD false then some (j + 1) else none

/-- A packet that hits a route entry is evaluated (R84 to R97, R102 to R112): detectors, score and mark; status; records; notice. -/
def evaluate (s : State) (old : Entry) (p : Packet) (origin : Origin) : State :=
  let st := s.settings
  let new := evaluatedEntry st s.engine.runDay old p
  let suspectNow := !old.suspect && new.suspect
  let s := changeEntry s old new
  let s := if isFirstReading old p then storeFirstRead s new (evaluatedRecord s .firstRead origin new p 0) else s
  let s := (raisedNumbers (evaluated st s.engine.runDay old p)).foldl
    (fun s j => appendOrDrop s (evaluatedRecord s .exception origin new p j)) s
  let s := if suspectNow then appendOrDrop s (evaluatedRecord s .suspect origin new p 0) else s
  if suspectNow then placeNotice s ⟨0, p.meterId, new.score, activeSet new.detectors, s.tracker.segment⟩ else s

/-! ## Route classification (5.3) -/

/-- The origin of a record of classification or evaluation (R82). -/
def recordOrigin (h : Heard) (x : ShareState) (share : Nat) : Origin :=
  match h.hearingSlot, x with
  | _, .queued | _, .loading => .adopting
  | some slot, _ => .relayedIn slot
  | none, .adopted => .adopted share
  | none, _ => .own

/-- An UNLISTED record where "store unlisted" is on, else a counted drop (R81, R82). -/
def storeUnlisted (s : State) (h : Heard) (origin : Origin) : State :=
  if s.settings.storeUnlisted then appendOrDrop s (unlistedRecord s origin h.packet)
  else { s with engine.unlistedDrop := countUp s.engine.unlistedDrop }

/-- A relayed-in packet's HELD (R83). -/
def heldForRelayed (s : State) (h : Heard) : State :=
  if h.hearingSlot.isSome then requestHeld s h.packet.pair else s

/-- The table lookup and what follows (R82, R83): an entry in any status other than HANDING is a hit. -/
def lookUpAndEvaluate (s : State) (h : Heard) (x : ShareState) (share : Nat) : State :=
  let hit : Option Entry := match s.engine.lookup h.packet.meterId with
    | some e => if e.status = Status.handing then none else some e
    | none => none
  match hit with
  | some e =>
    let again := packetKind e.lastHeard h.packet.counter == PacketKind.repeated
    let s := evaluate s e h.packet (recordOrigin h x share)
    if again then heldForRelayed s h else requestHeld s h.packet.pair
  | none => heldForRelayed (storeUnlisted s h (recordOrigin h x share)) h

/-- Classification (R79 to R82) and what follows from it: the held memory and the share state are as the operation has read them, once
each, at its start (5.3; log 26), and the operation runs to its end on that basis. -/
def classify (s : State) (h : Heard) (r : PacketReading) : State :=
  let share := s.shareOf h.packet.meterId
  let x := r.share
  if r.held then heldForRelayed { s with engine.heldDrop := countUp s.engine.heldDrop } h
  else
    match x with
    | .queued | .loading => requestHeld (appendOrDrop s (unlistedRecord s .adopting h.packet)) h.packet.pair
    | .own | .adopted => lookUpAndEvaluate s h x share
    | .notMine =>
      match h.hearingSlot with
      | none => newRelay s h.packet
      | some _ => heldForRelayed (storeUnlisted s h (recordOrigin h x share)) h

/-- A taken HANDOVER (R55). DESIGN CHOICE (log 26): R55 names no instant at which the share state and the entry are read; the share state
is read with the operation's reading, the entry as it stands at the command. -/
def receiveHandover (s : State) (p : HandoverPayload) (r : PacketReading) : State :=
  let x := r.share
  let dropped := { s with engine.handoverDrop := countUp s.engine.handoverDrop }
  if x = .queued ∨ x = .loading then dropped
  else
    match s.engine.lookup p.meterId with
    | none => dropped
    | some e =>
      if e.status = .unread ∨ e.status = .missed then
        changeEntry s e { e with status := .elsewhere, lastHeard := some ⟨p.counter, p.reading, p.flags⟩ }
      else s

/-- What a packet operation does by its end, on its reading (R78 to R97). -/
def finishPacket (s : State) (item : Taken) (r : PacketReading) : State :=
  match item with
  | .intake p => classify s ⟨p, none⟩ r
  | .relayed (.handover p) => receiveHandover s p r
  | .relayed (.moved p _ _) => classify s ⟨p, some s.slot⟩ r
  | .relayed (.relay src p) =>
    if relayValid p then classify s ⟨relayPacket p, some src⟩ r
    else { s with engine.relayReject := countUp s.engine.relayReject }

end Sys2Proof.Machine
end

