-- ==== Sys2Proof/Machine/Dock.lean ====
section
/-!
DEFINITION. The Dock Agent (chapter 10): the judgement by run state, the upload session, synthesis, the plan load, settings and
saves, and the clear of conditions (chapter 11).
-/

namespace Sys2Proof.Machine

/-! ## Judgement by the run state (R175) -/

/-- The columns of the table of R175. -/
inductive DockColumn where
  | general | planData | planEnd | settings
deriving DecidableEq, Repr

/-- What the judgement by run state gives (R175). -/
inductive Judgement where
  | pass
  | ignore
  | refuse (status : DockStatus)
deriving DecidableEq, Repr

/-- The judgement by run state (R175). -/
def judgeDock (s : State) (c : DockColumn) : Judgement :=
  match s.engine.runState, c with
  | some .blank, .general | some .blank, .settings => .pass
  | some .blank, _ => .refuse .refusedState
  | some .ready, c =>
    if s.engine.openingRun.isSome then .refuse .refusedRunning
    else match c with
      | .general | .settings => .pass
      | _ => .refuse .refusedState
  | some .loadingErase, .settings => .pass
  | some .loadingErase, .planData => .ignore
  | some .loadingErase, _ => .refuse .refusedState
  | some .loadingData, .general => .refuse .refusedState
  | some .loadingData, _ => .pass
  | some .rebuilding, _ => .refuse .refusedState
  | some .running, _ | some .closing, _ => .refuse .refusedRunning
  | none, _ => .refuse .refusedState

/-- A DOCK operation judged, refused with one reply, ignored, or handed to its own rule (R175). -/
def dockOperation (c : DockColumn) (echo : Byte) (rule : State → State) (s : State) : State :=
  match judgeDock s c with
  | .pass => rule s
  | .ignore => s
  | .refuse status => replyWith s echo status []

/-! ## Synthesis and the session's end of log (R169, R179, R180) -/

/-- UPLOAD END: three replies together, and the session is DONE (R179, R180). -/
def uploadEnd (s : State) : State :=
  let s := makeReply (makeReply (makeReply s (.uploadEnd 1)) (.uploadEnd 2)) (.uploadEnd 3)
  { s with dock.session.state := .done }

/-- The answer 'no number': the entries left are not synthesized, and synthesis ends (R179). -/
def endSynthesis (s : State) : State :=
  uploadEnd { s with dock.session := { s.dock.session with
    unsynthesized := s.dock.session.toSynth.length
    toSynth := []
    numberWait := false } }

/-- A number is given: the UNSTORED record is formed and becomes the pending UPLOAD DATA (R179). -/
def synthesize (s : State) (kept : RecordBody) (rest : List RecordBody) : State :=
  let n := s.store.seqCounter
  { s with
    store := s.store.givenNumber
    nextTag := s.nextTag + 1
    dock.session := { s.dock.session with
      toSynth := rest
      numberWait := false
      synthList := s.dock.session.synthList ++ [(kept.meterId, n)]
      data := some ⟨s.nextTag, n, recordBytes n { kept with kind := .unstored }⟩ } }

/-- The next entry to synthesize: a number is asked for (R169, R179); with none left the session ends. -/
def synthesizeNext (s : State) : State :=
  match s.dock.session.toSynth with
  | [] => uploadEnd s
  | kept :: rest =>
    match s.store.numberAnswer with
    | .given => synthesize s kept rest
    | .reserve sector entry bound =>
      { s with
        store := s.store.requestMark (.reserve sector entry bound)
        dock.session.numberWait := true }
    | .openFirst =>
      { s with
        store := s.store.openCandidate
        dock.session.numberWait := true }
    | .wait => { s with dock.session.numberWait := true }
    | .noNumber => endSynthesis s

/-- A reserve entry waits to be programmed or is being programmed (R169). -/
def Store.reservePending (st : Store) : Bool :=
  st.marks.any (fun m => match m with
    | .reserve _ _ _ => true
    | _ => false) ||
  (match st.serving with
    | some (.mark (.reserve _ _ _)) => true
    | _ => false)

/-- An opening has ended while a number waits for it: the number is asked for again (R169). -/
def numberAfterOpening (s : State) : State :=
  if s.dock.session.numberWait && !s.store.reservePending then synthesizeNext s else s

/-- The number that a reserve entry's program was for is given, or the answer is 'no number' (R169, R179). -/
def reserveAnswers (s : State) (ok : Bool) : State :=
  match s.dock.session.toSynth, ok with
  | kept :: rest, true => synthesize s kept rest
  | _, _ => endSynthesis s

/-- A reserve entry's program has ended: the bound rises and the number is given, or the answer is 'no number' (R169). DESIGN CHOICE
(log 54): where the session that asked has ended, the bound rises and no number is given. -/
def reserveEnded (s : State) (bound : Nat) (ok : Bool) : State :=
  let s := if ok then { s with store.durableBound := bound } else s
  if s.dock.session.numberWait then reserveAnswers s ok else s

/-- The kept records in route table order, copied at the head of the log (R179). -/
def State.keptRecords (s : State) : List RecordBody := s.engine.table.filterMap (·.kept)

/-- 'Head reached': phase SYNTHESIZED (R179). -/
def headReached (s : State) : State :=
  synthesizeNext { s with dock.session := { s.dock.session with
    state := .streaming
    phase := .synthesized
    ask := none
    toSynth := s.keptRecords } }

/-- A record read becomes the pending UPLOAD DATA (R176, R177). -/
def holdRecord (s : State) (r : LogRecord) : State :=
  { s with
    nextTag := s.nextTag + 1
    dock.session := { s.dock.session with
      state := .streaming
      phase := .log
      ask := none
      readPos := some (r.pos, r.number)
      data := some ⟨s.nextTag, r.number, r.bytes⟩ } }

/-- The next record is asked for after the slot at `pos`; with no slot left the answer is 'head reached' (R158, R177). -/
def readOn (s : State) (pos : LogPos) (last : Nat) : State :=
  match s.store.nextSlot pos with
  | some _ => { s with dock.session.ask := some (.next pos last) }
  | none => headReached s

/-- The search for the start number goes on after the slot at `pos`; with no slot left the tail is asked for (R176). -/
def searchOn (s : State) (pos : LogPos) (last : Nat) : State :=
  match s.store.nextSlot pos with
  | some _ => { s with dock.session.ask := some (.search pos last) }
  | none => { s with dock.session.ask := some .tail }

/-- An upload read has read the next slot (R158, R166, R177): its record is held, or the slot is passed over. -/
def nextReadEnds (s : State) (pos : LogPos) (last : Nat) : State :=
  match s.store.nextSlot pos with
  | some (p, sector) =>
    match s.store.acceptedAt p sector last with
    | some r => holdRecord s r
    | none => readOn s p last
  | none => headReached s

/-- The search for the start number has read one slot (R166, R176; log 22). -/
def searchReadEnds (s : State) (pos : LogPos) (last : Nat) : State :=
  match s.store.nextSlot pos with
  | some (p, sector) =>
    match s.store.acceptedAt p sector last with
    | some r => if r.number = s.dock.session.start then holdRecord s r else searchOn s p r.number
    | none => searchOn s p last
  | none => { s with dock.session.ask := some .tail }

/-- The read of the tail ends (R176): streaming begins at it, or the log holds no record. DESIGN CHOICE (log 65): where RETIRED sectors alone
hold records the log has no tail (R158), and the answer is 'head reached' too. -/
def tailReadEnds (s : State) : State :=
  match s.store.tail with
  | some r => holdRecord s r
  | none => headReached s

/-- An upload read ends (R176, R177, R179). -/
def uploadReadEnds (s : State) : State :=
  match s.dock.session.ask with
  | none => s
  | some (.search pos last) => searchReadEnds s pos last
  | some .tail => tailReadEnds s
  | some (.next pos last) => nextReadEnds s pos last

/-- Streaming goes on: the next record is asked for, or the next synthesized record is formed (R177). -/
def streamOn (s : State) : State :=
  match s.dock.session.phase with
  | .log =>
    { s with dock.session.ask := match s.dock.session.readPos with
      | some (pos, last) => some (.next pos last)
      | none => some .tail }
  | .synthesized => synthesizeNext s

/-- The counts after a record is finished (R177): of an UNSTORED record, which the session streams in phase SYNTHESIZED alone, the count
of those streamed too (R180). -/
def Session.finished (x : Session) (mark : Nat) (n : Nat) : Session :=
  { x with
    data := none
    streamed := min (x.streamed + 1) Config.counterMax
    synthCount := if x.phase = .synthesized then x.synthCount + 1 else x.synthCount
    highest := max x.highest n
    outstanding := if mark < n then x.outstanding ++ [n] else x.outstanding }

/-- An UPLOAD DATA record is finished, sent or dropped (R177). DEDUCED (log 48): at 32 outstanding the session is PAUSED after the last
synthesized record too, and UPLOAD END follows the MARK that ends the pause. -/
def finishUpload (s : State) (n : Nat) : State :=
  let s := { s with dock.session := s.dock.session.finished s.store.uploadMark n }
  if Config.outstandingLimit ≤ s.dock.session.outstanding.length then
    { s with dock.session := { s.dock.session with
      state := .paused
      pauseSince := some s.now } }
  else streamOn s

/-! ## Upload operations (R176 to R183) -/

/-- UPLOAD OPEN by its own rule (R176). -/
def uploadOpen (start : Nat) (s : State) : State :=
  if s.dock.session.state = .none ∨ s.dock.session.state = .stalled ∨ s.dock.session.state = .done then
    requestFlush (replyWith { s with dock.session := { Session.afterStart with
      state := .starting
      start := start } } 1 .accepted [])
  else replyWith s 1 .refusedState []

/-- FULL sectors that the mark covers have their UPLOADED mark requested (R178). DESIGN CHOICE (log 53): in the order of the rows of the
sector table. -/
def Store.requestUploaded (st : Store) (mark : Nat) : Store :=
  (st.rows.filter fun r => r.state == .full && (match r.last with
    | some n => decide (n ≤ mark)
    | none => true)).foldl (fun st r => st.requestMark (.uploaded r.sector)) st

/-- A raise of the upload mark (R178 steps 1 to 3). -/
def raiseMark (s : State) (m : Nat) : State :=
  { s with
    store := { s.store with uploadMark := m }.requestUploaded m
    dock.session.outstanding := s.dock.session.outstanding.filter fun n => decide (m < n)
    dock.session.synthList := s.dock.session.synthList.filter fun x => decide (m < x.2)
    engine.requests := s.engine.requests ++
      (s.dock.session.synthList.filter fun x => decide (x.2 ≤ m)).map fun x => StationReq.keptRelease x.1 x.2 }

/-- The pause after an accepted MARK (R178): the timer starts again, or streaming goes on. -/
def pauseAfterMark (s : State) : State :=
  if s.dock.session.state = .paused then
    if s.dock.session.outstanding.length < Config.outstandingLimit then
      streamOn { s with dock.session := { s.dock.session with
        state := .streaming
        pauseSince := none } }
    else { s with dock.session.pauseSince := some s.now }
  else s

/-- UPLOAD MARK by its own rule (R178). -/
def uploadMark (m : Nat) (s : State) : State :=
  if s.dock.session.state = .none ∨ s.dock.session.state = .starting then replyWith s 2 .refusedState []
  else pauseAfterMark (if s.store.uploadMark < m ∧ m ≤ s.dock.session.highest then raiseMark s m else s)

/-- UPLOAD CLOSE by its own rule (R181): the UPLOAD DATA item is withdrawn, and its frame on the bus completes as R31 says. -/
def uploadClose (s : State) : State := replyWith (endSession s) 3 .done []

/-- The UPLOADED sectors, oldest first (R182). -/
def Store.uploadedSectors (st : Store) : List Nat :=
  (sortRows (st.rows.filter (·.state == .uploaded))).map (·.2.sector)

/-- ERASE UPLOADED by its own rule (R182): the list stays ordered by sector sequence (R168; log 20). -/
def eraseUploaded (s : State) : State :=
  let listed := s.store.uploadedSectors
  replyWith
    { s with store := { s.store with
      eraseList := listed.foldl s.store.listErase s.store.eraseList
      rows := s.store.rows.map fun r => if r.state = .uploaded then { r with state := .eraseListed } else r } }
    4 .done (bytesOf 2 listed.length)

/-- CLEAR FINDINGS by its own rule (R183). -/
def clearFindings (s : State) : State :=
  if s.store.lastGiven ≤ s.store.uploadMark then requestStation s .findingsClear
  else replyWith s 5 .refusedNotUploaded []

/-! ## The plan load (R184 to R186) -/

/-- A count brought into 1 to `hi` (R184). -/
def clampCount (hi v : Nat) : Nat := max 1 (min v hi)

/-- PLAN BEGIN by its own rule (R184). -/
def planBegin (ident : BitVec 32) (count segments : Nat) (s : State) : State :=
  if s.dock.session.state = .starting ∨ s.dock.session.state = .streaming ∨ s.dock.session.state = .paused then
    replyWith s 6 .refusedState []
  else
    let s := { s with
      dock.load := { PlanLoad.afterStart with
        phase := .erasing
        ident := ident
        count := clampCount 16384 count
        segments := clampCount 512 segments }
      engine.plan := none
      engine.interrupted := none }
    let s := replyWith (setRunState s .loadingErase) 6 .accepted []
    requestStation
      { s with
        tracker.rows := []
        tracker.tallies := [] } .emptying

/-- A PLAN DATA is taken (R185). -/
def PlanLoad.takes (l : PlanLoad) (index : Nat) : Bool :=
  l.phase == .receiving && decide (index < l.count) && !l.received.contains index &&
    decide (l.queue.length < Config.planQueueCapacity)

/-- PLAN DATA by its own rule (R185): bytes 0 to 18 join the queue, or the frame is ignored and counted. -/
def planData (index : Nat) (record : List Byte) (s : State) : State :=
  if s.dock.load.takes index then
    { s with dock.load := { s.dock.load with
      received := s.dock.load.received ++ [index]
      queue := s.dock.load.queue ++ [(index, record.take 19)] } }
  else { s with dock.load.ignored := s.dock.load.ignored + 1 }

/-- PLAN STATUS and the end of the load (R186). The figures of the build are 0 where there was none. -/
def planStatus (s : State) (result : Byte) : State :=
  let l := s.dock.load
  let built := result == 0
  let s := { s with dock.load.phase := .none }
  replyWith s 8 .done
    ([result] ++ bytesOf 2 l.received.length ++ bytesOf 2 (l.count - l.received.length) ++ bytesOf 2 l.bad.length
      ++ figure16 l.ignored ++ bytesOf 2 (if built then s.engine.duplicates else 0)
      ++ bytesOf 2 (if built then s.engine.table.length else 0) ++ bytesOf 2 (if built then s.engine.ownUntracked else 0))

/-- A load with faults ends in BLANK (R186 step 4). -/
def planFails (s : State) (result : Byte) : State := planStatus (setRunState s .blank) result

/-- The check read has ended (R186 steps 3 and 4). -/
def planEndJudged (s : State) : State :=
  let s := { s with dock.load.check := none }
  if s.dock.load.received.length = s.dock.load.count ∧ s.dock.load.bad = [] then
    { s with store.progs := s.store.progs ++ [.planHeader] }
  else planFails s 1

/-- A plan record waits for its program or is being programmed (R185). -/
def State.planWriting (s : State) : Bool :=
  !s.dock.load.queue.isEmpty || s.store.progs.contains .planRecord ||
    (match s.store.serving with
      | some (.planRecord _ _) => true
      | _ => false)

/-- ENDING with the write queue drained: the check read begins over the marked indexes, ascending (R186 steps 1 and 2). -/
def planEndIfDrained (s : State) : State :=
  if s.dock.load.phase = .ending ∧ s.planWriting = false then
    match (List.range s.dock.load.count).filter s.dock.load.received.contains with
    | [] => planEndJudged s
    | is => { s with dock.load.check := some is }
  else s

/-- PLAN END by its own rule (R186). -/
def planEnd (s : State) : State :=
  if s.dock.load.phase = .receiving then
    planEndIfDrained (replyWith { s with dock.load.phase := .ending } 8 .accepted [])
  else replyWith s 8 .refusedState []

/-! ## Settings (R190, R191) -/

/-- Bytes placed into the image from an offset on; what falls at offset 96 or more is discarded (R190). -/
def placeBytes : List Byte → Nat → List Byte → List Byte
  | image, _, [] => image
  | image, off, b :: bs => placeBytes (image.set off b) (off + 1) bs

/-- SETTING WRITE by its own rule (R190). -/
def settingWrite (offset : Nat) (data : List Byte) (s : State) : State :=
  replyWith { s with startup.image := placeBytes s.startup.image offset data } 9 .done
    [BitVec.ofNat 8 (min data.length (imageBytes - offset))]

/-- SETTING SAVE by its own rule (R191): a save begins, or the SAVE is served by the waiting save. -/
def settingSave (s : State) : State :=
  match s.startup.save with
  | none => { s with startup.save := some ⟨savedImage s.startup.image, 1⟩ }
  | some _ => { s with startup.waitingSaves := s.startup.waitingSaves + 1 }

/-- One DONE reply for each SAVE served (R191). -/
def saveReplies (result : Byte) : Nat → State → State
  | 0, s => s
  | n + 1, s => saveReplies result n (replyWith s 10 .done [result])

/-- The waiting save begins, copying the image at this instant (R191). -/
def nextSave (s : State) : State :=
  if s.startup.waitingSaves = 0 then { s with startup.save := none }
  else
    { s with
      startup.save := some ⟨savedImage s.startup.image, s.startup.waitingSaves⟩
      startup.waitingSaves := 0 }

/-- A save ends (R191). A failed one leaves the memory with free bytes (log 8). -/
def saveEnds (job : SaveJob) (ok : Bool) (s : State) : State :=
  let s :=
    if ok then
      { s with
        startup.cfg := s.startup.cfg.writeBytes 0 job.bytes
        startup.conds.configDefaulted := false }
    else
      { s with
        startup.cfg := s.startup.cfg.tornWrite s.freeIndex 0 savedImageBytes
        freeIndex := s.freeIndex + 1 }
  nextSave (saveReplies (if ok then 0 else 1) job.serves s)

/-! ## Clear of conditions (R193) -/

/-- The Rack Port's answer: a duplicate has been seen recently (R35). -/
def State.duplicateRecent (s : State) : Bool :=
  match s.rack.lastDuplicate with
  | some t => decide (elapsed s.now t < Config.duplicateTime)
  | none => false

/-- Both packet queues are not full (R13, R130). -/
def State.queuesNotFull (s : State) : Bool :=
  decide (s.radio.queue.length < Config.intakeCapacity) && decide (s.engine.relayQueue.length < Config.relayIntakeCapacity)

/-- The Route Tracker's answer 'stale' (R150). -/
def State.answersStale (s : State) : Bool := s.isRunning && s.tracker.stale

/-- A clear (R193). -/
def clearConditions (s : State) : State :=
  { s with startup.conds := { s.startup.conds with
    intakeOverrun := s.startup.conds.intakeOverrun && !s.queuesNotFull
    positionStale := s.startup.conds.positionStale && s.answersStale
    storeFull := s.startup.conds.storeFull && !s.store.hasRoom
    storeFault := false
    txFault := false
    duplicateSlot := s.startup.conds.duplicateSlot && s.duplicateRecent } }

/-- DOCK CLEAR CONDITIONS by its own rule (R193). -/
def dockClear (s : State) : State :=
  let s := clearConditions s
  replyWith s 11 .done (bytesOf 2 s.conditionsField.toNat)

end Sys2Proof.Machine
end

