-- ==== Sys2Proof/Machine/Engine.lean ====
section
/-!
DEFINITION. The Evaluation Engine's choice (R76, R77) and what each of its operations has done by its end (chapters 3, 4, 6, 8),
packet operations apart.
-/

namespace Sys2Proof.Machine

/-- The operation ends; the next choice follows at the end of the command (R75; log 12). -/
def endOperation (s : State) : State := { s with engine.op := .idle }

/-! ## Start and the build (R61, R66, R188) -/

/-- The own share of this station exists: its slot is N or less (R37). -/
def State.isOwner (s : State) : Bool := decide (s.slot ≤ s.settings.collectors)

/-- The end of the own-share build of a VALID plan (R66, R144): the segment table, READY, and step 6 at start or PLAN STATUS after
PLAN END. -/
def buildEnds (s : State) (p : Plan) : State :=
  let s := endOperation s
  let s := setRunState { s with tracker.rows := freshRows p.segments s.engine.table } .ready
  if s.startup.step = .build then startStepSix s
  else if s.dock.load.phase = .ending then planStatus s 0
  else s

/-- The build begins: its counts are 0, and there is no segment table until it ends (R144); a spare reads nothing, so its build ends at
once (R66). -/
def beginBuild (s : State) : State :=
  match s.engine.plan with
  | some p =>
    let s := { s with
      engine.op := .ownBuild 0
      engine.ownUntracked := 0
      engine.duplicates := 0
      tracker.rows := [] }
    if s.isOwner then s else buildEnds s p
  | none => s

/-- One plan record of the build (R66). -/
def buildRecord (s : State) (p : Plan) (index : Nat) (bs : List Byte) : State :=
  let m := planMeterId bs
  if s.shareOf m ≠ s.slot then s
  else if (s.engine.lookup m).isSome then { s with engine.duplicates := s.engine.duplicates + 1 }
  else if Config.tableCapacity ≤ s.engine.table.length then { s with engine.ownUntracked := s.engine.ownUntracked + 1 }
  else { s with engine.table := insertEntry (entryOf p.segments index .own bs) s.engine.table }

/-- The plan check ends NOT VALID: BLANK, and step 6 (R61, R188). -/
def checkFails (s : State) : State :=
  let s := endOperation s
  startStepSix (setRunState { s with engine.plan := none } .blank)

/-- The plan check ends VALID: step 5 and its build (R61, R66). -/
def checkPasses (s : State) (p : Plan) : State :=
  let s := endOperation s
  requestStation
    { s with
      engine.plan := some p
      startup.step := .build } .ownBuild

/-! ## Adoption loads (R47 to R50) -/

/-- A share's untracked count grows by one (R67). -/
def countUntracked (share : Nat) (l : List (Nat × Nat)) : List (Nat × Nat) :=
  l.map fun x => if x.1 = share then (x.1, x.2 + 1) else x

/-- The route entries of an adopted share (R63). -/
def Engine.entriesOf (g : Engine) (share : Nat) : List Entry := g.table.filter (·.origin == .adopted share)

/-- A load begins (R47). The entries that the table still holds of the share are its HANDING ones, since a share that was not ADOPTED has
no other (R53), and they are removed. -/
def beginLoad (s : State) (share : Nat) : State :=
  let s := (s.engine.entriesOf share).foldl removeEntry s
  { s with
    presence := { s.presence.setShare share .loading with adoptQueue := s.presence.adoptQueue.drop 1 }
    engine.untracked := s.engine.untracked ++ [(share, 0)]
    engine.op := .load share 0 }

/-- One plan record of a load (R48). -/
def loadRecord (s : State) (p : Plan) (share index : Nat) (bs : List Byte) : State :=
  let m := planMeterId bs
  if s.shareOf m ≠ share then s
  else if (s.engine.lookup m).isSome then s
  else if Config.tableCapacity ≤ s.engine.table.length then
    { s with engine.untracked := countUntracked share s.engine.untracked }
  else { s with engine.table := insertEntry (entryOf p.segments index (.adopted share) bs) s.engine.table }

/-- A loaded entry is counted, MISSED where its segment is CLOSED (R49). -/
def admitEntry (s : State) (e : Entry) : State :=
  if s.tracker.segmentState e.segment = .closed then
    { s with
      engine := s.engine.replaceEntry e { e with status := .missed }
      tracker := s.tracker.learn { e with status := .missed } }
  else { s with tracker := s.tracker.learn e }

/-- A relay entry moves into the relay intake queue, or is self-stored where that is full (R50). -/
def moveRelayEntry (s : State) (e : RelayEntry) : State :=
  let s := if s.engine.relayQueue.length < Config.relayIntakeCapacity then
      { s with engine.relayQueue := s.engine.relayQueue ++ [.moved e.packet e.segment e.stale] }
    else selfStoreEntry s e
  { s with relay := s.relay.removeEntry e.tag }

/-- The load of a LOADING share completes (R49, R50). -/
def completeLoad (s : State) (share : Nat) : State :=
  let s := (s.engine.entriesOf share).foldl admitEntry s
  let s := { s with presence := s.presence.setShare share .adopted }
  endOperation ((s.relay.list.filter (·.share == share)).foldl moveRelayEntry s)

/-- A load reads its last record (R49). In a state that no run reaches, its share is not LOADING, and the load stops (log 38). -/
def loadEnds (s : State) (share : Nat) : State :=
  if s.shareState share = .loading then completeLoad s share else stopLoad s share

/-- A load whose plan is not VALID, in a state that no run reaches, is abandoned (R52; log 38). -/
def loadFails (s : State) (share : Nat) : State :=
  if s.shareState share = .loading then abandonLoad s share else stopLoad s share

/-! ## Plan reads (R62) -/

/-- The slot a plan read in progress reads: of the engine's operation, or of the check read at PLAN END (R62, R186). -/
def State.planReadIndex (s : State) : Nat :=
  match s.engine.op with
  | .planCheckRecord i _ => i
  | .ownBuild i => i
  | .load _ i => i
  | .planCheckHeader => 0
  | _ => match s.dock.load.check with
    | some (i :: _) => i
    | _ => 0

/-- One record of the check read at PLAN END: a bad one is counted once (R186). -/
def checkRead (s : State) (bs : List Byte) : State :=
  match s.dock.load.check with
  | some (i :: rest) =>
    let s := if planRecordGood bs || s.dock.load.bad.contains i then s
      else { s with dock.load.bad := s.dock.load.bad ++ [i] }
    if rest.isEmpty then planEndJudged s else { s with dock.load.check := some rest }
  | _ => s

/-- A plan read ends with the 32 bytes of its slot (R61, R66, R48, R186). -/
def planReadEnds (s : State) (bs : List Byte) : State :=
  match s.engine.op, s.engine.plan with
  | .planCheckHeader, _ =>
    match planHeaderOf bs with
    | some p => { s with engine.op := .planCheckRecord 0 p }
    | none => checkFails s
  | .planCheckRecord i p, _ =>
    if !planRecordGood bs then checkFails s
    else if i + 1 < p.count then { s with engine.op := .planCheckRecord (i + 1) p }
    else checkPasses s p
  | .ownBuild i, some p =>
    let s := buildRecord s p i bs
    if i + 1 < p.count then { s with engine.op := .ownBuild (i + 1) } else buildEnds s p
  | .load share i, some p =>
    let s := loadRecord s p share i bs
    if i + 1 < p.count then { s with engine.op := .load share (i + 1) } else loadEnds s share
  | .ownBuild _, none => endOperation s
  | .load share _, none => loadFails s share
  | _, _ => checkRead s bs

/-! ## Releases and the close (R53, R54, R143) -/

/-- A READ or LATE entry becomes HANDING, its kept record stored first, its HANDOVER queued (R53, R70). -/
def handEntry (s : State) (share : Nat) (e : Entry) : State :=
  let s := changeEntry (giveKept s e) e { e with status := .handing, kept := none }
  { s with
    engine.handing := s.engine.handing ++ [⟨s.nextTag, e.meterId, share⟩]
    nextTag := s.nextTag + 1 }

/-- One entry of a released share (R53). -/
def releaseEntry (share : Nat) (s : State) (e : Entry) : State :=
  match e.status with
  | .read | .late => handEntry s share e
  | .unread | .elsewhere | .missed => removeEntry s e
  | .handing => s

/-- A release has been carried out (R53). DESIGN CHOICE (log 43): the entries are taken in plan index order. -/
def releaseEnds (s : State) (share : Nat) : State :=
  let s := (s.engine.entriesOf share).foldl (releaseEntry share) s
  endOperation { s with engine.untracked := s.engine.untracked.filter (·.1 != share) }

/-- The close release has been carried out (R143 step 1), and the close finish where it ends last. DESIGN CHOICE (log 43): the entries
are taken in plan index order. -/
def closeReleaseEnds (s : State) : State :=
  let s := (s.engine.table.filter fun e => e.origin != .own || e.status == .handing).foldl removeEntry s
  closeIfDone (endOperation s)

/-- An UNREAD entry becomes MISSED (R147). -/
def missEntry (s : State) (e : Entry) : State := changeEntry s e { e with status := .missed }

/-- A closure marking has been carried out (R147, R148), and the close finish where it ends last. -/
def closureEnds (s : State) (segment : Nat) : State :=
  let s := (s.engine.table.filter fun e => e.segment == segment && e.status == .unread).foldl missEntry s
  closeIfDone (endOperation
    { s with
      tracker.tallies := s.tracker.tallies ++ [⟨s.nextTag, segment⟩]
      nextTag := s.nextTag + 1 })

/-! ## Run reset and rebuild (R71, R139 to R141) -/

/-- One entry in the run reset (R71). -/
def resetEntry (s : State) (e : Entry) : State :=
  changeEntry (giveKept s e) e { e with status := .unread, lastHeard := none, firstRead := none, kept := none }

/-- The reset of every entry (R71). DESIGN CHOICE (log 43): the entries are taken in plan index order. -/
def resetTable (s : State) : State := s.engine.table.foldl resetEntry s

/-- The rebuild scan ends, and the station enters RUNNING (R141). -/
def rebuildEnds (s : State) : State :=
  if s.engine.runState = some .rebuilding then enterRunning (endOperation s) s.runNumber else endOperation s

/-- The rebuild scan goes on after the slot at `pos`, the last accepted number being `last`, or ends at the head (R140, R141). -/
def rebuildFrom (s : State) (pos : LogPos) (last : Nat) : State :=
  match s.store.nextSlot pos with
  | some _ => { s with engine.op := .rebuild pos last }
  | none => rebuildEnds s

/-- The rebuild scan begins after the kept RUN MARK(open), or with the tail where that has been erased (R140). DESIGN CHOICE (log 65): where
RETIRED sectors alone hold records there is no tail, and the scan ends at once. -/
def rebuildBegins (s : State) (mark : Interrupted) : State :=
  if s.store.holdsAt mark.pos mark.number then rebuildFrom s mark.pos mark.number
  else
    match s.store.tail with
    | some r => rebuildFrom s ⟨r.pos.sector, r.pos.slot - 1⟩ 0
    | none => rebuildEnds s

/-- The reset of a new run has ended (R139): RUN MARK(open), the mark cleared, RUNNING. -/
def newRunBegins (s : State) : State :=
  match s.engine.runState, s.engine.openingRun with
  | some .ready, some run => enterRunning (appendOrDrop (endOperation s) (runMarkRecord s true run)) run
  | _, _ => endOperation s

/-- The effect of one log record in the rebuild scan (R141). An entry with a first-read reference has no kept record (R69; log 39). -/
def applyRecord (s : State) (r : LogRecord) : State :=
  if r.run ≠ s.runNumber then s
  else
    match s.engine.lookup r.meterId, r.kind with
    | some e, 2 =>
      changeEntry s e { e with
        status := if r.late then .late else .read
        lastHeard := some ⟨r.counter, r.reading, r.flags⟩
        firstRead := some r.number
        kept := none }
    | some e, 4 => changeEntry s e { e with suspect := true }
    | _, _ => s

/-- The rebuild scan has read one slot (R166): a record that the walk accepts is applied, any other slot is passed over (R141, R158). -/
def rebuildReadEnds (s : State) (pos : LogPos) (last : Nat) : State :=
  match s.store.nextSlot pos with
  | some (p, sector) =>
    match s.store.acceptedAt p sector last with
    | some r => rebuildFrom (applyRecord s r) p r.number
    | none => rebuildFrom s p last
  | none => rebuildEnds s

/-! ## The depot's requests (R72, R117, R178) -/

/-- The three figures of a findings clear (R118). -/
def clearFigures (st : Settings) (table : List Entry) : List Byte :=
  let returned := (table.map fun e => clearedCount e.detectors).sum
  let cleared := table.countP fun e => e.suspect && !(clearEntry st e).suspect
  let still := table.countP fun e => (clearEntry st e).suspect
  bytesOf 2 returned ++ bytesOf 2 cleared ++ bytesOf 2 still

/-- A findings clear has been carried out (R117, R118, R183). -/
def findingsClearEnds (s : State) : State :=
  let figures := clearFigures s.settings s.engine.table
  let s := s.engine.table.foldl (fun s e => changeEntry s e (clearEntry s.settings e)) s
  replyWith (endOperation s) 5 .done figures

/-- The route table has been emptied (R72), and the plan-region erases are requested (R184). DESIGN CHOICE (log 43): the entries are
taken in plan index order. -/
def emptyingEnds (s : State) : State :=
  let s := endOperation (s.engine.table.foldl removeEntry s)
  { s with
    engine.ownUntracked := 0
    engine.duplicates := 0
    store.planErase := some 0 }

/-- A kept-record release has been carried out (R178, R69). -/
def keptReleaseEnds (s : State) (m : MeterId) (n : Nat) : State :=
  let s := endOperation s
  match s.engine.lookup m with
  | some e =>
    if e.kept.isSome then { s with engine := s.engine.replaceEntry e { e with kept := none, firstRead := some n } } else s
  | none => s

/-! ## The choice (R76, R77) -/

/-- The operation of a station request (R75). -/
def beginRequest (s : State) (r : StationReq) : State :=
  match r with
  | .closure n => { s with engine.op := .closure n }
  | .runReset => { s with engine.op := .runReset }
  | .resetRebuild m => { s with engine.op := .resumeReset m }
  | .planCheck => { s with engine.op := .planCheckHeader }
  | .ownBuild => beginBuild s
  | .findingsClear => { s with engine.op := .findingsClear }
  | .emptying => { s with engine.op := .emptying }
  | .keptRelease m n => { s with engine.op := .keptRelease m n }

/-- The take from the intake queue (R11, R77). -/
def takeIntake (s : State) (p : Packet) (rest : List Packet) : State :=
  beginPacket
    { s with
      radio.queue := rest
      engine.lastSide := .intake } (.intake p)

/-- The take from the relay intake queue (R129, R77). -/
def takeRelay (s : State) (i : RelayItem) (rest : List RelayItem) : State :=
  beginPacket
    { s with
      engine.relayQueue := rest
      engine.lastSide := .relay } (.relayed i)

/-- A packet operation on the queue whose turn it is (R77). -/
def choosePacket (s : State) : State :=
  match s.radio.queue, s.engine.relayQueue, s.engine.lastSide with
  | [], [], _ => s
  | p :: ps, [], _ => takeIntake s p ps
  | p :: ps, _ :: _, .relay => takeIntake s p ps
  | [], i :: is, _ => takeRelay s i is
  | _ :: _, i :: is, .intake => takeRelay s i is

/-- The engine's choice when it is IDLE (R76). -/
def engineChoose (s : State) : State :=
  if s.engine.op ≠ .idle then s
  else
    match s.engine.releases, s.engine.requests, s.presence.adoptQueue with
    | .share n :: rest, _, _ =>
      { s with
        engine.releases := rest
        engine.op := .release n }
    | .close :: rest, _, _ =>
      { s with
        engine.releases := rest
        engine.op := .closeRelease }
    | [], r :: rest, _ => beginRequest { s with engine.requests := rest } r
    | [], [], n :: _ => if s.isRunning then beginLoad s n else s
    | [], [], [] => if s.isRunning then choosePacket s else s

end Sys2Proof.Machine
end

