-- ==== Sys2Proof/Machine/Operands.lean ====
section
/-!
DEFINITION. Operand forms: the payload layout of every frame class received or sent (R24, R138, R174), and the receive filter's
reading of a frame (R25).
-/

namespace Sys2Proof.Machine

/-- PRESENCE payload bytes (R24, R39). -/
def presenceBytes (p : PresencePayload) : List Byte :=
  [p.runState] ++ bytesOf 2 p.run.toNat ++ bytesOf 4 p.plan.toNat ++ bytesOf 2 p.conditions.toNat
    ++ [p.adopted, p.participation] ++ bytesOf 2 p.freeSectors.toNat ++ [p.revision]

/-- A PRESENCE payload read from its 14 bytes (R24). -/
def presenceOf (bs : List Byte) : PresencePayload :=
  { runState := byteAt bs 0, run := BitVec.ofNat 16 (fieldOf bs 1 2), plan := BitVec.ofNat 32 (fieldOf bs 3 4),
    conditions := BitVec.ofNat 16 (fieldOf bs 7 2), adopted := byteAt bs 9, participation := byteAt bs 10,
    freeSectors := BitVec.ofNat 16 (fieldOf bs 11 2), revision := byteAt bs 13 }

/-- HELD payload bytes (R24). -/
def heldBytes (m : MeterId) (c : BitVec 16) : List Byte :=
  bytesOf 4 m.toNat ++ bytesOf 2 c.toNat

/-- RELAY payload bytes (R24). -/
def relayBytes (p : RelayPayload) : List Byte :=
  bytesOf 4 p.meterId.toNat ++ bytesOf 2 p.counter.toNat ++ bytesOf 4 p.reading.toNat
    ++ [p.digitsKind, p.flags, p.rssi, p.channel, p.sendNumber]

/-- A RELAY payload read from its 15 bytes (R24). -/
def relayOf (bs : List Byte) : RelayPayload :=
  { meterId := BitVec.ofNat 32 (fieldOf bs 0 4), counter := BitVec.ofNat 16 (fieldOf bs 4 2),
    reading := BitVec.ofNat 32 (fieldOf bs 6 4), digitsKind := byteAt bs 10, flags := byteAt bs 11, rssi := byteAt bs 12,
    channel := byteAt bs 13, sendNumber := byteAt bs 14 }

/-- HANDOVER payload bytes (R24). -/
def handoverBytes (p : HandoverPayload) : List Byte :=
  bytesOf 4 p.meterId.toNat ++ bytesOf 2 p.counter.toNat ++ bytesOf 4 p.reading.toNat ++ [p.digits, p.flags, p.active]

/-- A HANDOVER payload read from its 13 bytes (R24). -/
def handoverOf (bs : List Byte) : HandoverPayload :=
  { meterId := BitVec.ofNat 32 (fieldOf bs 0 4), counter := BitVec.ofNat 16 (fieldOf bs 4 2),
    reading := BitVec.ofNat 32 (fieldOf bs 6 4), digits := byteAt bs 10, flags := byteAt bs 11, active := byteAt bs 12 }

/-- The DOCK operation a payload carries, as its command (R174); none where the code is not in the table or the length is not the
one the table gives for it. -/
def dockCommandOf (bs : List Byte) : Option Instr :=
  match (byteAt bs 0).toNat, bs.length with
  | 1, 5 => some (.uploadOpen (BitVec.ofNat 32 (fieldOf bs 1 4)))
  | 2, 5 => some (.uploadMark (BitVec.ofNat 32 (fieldOf bs 1 4)))
  | 3, 1 => some .uploadClose
  | 4, 1 => some .eraseUploaded
  | 5, 1 => some .clearFindings
  | 6, 9 => some (.planBegin (BitVec.ofNat 32 (fieldOf bs 1 4)) (BitVec.ofNat 16 (fieldOf bs 5 2))
      (BitVec.ofNat 16 (fieldOf bs 7 2)))
  | 7, 35 => some (.planData (BitVec.ofNat 16 (fieldOf bs 1 2)) (bs.drop 3))
  | 8, 1 => some .planEnd
  | 9, n => if 3 ≤ n ∧ n ≤ 18 then some (.settingWrite (byteAt bs 1) (bs.drop 2)) else none
  | 10, 1 => some .settingSave
  | 11, 1 => some .dockClearConditions
  | _, _ => none

/-- What the receive filter makes of a valid frame from another station (R25, R138, R174). -/
inductive Reading where
  /-- set aside, uncounted -/
  | setAside
  /-- right class and source, wrong length: the receive format count grows (R25) -/
  | formatError
  /-- a RUN frame whose operation is neither 1 nor 2 (R138) -/
  | runReject
  /-- a DOCK frame of an unknown code or of another length than its code's (R174) -/
  | dockReject
  /-- delivered: the frame is this command's -/
  | delivered (c : Instr)
deriving DecidableEq, Repr

/-- A slot number is a collector's (00, Stations and slots). -/
def isCollector (slot : Nat) : Bool := decide (1 ≤ slot ∧ slot ≤ 8)

/-- The receive filter (R25): destination, then class and source, then length and operation. DEDUCED (log 41): a QUERY whose length is
neither 1 nor 3 is a format error whatever its operation. -/
def readFrame (own : Nat) (f : RackFrame) : Reading :=
  let bs := f.payload
  let n := bs.length
  let src := f.src.toNat
  if f.dst.toNat ≠ own ∧ f.dst.toNat ≠ Config.allStations then .setAside
  else match f.cls.toNat with
    | 0 =>
      if src ≠ Config.consoleSlot then .setAside
      else if n ≠ 5 then .formatError
      else
        let run := BitVec.ofNat 16 (fieldOf bs 1 2)
        let day := BitVec.ofNat 16 (fieldOf bs 3 2)
        match (byteAt bs 0).toNat with
        | 1 => .delivered (.runOpen run day)
        | 2 => .delivered (.runClose run day)
        | _ => .runReject
    | 1 =>
      if src ≠ Config.navigationSlot then .setAside
      else if n ≠ 3 then .formatError
      else .delivered (.position (byteAt bs 0) (BitVec.ofNat 16 (fieldOf bs 1 2)))
    | 2 =>
      if !isCollector src then .setAside
      else if n ≠ 14 then .formatError
      else .delivered (.presence f.src (presenceOf bs))
    | 3 =>
      if !isCollector src then .setAside
      else if n ≠ 6 then .formatError
      else .delivered (.held f.src (BitVec.ofNat 32 (fieldOf bs 0 4)) (BitVec.ofNat 16 (fieldOf bs 4 2)))
    | 4 =>
      if !isCollector src then .setAside
      else if n ≠ 13 then .formatError
      else .delivered (.handover f.src (handoverOf bs))
    | 5 =>
      if !isCollector src then .setAside
      else if n ≠ 15 then .formatError
      else .delivered (.relay f.src (relayOf bs))
    | 8 =>
      if src ≠ Config.consoleSlot then .setAside
      else if n ≠ 1 ∧ n ≠ 3 then .formatError
      else
        match (byteAt bs 0).toNat with
        | 1 => if n = 3 then .delivered (.listRevisit (BitVec.ofNat 16 (fieldOf bs 1 2))) else .formatError
        | 2 => if n = 1 then .delivered .queryClearConditions else .formatError
        | _ => .setAside
    | 10 =>
      if src ≠ Config.dockSlot then .setAside
      else if n = 0 then .formatError
      else
        match dockCommandOf bs with
        | some c => .delivered c
        | none => .dockReject
    | _ => .setAside

end Sys2Proof.Machine
end

