-- ==== Sys2Proof/Machine/Wire.lean ====
section
/-!
DEFINITION. The rack frame on the wire: layout (R17), CRC (R18), bit stuffing (R19) and the receiver's judgement of a
frame in bit order (R20, R21). A bit is a Bool: true is recessive (1), false is dominant (0) (R16).
-/

namespace Sys2Proof.Machine

/-- The `n` low bits of `v`, most significant first (R17). -/
def bitsOf (n v : Nat) : List Bool :=
  (List.range n).map fun i => v.testBit (n - 1 - i)

/-- The number whose bits, most significant first, are `bs`. -/
def bitsNumber (bs : List Bool) : Nat :=
  bs.foldl (fun acc b => acc * 2 + b.toNat) 0

/-- The byte string the frame CRC covers (R18): the header padded with six zero bits, then the payload. -/
def frameCovered (f : RackFrame) : List Byte :=
  let len := f.payload.length
  [BitVec.ofNat 8 (f.cls.toNat * 16 + f.src.toNat), BitVec.ofNat 8 (f.dst.toNat * 16 + len / 4),
    BitVec.ofNat 8 (len % 4 * 64)] ++ f.payload

/-- The frame CRC (R18). -/
def frameCrc (f : RackFrame) : BitVec 16 := crc16 (frameCovered f)

/-- The bits of the stuffed region before stuffing: start bit to last CRC bit (R17, R19). -/
def frameBits (f : RackFrame) : List Bool :=
  false :: (bitsOf 4 f.cls.toNat ++ bitsOf 4 f.src.toNat ++ bitsOf 4 f.dst.toNat ++ bitsOf 6 f.payload.length
    ++ f.payload.flatMap (fun b => bitsOf 8 b.toNat) ++ bitsOf 16 (frameCrc f).toNat)

/-- Stuffing after a bit `prev` that ends a run of `n` equal bits (R19). -/
def stuffAfter (prev : Bool) (n : Nat) : List Bool → List Bool
  | [] => if n = 6 then [!prev] else []
  | b :: bs =>
    if n = 6 then
      (!prev) :: b :: stuffAfter b (if b = !prev then 2 else 1) bs
    else
      b :: stuffAfter b (if b = prev then n + 1 else 1) bs

/-- The stuffed region (R19). -/
def stuffed : List Bool → List Bool
  | [] => []
  | b :: bs => b :: stuffAfter b 1 bs

/-- What a sender drives for a frame, start bit to end field (R17, R19). -/
def wireBits (f : RackFrame) : List Bool :=
  stuffed (frameBits f) ++ List.replicate 7 true

/-- What the receiver finds (R21). `clean` says that no dominant bit fell in what followed. -/
inductive LineVerdict where
  | valid (clean : Bool)
  | stuffViolation
  | lengthAbove48
  | crcFailure (clean : Bool)
  | endFieldDominant
deriving DecidableEq, Repr

/-- The length field of the bits taken so far, start bit first (R17). -/
def lengthField (taken : List Bool) : Nat :=
  bitsNumber ((taken.drop 13).take 6)

/-- The header and payload taken, as a frame, and its received CRC compared (R18). -/
def takenCrcGood (taken : List Bool) : Bool :=
  let len := lengthField taken
  let f : RackFrame :=
    { cls := BitVec.ofNat 4 (bitsNumber ((taken.drop 1).take 4)),
      src := BitVec.ofNat 4 (bitsNumber ((taken.drop 5).take 4)),
      dst := BitVec.ofNat 4 (bitsNumber ((taken.drop 9).take 4)),
      payload := (List.range len).map fun i => BitVec.ofNat 8 (bitsNumber ((taken.drop (19 + 8 * i)).take 8)) }
  (frameCrc f).toNat == bitsNumber ((taken.drop (19 + 8 * len)).take 16)

/-- The end field and interframe space after the last CRC bit (R21): bits not listed are recessive. -/
def judgeTail (good : Bool) (rest : List Bool) : LineVerdict :=
  let endClean := (rest.take 7).all id
  let spaceClean := ((rest.drop 7).take 2).all id
  if good then (if endClean then .valid spaceClean else .endFieldDominant)
  else .crcFailure (endClean && spaceClean)

/-- The receiver in FRAME (R20, R21): `taken` holds the bits taken after removing stuff bits, start bit first; `run` is the length
of the run of equal bits that ends with `prev`. It stops at the first fault. DEDUCED (log 40): a stuff bit violated after a last CRC bit
whose CRC has failed counts nothing more and sends the receiver to SEARCHING. -/
def judgeFrom (taken : List Bool) (prev : Bool) (run : Nat) : List Bool → LineVerdict
  | [] => .stuffViolation
  | b :: rest =>
    if run = 6 then
      if b = prev then .stuffViolation else judgeFrom taken b 1 rest
    else
      let taken' := taken ++ [b]
      let run' := if b = prev then run + 1 else 1
      if taken'.length = 19 ∧ 48 < lengthField taken' then .lengthAbove48
      else if 19 ≤ taken'.length ∧ taken'.length = 35 + 8 * lengthField taken' then
        let good := takenCrcGood taken'
        if run' = 6 then
          match rest with
          | [] => judgeTail good []
          | c :: rest' => if c = b then (if good then .stuffViolation else .crcFailure false) else judgeTail good rest'
        else judgeTail good rest
      else judgeFrom taken' b run' rest

/-- Recessive bits enough to end any frame that its sender truncates (R21: within seven bit times). -/
def recessiveTail : List Bool := List.replicate 8 true

/-- The receiver's judgement of the bits from the start bit on; absent where the first bit is no start bit (R20). -/
def judgeBits : List Bool → Option LineVerdict
  | false :: bits => some (judgeFrom [false] false 1 (bits ++ recessiveTail))
  | _ => none

end Sys2Proof.Machine
end

