-- ==== Sys2Proof/Machine/Rack.lean ====
section
/-!
DEFINITION. The Rack Port (chapter 2): pending items and the frames formed at their offers, what became of an item, retries, and the
reports and delivery of a valid frame received.
-/

namespace Sys2Proof.Machine

/-! ## Frames formed at the offer (R24, R27) -/

/-- A frame of this station (R17, R24). -/
def State.frame (s : State) (cls dst : Nat) (payload : List Byte) : RackFrame where
  cls := BitVec.ofNat 4 cls
  src := BitVec.ofNat 4 s.slot
  dst := BitVec.ofNat 4 dst
  payload := payload

/-- Code of a run state (R39, R137). -/
def RunState.code : RunState → Byte
  | .blank => 0
  | .loadingErase => 1
  | .loadingData => 2
  | .ready => 3
  | .rebuilding => 4
  | .running => 5
  | .closing => 6

/-- The plan identifier that PRESENCE carries (R39). -/
def State.presencePlan (s : State) : BitVec 32 :=
  match s.engine.runState with
  | some .loadingErase | some .loadingData => s.dock.load.ident
  | some .blank | none => 0
  | _ => match s.engine.plan with
    | some p => p.ident
    | none => 0

/-- The adopted-share set (R39). -/
def State.adoptedSet (s : State) : Byte :=
  numberSet fun n => decide (n ≤ s.settings.collectors) && s.shareState n == .adopted

/-- The participation view (R39, R42). -/
def State.participation (s : State) : Byte :=
  numberSet fun n => if n = s.slot then s.isRunning else s.participates n

/-- This station's state as its PRESENCE carries it (R39). -/
def State.presencePayload (s : State) : PresencePayload where
  runState := match s.engine.runState with
    | some r => r.code
    | none => 0
  run := s.runNumber
  plan := s.presencePlan
  conditions := s.conditionsField
  adopted := s.adoptedSet
  participation := s.participation
  freeSectors := BitVec.ofNat 16 s.store.freeSectors
  revision := 0x02

/-- The payload of a HANDOVER (R54). -/
def Entry.handover (e : Entry) : HandoverPayload where
  meterId := e.meterId
  counter := match e.lastHeard with
    | some l => l.counter
    | none => 0
  reading := match e.lastHeard with
    | some l => l.reading
    | none => 0
  digits := BitVec.ofNat 8 e.digits
  flags := match e.lastHeard with
    | some l => l.flags
    | none => 0
  active := activeSet e.detectors

/-- The payload of a RELAY (R124). -/
def RelayEntry.payload (e : RelayEntry) : RelayPayload where
  meterId := e.packet.meterId
  counter := e.packet.counter
  reading := e.packet.reading
  digitsKind := BitVec.ofNat 8 (e.packet.digits.toNat * 16 + (if e.packet.alarm then 2 else 1))
  flags := e.packet.flags
  rssi := e.packet.rssi
  channel := e.packet.channel
  sendNumber := BitVec.ofNat 8 (e.sends + 1)

/-- The payload of a SUSPECT frame (R116). -/
def Notice.bytes (n : Notice) : List Byte :=
  bytesOf 4 n.meterId.toNat ++ [BitVec.ofNat 8 n.score, n.active] ++ bytesOf 2 n.segment

/-- The payload of a TALLY, from the row as it stands (R148). -/
def SegmentRow.bytes (r : SegmentRow) : List Byte :=
  bytesOf 2 r.segment ++ bytesOf 2 r.expected ++ bytesOf 2 r.read ++ bytesOf 2 r.missed ++ bytesOf 2 r.suspect

/-- The payload of a REVISIT reply, from the list as it stands (R152). -/
def revisitBytes (list : List RevisitItem) (start : BitVec 16) : List Byte :=
  bytesOf 2 list.length ++ bytesOf 2 start.toNat
    ++ ((list.drop start.toNat).take 7).flatMap fun i => bytesOf 4 i.meterId.toNat ++ bytesOf 2 i.segment

/-- UPLOAD END part 1 (R180). -/
def State.uploadEnd1 (s : State) : List Byte :=
  let x := s.dock.session
  bytesOf 4 x.highest ++ bytesOf 2 x.streamed ++ bytesOf 2 x.synthCount ++ bytesOf 2 x.unsynthesized
    ++ bytesOf 4 s.store.uploadMark ++ bytesOf 2 s.conditionsField.toNat ++ bytesOf 2 s.store.dropped
    ++ bytesOf 2 s.store.faults ++ bytesOf 3 s.store.highestEraseCount ++ bytesOf 2 s.store.freeSectors

/-- The counters of UPLOAD END part 2, in order (R180, R14, R34). -/
def State.counters2 (s : State) : List Nat :=
  [s.radio.lineErrors, s.radio.intakeCrc, s.radio.malformed, s.radio.outOfRun, s.radio.overrun,
    s.rack.rxCrc, s.rack.rxFormat, s.rack.txErrors, s.rack.txDrops]

/-- The counters of UPLOAD END part 3, in order (R180, R135). -/
def State.counters3 (s : State) : List Nat :=
  [s.engine.heldDrop, s.engine.unlistedDrop, s.engine.relayReject, s.engine.handoverDrop, s.engine.suspectDrop,
    s.engine.runReject, s.tracker.tallyDrop, s.relay.duplicates, s.relay.confirmed, s.relay.unconfirmed, s.relay.heldDrop,
    s.engine.relayOverrun, s.engine.relayOutOfRun, s.dock.rejects, s.dock.replyDrops]

/-- The bytes of a reply at its offer (R174, R180). -/
def State.replyBytes (s : State) : ReplyBody → List Byte
  | .fixed bytes => bytes
  | .uploadEnd part =>
    [0x82, DockStatus.done.code, BitVec.ofNat 8 part] ++
      (match part with
        | 1 => s.uploadEnd1
        | 2 => s.counters2.flatMap (bytesOf 2)
        | _ => s.counters3.flatMap (bytesOf 2))

/-! ## Pending items (R32) -/

/-- Class 2: the PRESENCE due (R38). -/
def State.offer2 (s : State) : Option Sending :=
  s.presence.item.map fun t => ⟨t, s.frame 2 Config.allStations (presenceBytes s.presencePayload)⟩

/-- Class 3: the oldest HELD pending (R131). -/
def State.offer3 (s : State) : Option Sending :=
  s.relay.heldPending.head?.map fun i => ⟨i.tag, s.frame 3 Config.allStations (heldBytes i.pair.meterId i.pair.counter)⟩

/-- Class 4: the oldest HANDOVER whose share belongs to another slot, while RUNNING (R54, R56). -/
def State.offer4 (s : State) : Option Sending :=
  if s.isRunning then
    s.engine.handing.findSome? fun i =>
      if s.ownerOf i.share = s.slot then none
      else (s.engine.lookup i.meterId).map fun e => ⟨i.tag, s.frame 4 (s.ownerOf i.share) (handoverBytes e.handover)⟩
  else none

/-- A relay list entry is pending (R123). -/
def State.relayPending (s : State) (e : RelayEntry) : Bool :=
  (e.phase == .unsent || e.phase == .due) && s.shareState e.share == .notMine && s.ownerOf e.share != s.slot

/-- Class 5: the first relay list entry that is pending (R123, R124). -/
def State.offer5 (s : State) : Option Sending :=
  (s.relay.list.find? s.relayPending).map fun e => ⟨e.tag, s.frame 5 (s.ownerOf e.share) (relayBytes e.payload)⟩

/-- Class 6: the oldest suspect notice (R116). -/
def State.offer6 (s : State) : Option Sending :=
  s.engine.notices.head?.map fun n => ⟨n.tag, s.frame 6 Config.consoleSlot n.bytes⟩

/-- Class 7: the oldest tally (R148). -/
def State.offer7 (s : State) : Option Sending :=
  s.tracker.tallies.head?.bind fun t =>
    (s.tracker.rows.find? (·.segment == t.segment)).map fun r => ⟨t.tag, s.frame 7 Config.consoleSlot r.bytes⟩

/-- Class 9: the REVISIT reply (R152). -/
def State.offer9 (s : State) : Option Sending :=
  s.tracker.reply.map fun r => ⟨r.tag, s.frame 9 Config.consoleSlot (revisitBytes s.tracker.revisit r.startIndex)⟩

/-- Bytes of an UPLOAD DATA (R177). -/
def UploadItem.frameBytes (i : UploadItem) : List Byte := [0x81, DockStatus.done.code] ++ i.bytes

/-- Class 11: the oldest DOCKREPLY or the UPLOAD DATA, whichever became pending first (R32, R174, R177). -/
def State.offer11 (s : State) : Option Sending :=
  let reply (r : Reply) : Sending := ⟨r.tag, s.frame 11 Config.dockSlot (s.replyBytes r.body)⟩
  let data (d : UploadItem) : Sending := ⟨d.tag, s.frame 11 Config.dockSlot d.frameBytes⟩
  match s.dock.replies.head?, s.dock.session.data with
  | some r, some d => some (if r.tag < d.tag then reply r else data d)
  | some r, none => some (reply r)
  | none, some d => some (data d)
  | none, none => none

/-- The transmit selector's choice: the pending item of lowest class, its frame formed now (R27, R32). -/
def State.nextItem (s : State) : Option Sending :=
  ((((((s.offer2.or s.offer3).or s.offer4).or s.offer5).or s.offer6).or s.offer7).or s.offer9).or s.offer11

/-- A frame is begun when the receiver is IDLE, the transmitter has started and an item is pending (R26, R27, R32). -/
def offer (s : State) : State :=
  if s.isUp && s.rack.rx == .idle && s.rack.sending.isNone then
    match s.nextItem with
    | some x =>
      { s with
        rack.rx := .frame
        rack.sending := some x }
    | none => s
  else s

/-! ## The query for the revisit list (R152) -/

/-- The frame of a REVISIT reply is on the bus (R24, R152). -/
def Rack.sendsRevisit (r : Rack) : Bool :=
  match r.sending with
  | some x => x.frame.cls == 9
  | none => false

/-- A query makes the one REVISIT reply pending, or replaces the start index of the reply that is pending, which keeps its age (R152). -/
def askRevisit (start : BitVec 16) (s : State) : State :=
  match s.tracker.reply with
  | some r => { s with
      tracker.reply := some { r with startIndex := start }
      tracker.query := none }
  | none => { s with
      tracker.reply := some ⟨s.nextTag, start⟩
      tracker.query := none
      nextTag := s.nextTag + 1 }

/-- A query that waits for the outcome of the reply's frame is answered once that frame is no longer on the bus: its outcome has been
reported (R33, R152). DESIGN CHOICE (log 34): where the outcome was still pending, the one reply is pending yet, and the query acts on it. -/
def answerQuery (s : State) : State :=
  match s.tracker.query with
  | some start => if s.rack.sendsRevisit then s else askRevisit start s
  | none => s

/-! ## What became of an item (R31, R33) -/

/-- An item is still with its producer (R30, R31). DESIGN CHOICE (log 56): a relay entry or a HANDOVER that is held back is with it still,
so it stays the retry item, with its count. -/
def State.isLive (s : State) (cls tag : Nat) : Bool :=
  match cls with
  | 2 => s.presence.item == some tag
  | 3 => s.relay.heldPending.any (·.tag == tag)
  | 4 => s.engine.handing.any (·.tag == tag)
  | 5 => s.relay.list.any (·.tag == tag)
  | 6 => s.engine.notices.any (·.tag == tag)
  | 7 => s.tracker.tallies.any (·.tag == tag)
  | 9 => (s.tracker.reply.map (·.tag)) == some tag
  | _ => s.dock.replies.any (·.tag == tag) || (s.dock.session.data.map (·.tag)) == some tag

/-- A HANDOVER item leaves the engine. -/
def dropHandover (s : State) (tag : Nat) : State := { s with engine.handing := s.engine.handing.filter (·.tag != tag) }

/-- A HANDOVER is finished: its HANDING entry is removed (R54). -/
def finishHandover (s : State) (tag : Nat) : State :=
  match s.engine.handing.find? (·.tag == tag) with
  | some i =>
    match s.engine.lookup i.meterId with
    | some e => if e.status = .handing then removeEntry s e else dropHandover s tag
    | none => dropHandover s tag
  | none => s

/-- A relay send is counted, sent or dropped (R124, R33). -/
def finishRelay (s : State) (tag dst : Nat) : State :=
  { s with relay := s.relay.updateEntry tag fun e =>
    { e with
      sends := e.sends + 1
      lastSend := some s.now
      target := some dst
      phase := .waiting } }

/-- An UPLOAD DATA or a DOCKREPLY is finished (R174, R177). -/
def finishReply (s : State) (tag : Nat) : State :=
  match s.dock.session.data with
  | some d =>
    if d.tag = tag then finishUpload s d.number
    else { s with dock.replies := s.dock.replies.filter (·.tag != tag) }
  | none => { s with dock.replies := s.dock.replies.filter (·.tag != tag) }

/-- An item is finished: the producer is told that it was sent or dropped (R31, R33). -/
def finishItem (s : State) (cls tag dst : Nat) : State :=
  match cls with
  | 2 => { s with presence.item := none }
  | 3 => { s with relay.heldPending := s.relay.heldPending.filter (·.tag != tag) }
  | 4 => finishHandover s tag
  | 5 => finishRelay s tag dst
  | 6 => { s with engine.notices := s.engine.notices.filter (·.tag != tag) }
  | 7 => { s with tracker.tallies := s.tracker.tallies.filter (·.tag != tag) }
  | 9 => { s with tracker.reply := none }
  | _ => finishReply s tag

/-- The item of a frame is finished, where it is still with its producer; else its outcome is reported to nobody (R31). -/
def finishFrame (s : State) (x : Sending) : State :=
  if s.isLive x.frame.cls.toNat x.tag then finishItem s x.frame.cls.toNat x.tag x.frame.dst.toNat else s

/-- The retry item becomes absent when it has left its producer (R30); not by being held back (log 56). -/
def cleanRetry (s : State) : State :=
  match s.rack.retry with
  | some r => if s.isLive r.cls r.tag then s else { s with rack.retry := none }
  | none => s

/-- The retry count after a transmit error on an item (R30). -/
def retryCount (r : Option Retry) (cls tag : Nat) : Nat :=
  match r with
  | some r => if r.cls = cls ∧ r.tag = tag then r.count + 1 else 1
  | none => 1

/-- A transmit error's effect on the retry state and, at the eighth, the drop (R30). DEDUCED (log 42): an error on a frame whose item has
left its producer leaves another retry item and its count as they are. -/
def retryItem (s : State) (x : Sending) : State :=
  let cls := x.frame.cls.toNat
  let n := retryCount s.rack.retry cls x.tag
  if !s.isLive cls x.tag then s
  else if n < Config.retryLimit then { s with rack.retry := some ⟨cls, x.tag, n⟩ }
  else
    finishFrame
      { s with
        rack.retry := none
        rack.txDrops := countUp s.rack.txDrops
        startup.conds.txFault := true } x

/-- This station's frame has gone out whole (R31). -/
def frameSent (s : State) (x : Sending) : State :=
  finishFrame
    { s with
      rack.rx := .idle
      rack.sending := none
      rack.retry := none } x

/-- A transmit error (R29, R30). Where the start bit itself was read as recessive, no frame has begun and the receiver is IDLE (R20);
else it follows what is left of the frame (log 49). DESIGN CHOICE (log 61): an IDLE receiver with an item pending chooses again at the end
of the command. -/
def transmitError (atStart : Bool) (s : State) (x : Sending) : State :=
  retryItem
    { s with
      rack.rx := if atStart then .idle else .ownSpoiled
      rack.sending := none
      rack.txErrors := countUp s.rack.txErrors } x

/-! ## Receiving (R20 to R26) -/

/-- The receiver can take a frame: it is neither SEARCHING nor not yet following the bus (R20, R26). -/
def State.follows (s : State) : Bool := s.rack.rx == .idle || s.rack.rx == .frame || s.rack.rx == .ownSpoiled

/-- A valid frame from this station's own slot that it did not send: its transmitter was silent or has withdrawn, so no frame of its own is
on the bus (R23; log 10). -/
def duplicateFrame (s : State) : State :=
  { s with
    rack.rx := .idle
    rack.sending := none
    rack.lastDuplicate := some s.now
    startup.conds.duplicateSlot := true }

/-- The Rack Port after a valid frame from another station: its receiver is IDLE (R20), but for a frame of its own on the bus, which stays
there and ends by an outcome of its own, also where its item has left its producer by that reception (R31, R33; log 10). -/
def Rack.afterFrame (r : Rack) : Rack :=
  match r.sending with
  | some _ => r
  | none => { r with rx := .idle }

/-- The reports of a valid frame from another station (R22). The heard report recomputes before the frame's delivery (log 57). -/
def reportFrame (s : State) (src : Nat) : State :=
  let s := { s with
    rack := s.rack.afterFrame
    startup.conds.fresh := false }
  if isCollector src then heardReport s src else s

/-- A valid frame from `src` completes (R22, R23, R25, R26); `deliver` is what its delivery does. Absent while the receiver follows
no frame. DEDUCED (log 51): before step 6 nothing of R25 applies, so a frame of a wrong length is not counted as a format error. -/
def onFrame (src : Nat) (deliver : State → State) (s : State) : Option State :=
  if !s.follows then none
  else if src = s.slot then some (duplicateFrame s)
  else
    let s := reportFrame s src
    some (if s.isUp then deliver s else s)

/-- A frame class that only collectors send; from any other source it is set aside (R25). -/
def fromPeer (src : Nat) (deliver : State → State) (s : State) : State :=
  if isCollector src then deliver s else s

/-- A fault in a received frame is counted, unless the frame was this station's own (R21, R29). -/
def countFormat (s : State) : State :=
  if s.rack.rx = .ownSpoiled then s else { s with rack.rxFormat := countUp s.rack.rxFormat }

/-- A CRC failure is counted, unless the frame was this station's own (R21, R29). -/
def countCrc (s : State) : State :=
  if s.rack.rx = .ownSpoiled then s else { s with rack.rxCrc := countUp s.rack.rxCrc }

/-- A receiver state after a lost arbitration or a faulty frame: the frame followed was not this station's, so none of its own is on the bus
(R20, R21, R28; log 10). -/
def receiveTo (s : State) (rx : RxState) : State :=
  { s with
    rack.rx := rx
    rack.sending := none }

/-- The receiver's fault (R20, R21); absent for bits that are no start of a frame or a clean valid frame. -/
def receiveFault (v : Option LineVerdict) (s : State) : Option State :=
  if !s.follows then none
  else
    match v with
    | none | some (.valid true) => none
    | some (.valid false) => some (receiveTo s .searching)
    | some .stuffViolation | some .lengthAbove48 | some .endFieldDominant => some (receiveTo (countFormat s) .searching)
    | some (.crcFailure clean) => some (receiveTo (countCrc s) (if clean then .idle else .searching))

end Sys2Proof.Machine
end

