-- ==== Sys2Proof/Machine/Radio.lean ====
section
/-!
DEFINITION. The Radio Intake (chapter 1): the line receiver, the judgement of a completed frame, and admission to the intake queue.
-/

namespace Sys2Proof.Machine

/-! ## Characters (R2 to R4) -/

/-- The parity bit makes the number of ones among data and parity even (R2). -/
def parityGood (data : Byte) (parity : Bool) : Bool :=
  ((List.range 8).countP fun i => data.getLsbD i) % 2 == parity.toNat

/-- A spoiled character: parity error, framing error, or both (R2). -/
def characterSpoiled (data : Byte) (parity stop : Bool) : Bool := !parityGood data parity || !stop

/-- Entry to SPOILED, one line error (R4). -/
def Radio.spoil (r : Radio) : Radio :=
  { r with
    line := .spoiled
    lineErrors := countUp r.lineErrors }

/-- A good character (R4). -/
def Radio.goodCharacter (r : Radio) (data : Byte) : Radio :=
  match r.line with
  | .idle => if data = 16 then { r with line := .assembling [data] } else r.spoil
  | .assembling bs => if bs.length < 17 then { r with line := .assembling (bs ++ [data]) } else r.spoil
  | .spoiled => r

/-- A spoiled character (R4). -/
def Radio.spoiledCharacter (r : Radio) : Radio :=
  match r.line with
  | .spoiled => r
  | _ => r.spoil

/-- A character arrives (R2 to R4): its effect, and the gap timer. After a framing error the gap waits for the line to return high. -/
def Radio.character (r : Radio) (data : Byte) (parity stop : Bool) : Radio :=
  let r := if characterSpoiled data parity stop then r.spoiledCharacter else r.goodCharacter data
  { r with
    gapRunning := stop
    awaitHigh := !stop }

/-- The line returns high after a framing error (R2, R3). -/
def Radio.lineHigh (r : Radio) : Radio :=
  { r with
    gapRunning := true
    awaitHigh := false }

/-! ## A completed frame (R4 to R10) -/

/-- The bubble of a front-end frame's 17 bytes (1.3). -/
def bubbleOf (bs : List Byte) : List Byte := (bs.drop 1).take 14

/-- The packet of a bubble with its RSSI and channel, unused flag bits 0 (1.1, R7, R9). -/
def packetOf (bubble : List Byte) (rssi channel : Byte) : Packet where
  meterId := BitVec.ofNat 32 (fieldOf bubble 0 4)
  counter := BitVec.ofNat 16 (fieldOf bubble 4 2)
  reading := BitVec.ofNat 32 (fieldOf bubble 6 4)
  digits := BitVec.ofNat 4 (fieldOf bubble 10 1 / 16)
  alarm := fieldOf bubble 10 1 % 16 == 2
  flags := usedFlags (byteAt bubble 11)
  rssi := rssi
  channel := channel

/-- The kind nibble is 1 or 2 (R6). -/
def kindValid (bubble : List Byte) : Bool :=
  fieldOf bubble 10 1 % 16 == 1 || fieldOf bubble 10 1 % 16 == 2

/-- A valid packet meets the run-state gate and the admission check (R8, R10). -/
def admitPacket (s : State) (p : Packet) : State :=
  if !s.isRunning then { s with radio.outOfRun := countUp s.radio.outOfRun }
  else if s.radio.queue.length < Config.intakeCapacity then { s with radio.queue := s.radio.queue ++ [p] }
  else
    { s with
      radio.overrun := countUp s.radio.overrun
      startup.conds.intakeOverrun := true }

/-- The judgement of a bubble: CRC, meter ID, kind (R5, R6). -/
def judgeBubble (s : State) (bubble : List Byte) (rssi channel : Byte) : State :=
  let p := packetOf bubble rssi channel
  if !crcGood bubble 0 12 then { s with radio.intakeCrc := countUp s.radio.intakeCrc }
  else if !validMeterId p.meterId || !kindValid bubble then { s with radio.malformed := countUp s.radio.malformed }
  else admitPacket s p

/-- A front-end frame of 17 bytes completes: its channel is checked, then its bubble judged (R4, R5). -/
def completeFrame (s : State) (bs : List Byte) : State :=
  if 15 < (byteAt bs 16).toNat then { s with radio.lineErrors := countUp s.radio.lineErrors }
  else judgeBubble s (bubbleOf bs) (byteAt bs 15) (byteAt bs 16)

/-- The gap runs out (R3, R4). -/
def gapExpires (s : State) : State :=
  let idle := { s with radio := { s.radio with
    line := .idle
    gapRunning := false } }
  match s.radio.line with
  | .assembling bs =>
    if bs.length = 17 then completeFrame idle bs else { idle with radio.lineErrors := countUp s.radio.lineErrors }
  | _ => idle

end Sys2Proof.Machine
end

