-- ==== Sys2Proof/Machine/Scan.lean ====
section
/-!
DEFINITION. The start-up scan (R170 to R172): what it reads of each log sector, and the store, the marks to program and the
interrupted run it recovers.
-/

namespace Sys2Proof.Machine

/-! ## Classification (R170) -/

/-- A log sector as the scan classifies it (R170). -/
inductive ScanClass where
  | retired | erased | listed | uploaded | opened
deriving DecidableEq, Repr

/-- The slots that hold records are all ones (R155). -/
def bodyBlank (flash : Memory) (n : Nat) : Bool :=
  flash.blank (slotAddress n 1) ((Config.sectorSlots - 1) * Config.slotBytes)

/-- The first matching row of the table of R170. -/
def scanClass (h : SectorHeader) (blankBody : Bool) : ScanClass :=
  if h.retired then .retired
  else if h.allOnes then (if blankBody then .erased else .listed)
  else if h.intact && h.eraseBegun then .listed
  else if h.intact && h.uploaded then .uploaded
  else if h.intact && h.opened then .opened
  else .listed

/-- A sector with its header and class. -/
structure Scanned where
  sector : Nat
  header : SectorHeader
  cls : ScanClass
deriving DecidableEq, Repr

/-- Slot 0 of a sector read and classified (R170). -/
def scanSector (flash : Memory) (n : Nat) : Scanned :=
  let h := headerOf (flash.readBytes (slotAddress n 0) Config.slotBytes)
  ⟨n, h, scanClass h (bodyBlank flash n)⟩

/-- All log sectors, ascending (R170). -/
def scanSectors (flash : Memory) : List Scanned :=
  (List.range Config.logSectors).map fun i => scanSector flash (Config.firstLogSector + i)

/-- The greatest of some numbers, 0 where there is none. -/
def greatest (l : List Nat) : Nat := l.foldl max 0

/-- The highest erase count read from any intact header, or 0 (R171). -/
def scannedEraseCount (l : List Scanned) : Nat :=
  greatest ((l.filter (·.header.intact)).map (·.header.eraseCount))

/-- The head sector: of the OPENED ones, the one of highest sequence (R171). -/
def scannedHead (l : List Scanned) : Option Scanned :=
  (l.filter (·.cls == .opened)).foldl
    (fun best x => match best with
      | some b => if b.header.seq < x.header.seq then some x else best
      | none => some x) none

/-- The state of a sector after classification; `head` is the head sector (R170, R171). -/
def scannedState (head : Option Nat) (x : Scanned) : SectorState :=
  match x.cls with
  | .retired => .retired
  | .erased => .erased
  | .listed => if x.header.eraseBegun then .erasing else .eraseListed
  | .uploaded => .uploaded
  | .opened => if head = some x.sector then .opened else .full

/-- The row of a sector, its records apart (R156, R170, R171; log 17 for the erase count of a header that cannot be read). -/
def scannedRow (count : Nat) (head : Option Nat) (x : Scanned) : SectorRow where
  sector := x.sector
  state := scannedState head x
  seq := if x.header.intact || (x.cls == .retired && x.header.crcGood) then some x.header.seq else none
  eraseCount := if x.header.intact then x.header.eraseCount else count
  abandoned := 0
  first := none
  last := none

/-! ## The head (R171) -/

/-- The last slot of a sector that is not free. -/
def lastUsedSlot (flash : Memory) (n : Nat) : Option Nat :=
  ((List.range Config.sectorSlots).drop 1).foldl
    (fun last k => if allOnes (flash.readBytes (slotAddress n k) Config.slotBytes) then last else some k) none

/-- The page of a slot holds a slot that is not free and fails its CRC; slot 0 is the header (R171). -/
def pageSpoiled (flash : Memory) (n k : Nat) : Bool :=
  (List.range 8).any fun i =>
    let j := k / 8 * 8 + i
    let bs := flash.readBytes (slotAddress n j) Config.slotBytes
    decide (1 ≤ j) && !allOnes bs && !recordGood bs

/-- The head slot in the head sector (R171). -/
def scannedSlot (flash : Memory) (n : Nat) : Nat :=
  match lastUsedSlot flash n with
  | none => 1
  | some k => if pageSpoiled flash n k then nextPage k else k + 1

/-! ## What the scan recovers (R172) -/

/-- First and last numbers of a row from the records accepted (R172). -/
def SectorRow.withRecords (recs : List LogRecord) (r : SectorRow) : SectorRow :=
  match r.seq with
  | some q =>
    let own := recs.filter fun x => x.pos.sector == q && r.state.inLog
    { r with
      first := own.head?.map fun (x : LogRecord) => x.number
      last := own.getLast?.map fun (x : LogRecord) => x.number }
  | none => r

/-- The highest good record number of a sector (R172). -/
def highestIn (flash : Memory) (n : Nat) : Nat :=
  greatest (((List.range Config.sectorSlots).drop 1).filterMap fun k =>
    let bs := flash.readBytes (slotAddress n k) Config.slotBytes
    if recordGood bs then some (fieldOf bs 0 4) else none)

/-- The upload mark (R172). -/
def scannedMark (flash : Memory) (l : List Scanned) : Nat :=
  greatest ((l.filter fun x => x.header.intact && x.header.uploaded).map fun x => highestIn flash x.sector)

/-- The sequence counter (R172): one past the highest accepted record, or the greatest reserve entry, or 1. -/
def scannedCounter (recs : List LogRecord) (l : List Scanned) : Nat :=
  let reserves := (l.filter (·.header.intact)).flatMap (·.header.reserves)
  max 1 (max (greatest (recs.map fun r => r.number + 1)) (greatest reserves))

/-- The sector sequence counter (R172); past the range of R156 as log 64 says. -/
def scannedSectorSeq (l : List Scanned) : Nat :=
  greatest ((l.filter (·.header.intact)).map (·.header.seq)) + 1

/-- The newest RUN MARK(open) with no RUN MARK(close) accepted after it (R172). -/
def scannedRun (recs : List LogRecord) : Option Interrupted :=
  recs.foldl (fun found r =>
    if r.kind = 1 ∧ r.counter = 1 then some ⟨r.run, r.pos, r.number⟩
    else if r.kind = 1 ∧ r.counter = 2 then none
    else found) none

/-- The erase list (R170): headers not intact first, by sector; then by sector sequence. -/
def scannedEraseList (l : List Scanned) : List EraseItem :=
  let listed := l.filter (·.cls == .listed)
  let lost := (listed.filter fun x => !x.header.intact).map (·.sector)
  let known := (sortRows ((listed.filter (·.header.intact)).map (scannedRow 0 none))).map (·.2.sector)
  (lost ++ known).map fun n => ⟨n, true, .listed⟩

/-- The FULL marks to program: of OPENED sectors taken as FULL, the mark not set (R171). DESIGN CHOICE (log 58): requested by sector number,
ascending; the head sector's own mark comes last (`Store.takeHead`). -/
def scannedMarks (head : Option Nat) (l : List Scanned) : List MarkReq :=
  (l.filter fun x => x.cls == .opened && head != some x.sector && !x.header.full).map fun x => .full x.sector

/-- The head sector is taken on: the head in it, or past its end the sector is full (R171), its FULL mark requested after the others
(log 58). -/
def Store.takeHead (st : Store) (head : Option Scanned) : Store :=
  match head with
  | none => st
  | some x =>
    let slot := scannedSlot st.flash x.sector
    if slot < Config.sectorSlots then { st with head := some (x.sector, slot) }
    else
      let st := st.updateRow x.sector fun r => { r with state := .full }
      if x.header.full then st else st.requestMark (.full x.sector)

/-- With no sector OPENED at the scan's end, the candidate is opened if it is ERASED (R171). -/
def Store.openAtScan (st : Store) : Store := if st.head.isNone then st.openCandidate else st

/-- The store as the scan leaves it (R170 to R173), and the interrupted run. DEDUCED (log 47): the walk reads the records of RETIRED
sectors too, since R158 puts them in log order. -/
def Store.scan (st : Store) : Store × Option Interrupted :=
  let l := scanSectors st.flash
  let head := scannedHead l
  let number := head.map (·.sector)
  let st := { st with rows := l.map (scannedRow (scannedEraseCount l) number) }
  let recs := st.walk
  let counter := scannedCounter recs l
  let st := { st with
    rows := st.rows.map (SectorRow.withRecords recs)
    head := none
    sectorSeq := scannedSectorSeq l
    seqCounter := counter
    durableBound := counter
    uploadMark := scannedMark st.flash l
    lastGiven := greatest (recs.map fun (x : LogRecord) => x.number)
    eraseList := scannedEraseList l
    marks := scannedMarks number l }
  ((st.takeHead head).openAtScan, scannedRun recs)

end Sys2Proof.Machine
end

