-- ==== Sys2Proof/Machine/Settle.lean ====
section
/-!
DEFINITION. What follows at the end of every command (log 12): the engine's choice, the erase list's service, the flash arbiter, the
report of a full store, the query that waits, and the transmit selector. And the form of a command's meaning.
-/

namespace Sys2Proof.Machine

/-! ## The flash arbiter (R166, R167) -/

/-- The engine's operation waits for a plan read (R62). -/
def EngineOp.readsPlan : EngineOp → Bool
  | .planCheckHeader | .planCheckRecord _ _ | .ownBuild _ | .load _ _ => true
  | _ => false

/-- The engine's operation waits for a log read (R140). -/
def EngineOp.readsLog : EngineOp → Bool
  | .rebuild _ _ => true
  | _ => false

/-- The check read at PLAN END waits for a plan read (R186). -/
def State.checkWaits (s : State) : Bool :=
  match s.dock.load.check with
  | some (_ :: _) => true
  | _ => false

/-- A program at rank 1 can be served: a log page waits for its sector's opening (R162, R166). -/
def Store.servable (st : Store) : ProgramReq → Bool
  | .logPage => st.opening.isNone && st.head.isSome
  | .opening => st.opening.isSome
  | .planRecord | .planHeader => true

/-- The plan record at the front of the plan write queue is taken and served (R185). -/
def servePlanRecord (s : State) : State :=
  match s.dock.load.queue with
  | (i, bs) :: rest =>
    { s with
      store.serving := some (.planRecord i bs)
      dock.load.queue := rest }
  | [] => s

/-- A request at rank 1 is served; a plan record is taken from the plan write queue (R185). -/
def serveProgram (s : State) (p : ProgramReq) : State :=
  let s := { s with store.progs := s.store.progs.erase p }
  match p with
  | .logPage => { s with store.serving := some .logPage }
  | .opening => { s with store.serving := some .opening }
  | .planHeader => { s with store.serving := some .planHeader }
  | .planRecord => servePlanRecord s

/-- The erase that waits first: plan-region erases, then the erase list (R166). -/
def beginErase (st : Store) : Store :=
  if st.erase.isSome then st
  else
    match st.planErase, st.eraseList with
    | some n, _ =>
      { st with
        planErase := none
        erase := some ⟨n, 0⟩ }
    | none, ⟨n, _, .ready⟩ :: _ => { st with erase := some ⟨n, 0⟩ }
    | none, _ => st

/-- The arbiter serves the waiting user of highest rank when the flash is free (R166). -/
def arbitrate (s : State) : State :=
  if s.store.serving.isSome then s
  else
    match s.store.progs.find? s.store.servable with
    | some p => serveProgram s p
    | none =>
      if s.engine.op.readsPlan || s.checkWaits then { s with store.serving := some (.planRead true) }
      else if s.engine.op.readsLog then { s with store.serving := some (.rebuildRead true) }
      else if s.dock.session.ask.isSome then { s with store.serving := some (.uploadRead true) }
      else
        match s.store.marks with
        | m :: rest =>
          { s with
            store.marks := rest
            store.serving := some (.mark m) }
        | [] => { s with store := beginErase s.store }

/-- A plan record of the plan write queue waits at the arbiter, one program at a time (R185; log 21). -/
def requestPlanRecord (s : State) : State :=
  match s.dock.load.queue, s.store.progs.contains .planRecord, s.store.serving with
  | [], _, _ | _, true, _ | _, _, some (.planRecord _ _) => s
  | _, _, _ => { s with store.progs := s.store.progs ++ [.planRecord] }

/-! ## The end of a command -/

/-- What follows at once at the end of a command, in this order (log 12). The choice is made twice, since a spare's build ends as it
begins (R66). -/
def settle (s : State) : State :=
  let s := engineChoose (engineChoose s)
  let s := { s with store := s.store.serviceEraseList }
  offer (cleanRetry (answerQuery (arbitrate (requestPlanRecord s)).noteFull))

/-- What a command answers. -/
abbrev Answer := Host.Outcome State Fault Refusal

/-- The form of every command's meaning but START's and POWER_LOSS's: without power nothing happens; an event that the state excludes
(absent) leaves the state as it is (log 2); else its effect, then what follows at the end of a command. -/
def act (effect : State → Option State) (s : State) : Answer :=
  if s.startup.powered then
    match effect s with
    | some t => .next (settle t)
    | none => .next s
  else .next s

/-- A flash access to `n` bytes at `a`: outside the array it faults (R154). -/
def atFlash (a n : Nat) (answer : Answer) : Answer := if inFlash a n then answer else .fault .flashAddress

/-- An effect that happens when a condition holds. -/
def onlyIf (c : Bool) (t : State) : Option State := if c then some t else none

/-! ## Time -/

/-- One millisecond passes (R9, R167; logs 1 and 14): station time, and the erase time of an erase that is not suspended. -/
def tick (s : State) : State :=
  if s.startup.powered then
    { s with
      startup.now := s.startup.now + 1
      store.erase := s.store.erase.map fun e => if s.store.serving.isNone then { e with spent := e.spent + 1 } else e }
  else s

/-! ## Programs in progress -/

/-- Where the program being served writes, and what (R154); absent while none is served. -/
def State.programTarget (s : State) : Option (Nat × List Byte) :=
  match s.store.serving with
  | some .logPage => s.store.head.map fun h => (slotAddress h.1 h.2, s.store.pageBytes)
  | some .opening => s.store.opening.map fun o => (slotAddress o.sector 0, openingBytes o)
  | some (.planRecord i bs) => some (planSlotAddress i, bs)
  | some .planHeader =>
    some (planHeaderOffset, planHeaderBytes ⟨s.dock.load.ident, s.dock.load.count, s.dock.load.segments⟩)
  | some (.mark m) => some (slotAddress m.sector 0 + m.offset, m.pattern)
  | _ => none

/-- The form of the meaning of a program's end: its address is checked before its effect (R154). -/
def actProgram (effect : State → Option State) (s : State) : Answer :=
  match s.startup.powered, s.programTarget with
  | true, some (a, bs) => atFlash a bs.length (act effect s)
  | _, _ => act effect s

end Sys2Proof.Machine
end

