-- ==== Sys2Proof/Machine/Console.lean ====
section
/-!
DEFINITION. Console and navigation: RUN_OPEN, RUN_CLOSE, POSITION, POSITION_WATCHDOG_EXPIRY, LIST_REVISIT, QUERY_CLEAR_CONDITIONS
(chapter 8, R193).
-/

namespace Sys2Proof.Machine

/-! ## RUN OPEN (R138 to R140) -/

/-- A RUN frame that is ignored and counted (R138). -/
def rejectRun (s : State) : State := { s with engine.runReject := countUp s.engine.runReject }

/-- The acceptance of a RUN OPEN in the other blocks: the tracker starts the run (R144, R148), the session ends (R181), its frame
on the bus completing as R31 says. -/
def acceptRun (s : State) : State := endSession { s with tracker := s.tracker.startRun }

/-- A RUN OPEN that opens a new run (R139). -/
def openNewRun (run day : BitVec 16) (s : State) : State :=
  requestStation
    { acceptRun s with
      engine.openingRun := some run
      engine.runDay := day
      engine.interrupted := none } .runReset

/-- A RUN OPEN that resumes the interrupted run (R140). -/
def resumeRun (mark : Interrupted) (day : BitVec 16) (s : State) : State :=
  let s := acceptRun s
  requestStation (setRunState
    { s with
      engine.currentRun := some mark.run
      engine.runDay := day
      engine.interrupted := none } .rebuilding) (.resetRebuild mark)

/-- A RUN OPEN in READY with no open in progress (R138). -/
def judgeOpen (run day : BitVec 16) (s : State) : State :=
  if run = 0 then rejectRun s
  else
    match s.engine.interrupted with
    | some m => if m.run = run then resumeRun m day s else openNewRun run day s
    | none => openNewRun run day s

/-- A RUN OPEN delivered (R138). -/
def deliverOpen (run day : BitVec 16) (s : State) : State :=
  match s.engine.runState, s.engine.openingRun with
  | some .ready, none => judgeOpen run day s
  | some .ready, some r => if r = run then s else rejectRun s
  | some .rebuilding, _ | some .running, _ => if s.engine.currentRun = some run then s else rejectRun s
  | _, _ => s

/-! ## RUN CLOSE (R142) -/

/-- One item of the relay intake queue at RUN CLOSE (R129). -/
def emptyRelayItem (s : State) (i : RelayItem) : State :=
  match i with
  | .moved p segment stale => selfStore s p segment stale none
  | .relay _ _ | .handover _ => { s with engine.relayOutOfRun := countUp s.engine.relayOutOfRun }

/-- Both packet queues are emptied (R12, R129). -/
def emptyQueues (s : State) : State :=
  let s := { s with
    radio.outOfRun := countUpBy s.radio.outOfRun s.radio.queue.length
    radio.queue := [] }
  let s := s.engine.relayQueue.foldl emptyRelayItem s
  { s with engine.relayQueue := [] }

/-- Adoption ends: the queue is emptied, a load in progress abandoned, every share other than OWN is NOT MINE (R56, R67; logs 24, 25). -/
def endAdoption (s : State) : State :=
  let s := match s.engine.op with
    | .load share _ => stopLoad s share
    | _ => s
  { s with
    presence.adoptQueue := []
    presence.shares := s.presence.shares.map fun x => if x = .own then .own else .notMine
    engine.untracked := [] }

/-- A waiting reset-and-rebuild is withdrawn, and a rebuild scan in progress stops (R142). -/
def stopRebuild (s : State) : State :=
  let s := { s with engine.requests := s.engine.requests.filter fun r => match r with
    | .resetRebuild _ => false
    | _ => true }
  match s.engine.op with
  | .rebuild _ _ =>
    { s with
      engine.op := .idle
      store := s.store.orphanEngineRead }
  | _ => s

/-- The disposal of the relay list (R134). -/
def disposeRelays (s : State) : State :=
  let s := s.relay.list.foldl selfStoreEntry s
  { s with relay.list := [] }

/-- Every segment not yet CLOSED is closed, and the closures are requested, ascending (R147). -/
def closeSegments (s : State) : State :=
  let closing := (s.tracker.rows.filter (·.state != .closed)).map (·.segment)
  requestClosures
    { s with
      tracker.rows := s.tracker.rows.map fun r => { r with state := .closed }
      tracker.watchdog := none } closing

/-- A RUN CLOSE accepted (R142). A packet operation in progress goes on as usual: what it reads is from before the close (5.3). -/
def closeRun (s : State) : State :=
  let s := { s.withReading with engine.runState := some .closing }
  let s := closeSegments (disposeRelays (stopRebuild (endAdoption (emptyQueues s))))
  remap { s with engine.releases := [.close] }

/-- A RUN CLOSE delivered (R138). -/
def deliverClose (run : BitVec 16) (s : State) : State :=
  match s.engine.runState, s.engine.openingRun with
  | some .ready, some _ => rejectRun s
  | some .rebuilding, _ | some .running, _ => if s.engine.currentRun = some run then closeRun s else rejectRun s
  | _, _ => s

/-! ## POSITION (R146, R149) -/

/-- An AHEAD row numbered `p` or less becomes OPEN (R146 step 3). -/
def SegmentRow.reach (p : Nat) (r : SegmentRow) : SegmentRow :=
  if r.state = .ahead ∧ r.segment ≤ p then { r with state := .opened } else r

/-- An OPEN row that lies `l` or more behind `p` closes (R146 step 4). -/
def SegmentRow.leftBehind (p l : Nat) (r : SegmentRow) : Bool := r.state == .opened && decide (r.segment + l ≤ p)

/-- See `leftBehind`. -/
def SegmentRow.pass (p l : Nat) (r : SegmentRow) : SegmentRow :=
  if r.leftBehind p l then { r with state := .closed } else r

/-- A valid POSITION in RUNNING (R146 steps 1 to 4). -/
def takePosition (segment : Nat) (s : State) : State :=
  let p := min segment (s.tracker.rows.length - 1)
  let l := s.settings.lookback
  let rows := s.tracker.rows.map (SegmentRow.reach p)
  requestClosures
    { s with
      tracker.segment := p
      tracker.watchdog := some s.now
      tracker.stale := false
      tracker.rows := rows.map (SegmentRow.pass p l) } ((rows.filter (·.leftBehind p l)).map (·.segment))

/-- A POSITION delivered (R146). -/
def deliverPosition (valid : Byte) (segment : BitVec 16) (s : State) : State :=
  if s.isRunning && valid == 1 then takePosition segment.toNat s else s

/-- The watchdog has run out: the position timeout has passed since the arming or the last reload (R149). -/
def State.watchdogOver (s : State) : Bool :=
  match s.tracker.watchdog with
  | some t => decide (s.settings.positionTimeout ≤ elapsed s.now t)
  | none => false

/-- The watchdog's expiry (R149). -/
def watchdogExpires (s : State) : State :=
  { s with
    tracker.stale := true
    tracker.watchdog := none
    startup.conds.positionStale := true }

/-! ## QUERY (R152, R193) -/

/-- A QUERY LIST REVISIT delivered. While the reply's frame is on the bus the query waits for its outcome; else it is answered at once
(R152). DESIGN CHOICE (log 34): the frame is on the bus from its offer on, and a later query replaces one that waits. -/
def deliverRevisit (start : BitVec 16) (s : State) : State :=
  if s.rack.sendsRevisit then { s with tracker.query := some start }
  else askRevisit start s

/-! ## Meanings -/

/-- RUN_OPEN (R138 to R140). -/
def execRunOpen (run day : BitVec 16) (s : State) : Answer := act (onFrame Config.consoleSlot (deliverOpen run day)) s

/-- RUN_CLOSE (R138, R142). -/
def execRunClose (run _day : BitVec 16) (s : State) : Answer := act (onFrame Config.consoleSlot (deliverClose run)) s

/-- POSITION (R146). -/
def execPosition (valid : Byte) (segment : BitVec 16) (s : State) : Answer :=
  act (onFrame Config.navigationSlot (deliverPosition valid segment)) s

/-- POSITION_WATCHDOG_EXPIRY (R149). -/
def execPositionWatchdogExpiry (s : State) : Answer :=
  act (fun s => onlyIf (s.isRunning && s.watchdogOver) (watchdogExpires s)) s

/-- LIST_REVISIT (R152). -/
def execListRevisit (start : BitVec 16) (s : State) : Answer :=
  act (onFrame Config.consoleSlot (deliverRevisit start)) s

/-- QUERY_CLEAR_CONDITIONS (R193). -/
def execQueryClearConditions (s : State) : Answer := act (onFrame Config.consoleSlot clearConditions) s

end Sys2Proof.Machine
end

