-- ==== Sys2Proof/Machine/DockCommands.lean ====
section
/-!
DEFINITION. The dock's operations and the ends of what they begin: UPLOAD_OPEN, UPLOAD_READ, UPLOAD_MARK, UPLOAD_PAUSE_TIMEOUT,
UPLOAD_CLOSE, ERASE_UPLOADED, CLEAR_FINDINGS, PLAN_BEGIN, PLAN_DATA, PLAN_END, SETTING_WRITE, SETTING_SAVE, SAVE_COMPLETION,
DOCK_CLEAR_CONDITIONS (chapters 10 and 11).
-/

namespace Sys2Proof.Machine

/-! ## Deliveries (R174, R175) -/

/-- UPLOAD OPEN delivered (R175, R176). -/
def deliverUploadOpen (start : BitVec 32) : State → State := dockOperation .general 1 (uploadOpen start.toNat)

/-- UPLOAD MARK delivered (R175, R178). -/
def deliverUploadMark (m : BitVec 32) : State → State := dockOperation .general 2 (uploadMark m.toNat)

/-- UPLOAD CLOSE delivered (R175, R181). -/
def deliverUploadClose : State → State := dockOperation .general 3 uploadClose

/-- ERASE UPLOADED delivered (R175, R182). -/
def deliverEraseUploaded : State → State := dockOperation .general 4 eraseUploaded

/-- CLEAR FINDINGS delivered (R175, R183). -/
def deliverClearFindings : State → State := dockOperation .general 5 clearFindings

/-- PLAN BEGIN delivered (R175, R184). -/
def deliverPlanBegin (ident : BitVec 32) (count segments : BitVec 16) : State → State :=
  dockOperation .general 6 (planBegin ident count.toNat segments.toNat)

/-- PLAN DATA delivered (R175, R185). -/
def deliverPlanData (index : BitVec 16) (record : List Byte) : State → State :=
  dockOperation .planData 7 (planData index.toNat record)

/-- PLAN END delivered (R175, R186). -/
def deliverPlanEnd : State → State := dockOperation .planEnd 8 planEnd

/-- SETTING WRITE delivered (R175, R190). -/
def deliverSettingWrite (offset : Byte) (data : List Byte) : State → State :=
  dockOperation .settings 9 (settingWrite offset.toNat data)

/-- SETTING SAVE delivered (R175, R191). -/
def deliverSettingSave : State → State := dockOperation .settings 10 settingSave

/-- CLEAR CONDITIONS delivered (R175, R193). -/
def deliverDockClear : State → State := dockOperation .settings 11 dockClear

/-! ## Meanings -/

/-- UPLOAD_OPEN (R176). -/
def execUploadOpen (start : BitVec 32) (s : State) : Answer := act (onFrame Config.dockSlot (deliverUploadOpen start)) s

/-- The upload read in progress ends; one whose reader has gone only frees the flash (R177, R181). -/
def sessionReadEnds (s : State) : Option State :=
  let t := { s with store.serving := none }
  match s.store.serving with
  | some (.uploadRead true) => some (uploadReadEnds t)
  | some (.uploadRead false) => some t
  | _ => none

/-- UPLOAD_READ (R176, R177, R179). -/
def execUploadRead (s : State) : Answer := act sessionReadEnds s

/-- UPLOAD_MARK (R178). -/
def execUploadMark (m : BitVec 32) (s : State) : Answer := act (onFrame Config.dockSlot (deliverUploadMark m)) s

/-- The pause timer has run out (R177, R178). -/
def Session.pauseOver (x : Session) (now : Time) : Bool :=
  x.state == .paused && (match x.pauseSince with
    | some t => decide (Config.pauseTime ≤ elapsed now t)
    | none => false)

/-- UPLOAD_PAUSE_TIMEOUT (R178). -/
def execUploadPauseTimeout (s : State) : Answer :=
  act (fun s => onlyIf (s.dock.session.pauseOver s.now)
    { s with dock.session := { s.dock.session with
      state := .stalled
      pauseSince := none } }) s

/-- UPLOAD_CLOSE (R181). -/
def execUploadClose (s : State) : Answer := act (onFrame Config.dockSlot deliverUploadClose) s

/-- ERASE_UPLOADED (R182). -/
def execEraseUploaded (s : State) : Answer := act (onFrame Config.dockSlot deliverEraseUploaded) s

/-- CLEAR_FINDINGS (R183). -/
def execClearFindings (s : State) : Answer := act (onFrame Config.dockSlot deliverClearFindings) s

/-- PLAN_BEGIN (R184). -/
def execPlanBegin (identifier : BitVec 32) (recordCount segmentCount : BitVec 16) (s : State) : Answer :=
  act (onFrame Config.dockSlot (deliverPlanBegin identifier recordCount segmentCount)) s

/-- PLAN_DATA (R185). -/
def execPlanData (index : BitVec 16) (record : List Byte) (s : State) : Answer :=
  act (onFrame Config.dockSlot (deliverPlanData index record)) s

/-- PLAN_END (R186). -/
def execPlanEnd (s : State) : Answer := act (onFrame Config.dockSlot deliverPlanEnd) s

/-- SETTING_WRITE (R190). -/
def execSettingWrite (offset : Byte) (data : List Byte) (s : State) : Answer :=
  act (onFrame Config.dockSlot (deliverSettingWrite offset data)) s

/-- SETTING_SAVE (R191). -/
def execSettingSave (s : State) : Answer := act (onFrame Config.dockSlot deliverSettingSave) s

/-- SAVE_COMPLETION (R191). -/
def execSaveCompletion (ok : Bool) (s : State) : Answer :=
  act (fun s => match s.startup.save with
    | some job => some (saveEnds job ok s)
    | none => none) s

/-- DOCK_CLEAR_CONDITIONS (R193). -/
def execDockClearConditions (s : State) : Answer := act (onFrame Config.dockSlot deliverDockClear) s

end Sys2Proof.Machine
end

