-- ==== Sys2Proof/Machine/Peers.lean ====
section
/-!
DEFINITION. The peers' frames and the timers over them: PRESENCE, PRESENCE_TIMER_EXPIRY, ABSENCE_EXPIRY, PRESUMPTION_EXPIRY, HELD,
RELAY, HANDOVER, RELAY_WAIT_EXPIRY (chapters 3 and 7).
-/

namespace Sys2Proof.Machine

/-! ## HELD (R132, R133) -/

/-- A pair enters the held memory (R133). -/
def enterHeld (p : HeldPair) (l : List HeldPair) : List HeldPair :=
  if l.contains p then l else (if Config.heldMemoryCapacity ≤ l.length then l.drop 1 else l) ++ [p]

/-- A HELD delivered (R132): relay list, HELD pending list, held memory. A packet operation's question to the held memory comes before
it or after it (R79). -/
def deliverHeld (p : HeldPair) (s : State) : State :=
  let s := raceReading s
  let confirmed := s.relay.list.any fun e => e.packet.pair == p
  { s with relay := { s.relay with
    list := s.relay.list.filter fun e => e.packet.pair != p
    confirmed := if confirmed then countUp s.relay.confirmed else s.relay.confirmed
    heldPending := s.relay.heldPending.filter fun i => i.pair != p
    heldMemory := enterHeld p s.relay.heldMemory } }

/-! ## Relay intake queue (R128) -/

/-- A RELAY or HANDOVER delivered (R128). -/
def deliverRelayItem (i : RelayItem) (s : State) : State :=
  if !s.isRunning then { s with engine.relayOutOfRun := countUp s.engine.relayOutOfRun }
  else if s.engine.relayQueue.length < Config.relayIntakeCapacity then
    { s with engine.relayQueue := s.engine.relayQueue ++ [i] }
  else
    { s with
      engine.relayOverrun := countUp s.engine.relayOverrun
      startup.conds.intakeOverrun := true }

/-! ## Timers -/

/-- The presence timer has reached its next expiry (R38). -/
def State.presenceDue (s : State) : Bool :=
  match s.presence.timer with
  | some t => decide (Config.presencePeriod ≤ elapsed s.now (t - BitVec.ofNat 32 Config.presencePeriod))
  | none => false

/-- The presence timer expires (R38): the next expiry is 500 ms later, and a PRESENCE becomes pending unless one is. -/
def presenceExpires (s : State) : State :=
  let s := { s with presence.timer := s.presence.timer.map (· + BitVec.ofNat 32 Config.presencePeriod) }
  match s.presence.item with
  | some _ => s
  | none =>
    { s with
      presence.item := some s.nextTag
      nextTag := s.nextTag + 1 }

/-- 2,000 ms have passed since a slot's last-heard time (R42). -/
def State.absent (s : State) (slot : Nat) : Bool :=
  match s.presence.entry slot with
  | some v => decide (Config.absenceTime ≤ elapsed s.now v.lastHeard)
  | none => false

/-- A slot's presumption deadline has been reached (R41). -/
def State.presumptionOver (s : State) (slot : Nat) : Bool :=
  match s.presence.entry slot with
  | some v => match v.presumed with
    | some d => deadlineReached s.now d
    | none => false
  | none => false

/-- The presumption of a slot expires (R41). -/
def presumptionExpires (s : State) (slot : Nat) : State :=
  recompute { s with presence := s.presence.updateView slot fun v => { v with presumed := none } }

/-- The relay list entry of a pair (R121). -/
def Relay.ofPair (r : Relay) (p : HeldPair) : Option RelayEntry := r.list.find? fun e => e.packet.pair == p

/-- The wait of a pair's entry runs out (R125): nothing happens while its share is held back. -/
def relayWaitExpires (p : HeldPair) (s : State) : Option State :=
  match s.relay.ofPair p with
  | some e => onlyIf (e.waitOver s.now) (if s.shareState e.share = .notMine then expireWait s e else s)
  | none => none

/-! ## Meanings -/

/-- PRESENCE (R40, R41). -/
def execPresence (src : BitVec 4) (payload : PresencePayload) (s : State) : Answer :=
  act (onFrame src.toNat (fromPeer src.toNat fun s => deliverPresence s src.toNat payload)) s

/-- PRESENCE_TIMER_EXPIRY (R38). -/
def execPresenceTimerExpiry (s : State) : Answer :=
  act (fun s => onlyIf s.presenceDue (presenceExpires s)) s

/-- ABSENCE_EXPIRY (R42). -/
def execAbsenceExpiry (slot : BitVec 4) (s : State) : Answer :=
  act (fun s => onlyIf (s.absent slot.toNat) (recompute s)) s

/-- PRESUMPTION_EXPIRY (R41). -/
def execPresumptionExpiry (slot : BitVec 4) (s : State) : Answer :=
  act (fun s => onlyIf (s.presumptionOver slot.toNat) (presumptionExpires s slot.toNat)) s

/-- HELD (R132). -/
def execHeld (src : BitVec 4) (meterId : MeterId) (counter : BitVec 16) (s : State) : Answer :=
  act (onFrame src.toNat (fromPeer src.toNat (deliverHeld ⟨meterId, counter⟩))) s

/-- RELAY (R128). -/
def execRelay (src : BitVec 4) (payload : RelayPayload) (s : State) : Answer :=
  act (onFrame src.toNat (fromPeer src.toNat (deliverRelayItem (.relay src.toNat payload)))) s

/-- HANDOVER (R128). -/
def execHandover (src : BitVec 4) (payload : HandoverPayload) (s : State) : Answer :=
  act (onFrame src.toNat (fromPeer src.toNat (deliverRelayItem (.handover payload)))) s

/-- RELAY_WAIT_EXPIRY (R125). -/
def execRelayWaitExpiry (meterId : MeterId) (counter : BitVec 16) (s : State) : Answer :=
  act (relayWaitExpires ⟨meterId, counter⟩) s

end Sys2Proof.Machine
end

