-- ==== Sys2Proof/Machine/Bus.lean ====
section
/-!
DEFINITION. The rack line: SEARCHING_COMPLETE, RECEIVE_ERROR, RACK_FRAME_OTHER, DUPLICATE_FRAME, FRAME_SENT, ARBITRATION_LOSS,
TRANSMIT_ERROR (chapter 2).
-/

namespace Sys2Proof.Machine

/-- SEARCHING_COMPLETE (R20). -/
def execSearchingComplete (s : State) : Answer :=
  act (fun s => onlyIf (s.rack.rx == .searching) { s with rack.rx := .idle }) s

/-- RECEIVE_ERROR (R20, R21, R29). -/
def execReceiveError (bits : List Bool) (s : State) : Answer := act (receiveFault (judgeBits bits)) s

/-- The delivery of a frame that is a command row's (R25). -/
def deliverCommand (c : Instr) : State → State :=
  match c with
  | .runOpen run day => deliverOpen run day
  | .runClose run _ => deliverClose run
  | .position valid segment => deliverPosition valid segment
  | .presence src payload => fun s => deliverPresence s src.toNat payload
  | .held _ m c => deliverHeld ⟨m, c⟩
  | .relay src payload => deliverRelayItem (.relay src.toNat payload)
  | .handover _ payload => deliverRelayItem (.handover payload)
  | .listRevisit start => deliverRevisit start
  | .queryClearConditions => clearConditions
  | .uploadOpen start => deliverUploadOpen start
  | .uploadMark m => deliverUploadMark m
  | .uploadClose => deliverUploadClose
  | .eraseUploaded => deliverEraseUploaded
  | .clearFindings => deliverClearFindings
  | .planBegin ident count segments => deliverPlanBegin ident count segments
  | .planData index record => deliverPlanData index record
  | .planEnd => deliverPlanEnd
  | .settingWrite offset data => deliverSettingWrite offset data
  | .settingSave => deliverSettingSave
  | .dockClearConditions => deliverDockClear
  | _ => id

/-- What the receive filter's reading of a frame does (R25, R138, R174). -/
def deliverReading (r : Reading) (s : State) : State :=
  match r with
  | .setAside => s
  | .formatError => { s with rack.rxFormat := countUp s.rack.rxFormat }
  | .runReject => rejectRun s
  | .dockReject => { s with dock.rejects := countUp s.dock.rejects }
  | .delivered c => deliverCommand c s

/-- RACK_FRAME_OTHER (R22, R25, R26). -/
def execRackFrameOther (frame : RackFrame) (s : State) : Answer :=
  act (fun s => onFrame frame.src.toNat (deliverReading (readFrame s.slot frame)) s) s

/-- DUPLICATE_FRAME (R23). -/
def execDuplicateFrame (s : State) : Answer :=
  act (fun s => onlyIf s.follows (duplicateFrame s)) s

/-- An event of the frame this station is sending. -/
def whileSending (effect : State → Sending → State) (s : State) : Option State :=
  match s.rack.sending with
  | some x => some (effect s x)
  | none => none

/-- FRAME_SENT (R31, R33). -/
def execFrameSent (s : State) : Answer := act (whileSending frameSent) s

/-- Arbitration is lost, or another station's start bit came before the frame offered could begin: the station goes on as a receiver, and
its item stays pending (R27, R28; log 10). -/
def arbitrationLost (s : State) (_ : Sending) : State := receiveTo s .frame

/-- ARBITRATION_LOSS (R27, R28). -/
def execArbitrationLoss (s : State) : Answer := act (whileSending arbitrationLost) s

/-- TRANSMIT_ERROR (R29, R30). -/
def execTransmitError (s : State) (atStart : Bool := false) : Answer := act (whileSending (transmitError atStart)) s

end Sys2Proof.Machine
end

