-- ==== Sys2Proof/Machine/FlashEnds.lean ====
section
/-!
DEFINITION. What the flash completes, and the page buffer's timer: PAGE_BUFFER_TIMEOUT, PAGE_PROGRAM, SECTOR_OPENING,
HEADER_MARK_PROGRAM, SECTOR_ERASE, PLAN_SECTOR_ERASE, PLAN_RECORD_PROGRAM, PLAN_HEADER_PROGRAM (chapters 9 and 10).
-/

namespace Sys2Proof.Machine

/-! ## Disposal (R165) -/

/-- The entry a removed FIRST READ goes back to (R165). -/
def State.entryOfRecord (s : State) (b : Buffered) : Option Entry :=
  if b.body.kind = .firstRead then
    match s.engine.lookup b.body.meterId with
    | some e => if (e.status = .read ∨ e.status = .late) ∧ e.firstRead = some b.number then some e else none
    | none => none
  else none

/-- A record removed from its buffer: a FIRST READ goes back to its entry, any other is dropped and counted (R165). -/
def disposeRemoved (s : State) (b : Buffered) : State :=
  match s.entryOfRecord b with
  | some e => { s with engine := s.engine.replaceEntry e { e with firstRead := none, kept := some b.body } }
  | none => s.countDropped

/-- After a fault: the buffers are split anew, records without a place are disposed of, the program is requested again (R164, R165). -/
def afterFault (s : State) : State :=
  let split := s.store.resplit
  let s := split.2.foldl disposeRemoved { s with store := split.1 }
  { s with store := s.store.reprogram }

/-! ## Programs of the log -/

/-- A use of free values is counted (log 7). -/
def useFree (s : State) : State := { s with freeIndex := s.freeIndex + 1 }

/-- The page program ends (R162, R164). -/
def pageProgramEnds (ok : Bool) (s : State) : Option State :=
  match s.store.serving, s.store.head with
  | some .logPage, some (sector, slot) =>
    let t := { s with store.serving := none }
    some (checkFlush (State.noteFull
      (if ok then { t with store := (t.store.pageVerified sector slot).refill t.now }
      else afterFault (useFree { t.countFault with store := t.countFault.store.pageAbandoned t.freeIndex sector slot }))))
  | _, _ => none

/-- PAGE_PROGRAM (R162, R164, R165). -/
def execPageProgram (ok : Bool) (s : State) : Answer := actProgram (pageProgramEnds ok) s

/-- The opening's program ends (R162, R164); a number that waited for it is asked for again (R169). -/
def openingEnds (ok : Bool) (s : State) : Option State :=
  match s.store.serving, s.store.opening with
  | some .opening, some o =>
    let t := { s with store.serving := none }
    some (numberAfterOpening (checkFlush (State.noteFull
      (if ok then { t with store := t.store.opened o }
      else afterFault (useFree { t.countFault with store := t.countFault.store.openingFailed t.freeIndex o })))))
  | _, _ => none

/-- SECTOR_OPENING (R162, R164). -/
def execSectorOpening (ok : Bool) (s : State) : Answer := actProgram (openingEnds ok) s

/-- The bytes of a program that has ended: written, or left between old and intended values (R154; log 7). -/
def programFlash (ok : Bool) (a : Nat) (bs : List Byte) (s : State) : State :=
  if ok then { s with store.flash := s.store.flash.program a bs }
  else useFree { s.countFault with store.flash := s.store.flash.tornProgram s.freeIndex a bs }

/-- The effect of a header-mark program beside its bytes (R156, R164, R168, R169, R178). -/
def markEnds (m : MarkReq) (ok : Bool) (s : State) : State :=
  match m with
  | .full _ | .retired _ => s
  | .uploaded n =>
    if ok then
      { s with store := s.store.updateRow n fun r => { r with state := if r.state = .full then .uploaded else r.state } }
    else s
  | .eraseBegun n => { s with store := s.store.eraseBegun n }
  | .reserve _ _ bound => reserveEnded s bound ok

/-- The header-mark program in progress ends. -/
def headerMarkEnds (ok : Bool) (s : State) : Option State :=
  match s.store.serving with
  | some (.mark m) =>
    some (markEnds m ok (programFlash ok (slotAddress m.sector 0 + m.offset) m.pattern { s with store.serving := none }))
  | _ => none

/-- HEADER_MARK_PROGRAM (R156, R164, R168, R169, R178). -/
def execHeaderMarkProgram (ok : Bool) (s : State) : Answer := actProgram (headerMarkEnds ok) s

/-! ## Erases (R167, R168, R184) -/

/-- The erase in progress has spent its 40 ms and is not suspended (R154, R167); of a log sector, or of a plan sector. -/
def State.eraseDue (s : State) (plan : Bool) : Option Nat :=
  match s.store.erase with
  | some e =>
    if s.store.serving = none ∧ Config.eraseTime ≤ e.spent ∧ plan = decide (e.sector < Config.firstLogSector) then some e.sector
    else none
  | none => none

/-- SECTOR_ERASE (R168). -/
def execSectorErase (s : State) : Answer :=
  match s.startup.powered, s.eraseDue false with
  | true, some n =>
    atFlash (slotAddress n 0) Config.sectorBytes (act (fun s => some { s with store := s.store.sectorErased n }) s)
  | _, _ => .next s

/-- A plan sector has been erased (R184 steps 4 and 5): the next one, or LOADING-DATA and PLAN STATUS (ready). -/
def planSectorErased (n : Nat) (s : State) : State :=
  let s := { s with
    store.flash := s.store.flash.erase (slotAddress n 0) Config.sectorBytes
    store.erase := none
    store.planErase := if n + 1 < Config.firstLogSector then some (n + 1) else none }
  if n + 1 < Config.firstLogSector then s
  else
    let s := setRunState { s with dock.load.phase := .receiving } .loadingData
    replyWith s 6 .done (bytesOf 2 s.dock.load.count ++ bytesOf 2 s.dock.load.segments)

/-- PLAN_SECTOR_ERASE (R184). -/
def execPlanSectorErase (s : State) : Answer :=
  match s.startup.powered, s.eraseDue true with
  | true, some n => atFlash (slotAddress n 0) Config.sectorBytes (act (fun s => some (planSectorErased n s)) s)
  | _, _ => .next s

/-! ## Programs of the plan (R185, R186) -/

/-- The plan record's program ends: one that fails counts its index as bad (R185). -/
def planRecordEnds (ok : Bool) (s : State) : Option State :=
  match s.store.serving with
  | some (.planRecord i bs) =>
    let t := programFlash ok (planSlotAddress i) bs { s with store.serving := none }
    some (planEndIfDrained (if ok then t else { t with dock.load.bad := t.dock.load.bad ++ [i] }))
  | _ => none

/-- PLAN_RECORD_PROGRAM (R185). -/
def execPlanRecordProgram (ok : Bool) (s : State) : Answer := actProgram (planRecordEnds ok) s

/-- The plan that the header program makes VALID (R186). -/
def PlanLoad.plan (l : PlanLoad) : Plan := ⟨l.ident, l.count, l.segments⟩

/-- The plan header's program ends: VALID and the own-share build, or BLANK (R186, R61). -/
def planHeaderEnds (ok : Bool) (s : State) : Option State :=
  match s.store.serving with
  | some .planHeader =>
    let t := programFlash ok planHeaderOffset (planHeaderBytes s.dock.load.plan) { s with store.serving := none }
    some (if ok then requestStation { t with engine.plan := some s.dock.load.plan } .ownBuild else planFails t 2)
  | _ => none

/-- PLAN_HEADER_PROGRAM (R186). -/
def execPlanHeaderProgram (ok : Bool) (s : State) : Answer := actProgram (planHeaderEnds ok) s

/-! ## The page buffer's timer (R161) -/

/-- 500 ms have passed since the oldest record of a FILLING page buffer entered (R161). -/
def Store.pageDue (st : Store) (now : Time) : Bool :=
  !st.programming && (match st.pageBuf with
    | b :: _ => decide (Config.pageBufferTime ≤ elapsed now b.entered)
    | [] => false)

/-- PAGE_BUFFER_TIMEOUT (R161). -/
def execPageBufferTimeout (s : State) : Answer :=
  act (fun s => onlyIf (s.store.pageDue s.now) { s with store := s.store.startProgram }) s

end Sys2Proof.Machine
end

