-- ==== Sys2Proof/Machine/Intake.lean ====
section
/-!
DEFINITION. The intake line: INTAKE_CHARACTER, GAP_EXPIRY, LINE_RETURN_HIGH (chapter 1).
-/

namespace Sys2Proof.Machine

/-- INTAKE_CHARACTER (R2 to R4). After a framing error no character begins before the line is high again. -/
def execIntakeCharacter (data : Byte) (parity stop : Bool) (s : State) : Answer :=
  if s.startup.powered && !s.radio.awaitHigh then .next { s with radio := s.radio.character data parity stop } else .next s

/-- GAP_EXPIRY (R3 to R10). It cannot come while the gap timer does not run. -/
def execGapExpiry (s : State) : Answer :=
  act (fun s => onlyIf (s.radio.gapRunning && !s.radio.awaitHigh && s.radio.line != .idle) (gapExpires s)) s

/-- LINE_RETURN_HIGH (R2, R3). -/
def execLineReturnHigh (s : State) : Answer :=
  if s.startup.powered && s.radio.awaitHigh then .next { s with radio := s.radio.lineHigh } else .next s

end Sys2Proof.Machine
end

