-- ==== Sys2Proof/Machine/Operations.lean ====
section
/-!
DEFINITION. The ends of engine operations: PACKET_OPERATION, RELEASE, CLOSE_RELEASE, CLOSURE_MARKING, RUN_RESET, REBUILD_READ,
FINDINGS_CLEAR, ROUTE_TABLE_EMPTYING, KEPT_RECORD_RELEASE, PLAN_READ (chapters 3 to 6, 8).
-/

namespace Sys2Proof.Machine

/-- The packet operation in progress ends (R75, R97). A reading not yet taken is taken now (log 26). -/
def packetEnds (s : State) : Option State :=
  match s.engine.op with
  | .packet item reading => some (endOperation (finishPacket s item (reading.getD (s.readingOf item))))
  | _ => none

/-- PACKET_OPERATION (R78 to R97). -/
def execPacketOperation (s : State) : Answer := act packetEnds s

/-- RELEASE (R53). -/
def execRelease (s : State) : Answer :=
  act (fun s => match s.engine.op with
    | .release share => some (releaseEnds s share)
    | _ => none) s

/-- CLOSE_RELEASE (R143). -/
def execCloseRelease (s : State) : Answer :=
  act (fun s => match s.engine.op with
    | .closeRelease => some (closeReleaseEnds s)
    | _ => none) s

/-- CLOSURE_MARKING (R147, R148). -/
def execClosureMarking (s : State) : Answer :=
  act (fun s => match s.engine.op with
    | .closure segment => some (closureEnds s segment)
    | _ => none) s

/-- The run reset in progress ends (R71): of a new run (R139), or of a resume, whose rebuild scan follows while the station is
REBUILDING (R140, R142). -/
def runResetEnds (s : State) : Option State :=
  match s.engine.op with
  | .runReset => some (newRunBegins (resetTable s))
  | .resumeReset mark =>
    let t := resetTable s
    some (if t.engine.runState = some .rebuilding then rebuildBegins t mark else endOperation t)
  | _ => none

/-- RUN_RESET (R71, R139, R140). -/
def execRunReset (s : State) : Answer := act runResetEnds s

/-- A log read of the rebuild scan ends; one whose reader has gone only frees the flash (R141, R142). -/
def logReadEnds (s : State) : Option State :=
  let t := { s with store.serving := none }
  match s.store.serving, s.engine.op with
  | some (.rebuildRead true), .rebuild pos last => some (rebuildReadEnds t pos last)
  | some (.rebuildRead _), _ => some t
  | _, _ => none

/-- REBUILD_READ (R141). -/
def execRebuildRead (s : State) : Answer := act logReadEnds s

/-- FINDINGS_CLEAR (R117, R118). -/
def execFindingsClear (s : State) : Answer :=
  act (fun s => onlyIf (s.engine.op == .findingsClear) (findingsClearEnds s)) s

/-- ROUTE_TABLE_EMPTYING (R72). -/
def execRouteTableEmptying (s : State) : Answer :=
  act (fun s => onlyIf (s.engine.op == .emptying) (emptyingEnds s)) s

/-- KEPT_RECORD_RELEASE (R178). -/
def execKeptRecordRelease (s : State) : Answer :=
  act (fun s => match s.engine.op with
    | .keptRelease m n => some (keptReleaseEnds s m n)
    | _ => none) s

/-- A plan read ends; one whose reader has gone only frees the flash (R62, R52). -/
def slotReadEnds (s : State) : Option State :=
  let t := { s with store.serving := none }
  match s.store.serving with
  | some (.planRead true) => some (planReadEnds t (s.store.planBytes s.planReadIndex))
  | some (.planRead false) => some t
  | _ => none

/-- PLAN_READ (R62). -/
def execPlanRead (s : State) : Answer :=
  if s.startup.powered && s.store.serving == some (.planRead true) then
    atFlash (planSlotAddress s.planReadIndex) Config.slotBytes (act slotReadEnds s)
  else act slotReadEnds s

end Sys2Proof.Machine
end

