-- ==== Sys2Proof/Machine/StartUp.lean ====
section
/-!
DEFINITION. START_UP family: START, POWER_LOSS, CONFIG_READ, CONFIG_ANSWER_TIMEOUT, START_UP_SCAN (chapter 11, R154, R170).
-/

namespace Sys2Proof.Machine

/-! ## Loss of power (R154, R188, R191) -/

/-- A program in progress is cut off (R154; log 7). -/
def cutProgram (s : State) : State :=
  match s.programTarget with
  | some (a, bs) => { s with store.flash := s.store.flash.tornProgram s.freeIndex a bs }
  | none => s

/-- An erase in progress, suspended or not, is cut off (R154; log 7). -/
def cutErase (s : State) : State :=
  match s.store.erase with
  | some e =>
    { s with store.flash := s.store.flash.tornErase (s.freeIndex + 1) (slotAddress e.sector 0) Config.sectorBytes }
  | none => s

/-- A save in progress is cut off (R191; log 8). -/
def cutSave (s : State) : State :=
  match s.startup.save with
  | some _ => { s with startup.cfg := s.startup.cfg.tornWrite (s.freeIndex + 2) 0 savedImageBytes }
  | none => s

/-- What a loss of power leaves in flash and configuration memory (R154, R191). -/
def cutOff (s : State) : State :=
  let s := cutSave (cutErase (cutProgram s))
  { s with freeIndex := s.freeIndex + 3 }

/-- RAM state is lost; flash, configuration memory and the queue of commands stay (R188). -/
def restart (powered : Bool) (straps : BitVec 3) (s : State) : State :=
  State.afterStart powered straps s.store.flash s.startup.cfg s.freeIndex s.pending

/-- The addresses and lengths of the program and the erase in progress. -/
def State.flashTargets (s : State) : List (Nat × Nat) :=
  (s.programTarget.map fun x => (x.1, x.2.length)).toList
    ++ (s.store.erase.map fun e => (slotAddress e.sector 0, Config.sectorBytes)).toList

/-- A restart of a powered station cuts off what is in progress; outside the array it faults (R154). -/
def restartPowered (powered : Bool) (straps : BitVec 3) (s : State) : Answer :=
  if s.flashTargets.all fun x => inFlash x.1 x.2 then .next (restart powered straps (cutOff s)) else .fault .flashAddress

/-- START (R188): power-on or the rising edge of RESET; step 1 reads the straps. While powered it acts as a loss of power and then a
start (log 32). -/
def execStart (straps : BitVec 3) (s : State) : Answer :=
  if s.startup.powered then restartPowered true straps s else .next (restart true straps s)

/-- POWER_LOSS (R154, R188). -/
def execPowerLoss (s : State) : Answer :=
  if s.startup.powered then restartPowered false s.startup.straps s else .next s

/-! ## Step 2 (R189) -/

/-- The settings in use are formed from an image and handed to their blocks; step 3 follows (R189, R188). -/
def takeImage (image : List Byte) (defaulted : Bool) (s : State) : State :=
  let st := settingsOf image
  let s := { s with
    startup.image := image
    startup.settings := st
    startup.conds.configDefaulted := s.startup.conds.configDefaulted || defaulted
    startup.step := .scan
    presence.shares := sharesAfterStart s.slot st.collectors
    presence.adoptQueue := [] }
  remap s

/-- The 98 bytes that the configuration memory answers with (R189). -/
def State.configBytes (s : State) : List Byte := s.startup.cfg.readBytes 0 savedImageBytes

/-- The image of step 2 where the memory answers (R189). -/
def configAnswered (s : State) : State :=
  match acceptedImage s.configBytes with
  | some image => takeImage image false s
  | none => takeImage defaultImage true s

/-- CONFIG_READ (R189). -/
def execConfigRead (s : State) : Answer :=
  act (fun s => onlyIf (s.startup.step == .config) (configAnswered s)) s

/-- The configuration memory has not answered within 2 ms of the read command, which step 2 gives at station time 0 (R189; log 1). -/
def State.answerOverdue (s : State) : Bool := s.startup.step == .config && decide (Config.answerTime ≤ elapsed s.now 0)

/-- CONFIG_ANSWER_TIMEOUT (R189). -/
def execConfigAnswerTimeout (s : State) : Answer :=
  act (fun s => onlyIf s.answerOverdue (takeImage defaultImage true s)) s

/-! ## Step 3 (R170 to R173) -/

/-- The scan has ended: every recovered value is in place, and the plan check is requested (R172, R61, R188). -/
def scanEnds (s : State) : State :=
  requestStation
    { s with
      store := s.store.scan.1
      engine.interrupted := s.store.scan.2
      startup.step := .planCheck } .planCheck

/-- START_UP_SCAN (R170 to R172). -/
def execStartUpScan (s : State) : Answer :=
  act (fun s => onlyIf (s.startup.step == .scan) (scanEnds s)) s

end Sys2Proof.Machine
end

