-- ==== Sys2Proof/Machine/Dispatch.lean ====
section
/-!
DEFINITION. One arm for each command: its meaning.
-/

namespace Sys2Proof.Machine

/-- The effect of a command on everything but the queue. -/
def exec (i : Instr) (s : State) : Host.Outcome State Fault Refusal :=
  match i with
  | .start straps => Sys2Proof.Machine.execStart straps s
  | .powerLoss => Sys2Proof.Machine.execPowerLoss s
  | .configRead => Sys2Proof.Machine.execConfigRead s
  | .configAnswerTimeout => Sys2Proof.Machine.execConfigAnswerTimeout s
  | .startUpScan => Sys2Proof.Machine.execStartUpScan s
  | .intakeCharacter data parity stop => Sys2Proof.Machine.execIntakeCharacter data parity stop s
  | .gapExpiry => Sys2Proof.Machine.execGapExpiry s
  | .searchingComplete => Sys2Proof.Machine.execSearchingComplete s
  | .receiveError bits => Sys2Proof.Machine.execReceiveError bits s
  | .rackFrameOther frame => Sys2Proof.Machine.execRackFrameOther frame s
  | .duplicateFrame => Sys2Proof.Machine.execDuplicateFrame s
  | .frameSent => Sys2Proof.Machine.execFrameSent s
  | .arbitrationLoss => Sys2Proof.Machine.execArbitrationLoss s
  | .transmitError atStart => Sys2Proof.Machine.execTransmitError s atStart
  | .runOpen run day => Sys2Proof.Machine.execRunOpen run day s
  | .runClose run day => Sys2Proof.Machine.execRunClose run day s
  | .position valid segment => Sys2Proof.Machine.execPosition valid segment s
  | .positionWatchdogExpiry => Sys2Proof.Machine.execPositionWatchdogExpiry s
  | .presence src payload => Sys2Proof.Machine.execPresence src payload s
  | .presenceTimerExpiry => Sys2Proof.Machine.execPresenceTimerExpiry s
  | .absenceExpiry slot => Sys2Proof.Machine.execAbsenceExpiry slot s
  | .presumptionExpiry slot => Sys2Proof.Machine.execPresumptionExpiry slot s
  | .packetOperation => Sys2Proof.Machine.execPacketOperation s
  | .pageBufferTimeout => Sys2Proof.Machine.execPageBufferTimeout s
  | .release => Sys2Proof.Machine.execRelease s
  | .closeRelease => Sys2Proof.Machine.execCloseRelease s
  | .closureMarking => Sys2Proof.Machine.execClosureMarking s
  | .runReset => Sys2Proof.Machine.execRunReset s
  | .rebuildRead => Sys2Proof.Machine.execRebuildRead s
  | .findingsClear => Sys2Proof.Machine.execFindingsClear s
  | .routeTableEmptying => Sys2Proof.Machine.execRouteTableEmptying s
  | .keptRecordRelease => Sys2Proof.Machine.execKeptRecordRelease s
  | .planRead => Sys2Proof.Machine.execPlanRead s
  | .held src meterId counter => Sys2Proof.Machine.execHeld src meterId counter s
  | .relay src payload => Sys2Proof.Machine.execRelay src payload s
  | .handover src payload => Sys2Proof.Machine.execHandover src payload s
  | .relayWaitExpiry meterId counter => Sys2Proof.Machine.execRelayWaitExpiry meterId counter s
  | .listRevisit startIndex => Sys2Proof.Machine.execListRevisit startIndex s
  | .queryClearConditions => Sys2Proof.Machine.execQueryClearConditions s
  | .uploadOpen startNumber => Sys2Proof.Machine.execUploadOpen startNumber s
  | .uploadRead => Sys2Proof.Machine.execUploadRead s
  | .uploadMark m => Sys2Proof.Machine.execUploadMark m s
  | .uploadPauseTimeout => Sys2Proof.Machine.execUploadPauseTimeout s
  | .uploadClose => Sys2Proof.Machine.execUploadClose s
  | .eraseUploaded => Sys2Proof.Machine.execEraseUploaded s
  | .clearFindings => Sys2Proof.Machine.execClearFindings s
  | .planBegin identifier recordCount segmentCount => Sys2Proof.Machine.execPlanBegin identifier recordCount segmentCount s
  | .planData index record => Sys2Proof.Machine.execPlanData index record s
  | .planEnd => Sys2Proof.Machine.execPlanEnd s
  | .settingWrite offset data => Sys2Proof.Machine.execSettingWrite offset data s
  | .settingSave => Sys2Proof.Machine.execSettingSave s
  | .saveCompletion ok => Sys2Proof.Machine.execSaveCompletion ok s
  | .dockClearConditions => Sys2Proof.Machine.execDockClearConditions s
  | .pageProgram ok => Sys2Proof.Machine.execPageProgram ok s
  | .sectorOpening ok => Sys2Proof.Machine.execSectorOpening ok s
  | .headerMarkProgram ok => Sys2Proof.Machine.execHeaderMarkProgram ok s
  | .sectorErase => Sys2Proof.Machine.execSectorErase s
  | .planSectorErase => Sys2Proof.Machine.execPlanSectorErase s
  | .planRecordProgram ok => Sys2Proof.Machine.execPlanRecordProgram ok s
  | .planHeaderProgram ok => Sys2Proof.Machine.execPlanHeaderProgram ok s
  | .lineReturnHigh => Sys2Proof.Machine.execLineReturnHigh s

end Sys2Proof.Machine
end

