-- ==== Sys2Proof/Safety.lean ====
section
/-!
DEFINITION. What a safe state is, in the terms statements use: the canonical memories, the ranges of the counters, the capacities of
the queues and lists, the laws of the run state, the score, the tracker's figures and the query that waits; and the conditions under which a command has its effect.
-/

namespace Sys2Proof.Machine

/-! ## Conditions of a command -/

/-- A frame from `src`, another station, is received and delivered (R22, R25, R26). -/
def Hears (s : State) (src : Nat) : Prop :=
  s.startup.powered = true ∧ s.follows = true ∧ s.isUp = true ∧ src ≠ s.slot

/-- The state after the reports of a valid frame from a station that is no collector (R22): the receiver is IDLE unless a frame of this
station's own is on the bus, which stays there (R31; log 10). -/
def State.received (s : State) : State :=
  { s with
    rack := s.rack.afterFrame
    startup.conds.fresh := false }

/-- The slot that a command's frame comes from (R24); absent for a command that is no frame from another station. -/
def frameSource : Instr → Option Nat
  | .rackFrameOther f => some f.src.toNat
  | .runOpen _ _ | .runClose _ _ | .listRevisit _ | .queryClearConditions => some 10
  | .position _ _ => some 9
  | .presence src _ | .held src _ _ | .relay src _ | .handover src _ => some src.toNat
  | .uploadOpen _ | .uploadMark _ | .uploadClose | .eraseUploaded | .clearFindings | .planBegin _ _ _ | .planData _ _ | .planEnd
  | .settingWrite _ _ | .settingSave | .dockClearConditions => some 11
  | _ => none

/-- The column of the table of R175 that judges a DOCK operation, and the code its replies echo (R174); absent for any other command. -/
def dockColumn : Instr → Option (DockColumn × Byte)
  | .uploadOpen _ => some (.general, 1)
  | .uploadMark _ => some (.general, 2)
  | .uploadClose => some (.general, 3)
  | .eraseUploaded => some (.general, 4)
  | .clearFindings => some (.general, 5)
  | .planBegin _ _ _ => some (.general, 6)
  | .planData _ _ => some (.planData, 7)
  | .planEnd => some (.planEnd, 8)
  | .settingWrite _ _ => some (.settings, 9)
  | .settingSave => some (.settings, 10)
  | .dockClearConditions => some (.settings, 11)
  | _ => none

/-- The program, the erase and the plan read in progress lie inside the flash array (R154). -/
def FlashInside (s : State) : Prop :=
  (∀ x ∈ s.flashTargets, inFlash x.1 x.2 = true) ∧ inFlash (planSlotAddress s.planReadIndex) Config.slotBytes = true

/-- Nothing waits for the engine's choice: it is busy, or it is IDLE with no request, load or packet to take (R76). -/
def EngineSettled (s : State) : Prop := engineChoose s = s

/-! ## Memory (R154, R189) -/

/-- Flash and configuration memory are in canonical form. -/
def MemoryCanonical (s : State) : Prop := s.store.flash.wf = true ∧ s.startup.cfg.wf = true

/-! ## Counters (R194) -/

/-- The error counters of the nine blocks (R194): R14, R34, R55, R98, R115, R135, R138, R148, R173, R174. -/
def State.counters (s : State) : List Nat :=
  s.counters2 ++ s.counters3 ++ [s.store.dropped, s.store.faults]

/-- Every error counter is at most 65,535 (R194). -/
def CountersInRange (s : State) : Prop := ∀ n ∈ s.counters, n ≤ 65535

/-! ## Capacities -/

/-- The law of the adoption queue (R37, R44, R46): N shares, N at most 8, the own share OWN; the queue holds QUEUED shares, none twice,
and so at most seven. -/
structure AdoptionLaw (s : State) : Prop where
  count : s.presence.shares.length = s.settings.collectors
  countMax : s.settings.collectors ≤ 8
  own : s.isOwner = true → s.presence.shares[s.slot - 1]? = some .own
  queued : ∀ n ∈ s.presence.adoptQueue, 1 ≤ n ∧ s.presence.shares[n - 1]? = some .queued
  queueShares : s.presence.adoptQueue.Nodup
  queueLength : s.presence.adoptQueue.length ≤ 7

/-- The queues and lists are within their capacities, and those that hold nothing twice hold nothing twice
(R10, R46, R64, R114, R121, R128, R131, R133, R161, R168, R174, R185). The second page buffer (log 45) and the tally list, whose 512
places (R148) are a matter of a run's closures, are not among them. -/
structure WithinCapacity (s : State) : Prop where
  intake : s.radio.queue.length ≤ 16
  relayQueue : s.engine.relayQueue.length ≤ 8
  relayList : s.relay.list.length ≤ 32
  relayPairs : (s.relay.list.map (·.packet.pair)).Nodup
  heldMemory : s.relay.heldMemory.length ≤ 32
  heldPairs : s.relay.heldMemory.Nodup
  heldPending : s.relay.heldPending.length ≤ 16
  heldPendingPairs : (s.relay.heldPending.map (·.pair)).Nodup
  notices : s.engine.notices.length ≤ 64
  noticeMeters : (s.engine.notices.map (·.meterId)).Nodup
  replies : s.dock.replies.length ≤ 8
  table : s.engine.table.length ≤ 8192
  tableMeters : (s.engine.table.map (·.meterId)).Nodup
  adoption : AdoptionLaw s
  pageBuffer : s.store.pageBuf.length ≤ 8
  pageFilling : s.store.programming = false → s.store.pageBuf.length < 8
  writeQueue : s.dock.load.queue.length ≤ 64
  logSectors : ∀ r ∈ s.store.rows, 128 ≤ r.sector ∧ r.sector < 512
  eraseSectors : (s.store.eraseList.map (·.sector)).Nodup
  eraseRange : ∀ i ∈ s.store.eraseList, 128 ≤ i.sector ∧ i.sector < 512
  eraseList : s.store.eraseList.length ≤ 384

/-! ## The law of the run state (R137) -/

/-- The run states that a VALID plan alone allows (R137). -/
def RunState.needsPlan : RunState → Bool
  | .ready | .rebuilding | .running | .closing => true
  | .blank | .loadingErase | .loadingData => false

/-- The plan is VALID in READY, REBUILDING, RUNNING and CLOSING, and no share is QUEUED, LOADING or ADOPTED but in RUNNING (R137). -/
structure RunLaw (s : State) : Prop where
  plan : ∀ r, s.engine.runState = some r → r.needsPlan = true → s.engine.plan.isSome = true
  shares : s.isRunning = false → ∀ x ∈ s.presence.shares, x = .own ∨ x = .notMine
  count : s.presence.shares.length ≤ s.settings.collectors

/-! ## The law of the query that waits (R152) -/

/-- A QUERY LIST REVISIT waits only while the frame of a REVISIT reply is on the bus (R152). -/
def QueryLaw (s : State) : Prop := s.tracker.query.isSome = true → s.rack.sendsRevisit = true

/-! ## The law of the score (R111) -/

/-- Before step 2 has ended no command can fill the route table: it is empty, and nothing that fills it is under way or requested. -/
structure NothingBuilt (s : State) : Prop where
  table : s.engine.table = []
  op : s.engine.op.readsPlan = false
  noBuild : .ownBuild ∉ s.engine.requests
  noCheck : .planCheck ∉ s.engine.requests
  runState : ∀ r, s.engine.runState = some r → r.needsPlan = false
  check : s.dock.load.check = none
  phase : s.dock.load.phase ≠ .ending
  progs : .planHeader ∉ s.store.progs
  serving : s.store.serving ≠ some .planHeader

/-- Every route entry's score is the lesser of 255 and the sum of the weights of its ACTIVE detectors (R111). -/
structure ScoreLaw (s : State) : Prop where
  scores : ∀ e ∈ s.engine.table, e.score = scoreOf s.settings e.detectors
  starting : s.startup.step = .config → NothingBuilt s

/-! ## The law of the tracker's figures (R145, R151) -/

/-- The entries that the Route Tracker has been told of: all but those of a load in progress (R49, R145). -/
def State.reported (s : State) : List Entry :=
  match s.engine.op with
  | .load n _ => s.engine.table.filter (·.origin != .adopted n)
  | _ => s.engine.table

/-- The route table holds no meter twice; every row of the segment table has the counts of the entries of its segment; the revisit list
holds one item for each MISSED entry, by segment and then plan index (R64, R144, R145, R151). The last three fields say what the
operation in progress, the share states and the adoption queue have to do with it. -/
structure TrackerLaw (s : State) : Prop where
  capacity : s.engine.table.length ≤ 8192
  meters : (s.engine.table.map (·.meterId)).Nodup
  counts : ∀ r ∈ s.tracker.rows,
    r.expected = s.reported.countP (fun e => e.segment == r.segment && e.counted) ∧
    r.read = s.reported.countP (fun e => e.segment == r.segment && e.countsRead) ∧
    r.missed = s.reported.countP (fun e => e.segment == r.segment && e.countsMissed) ∧
    r.suspect = s.reported.countP (fun e => e.segment == r.segment && e.countsSuspect)
  revisit : s.tracker.revisit.Perm ((s.reported.filter (·.countsMissed)).map (·.revisitItem))
  revisitOrder : s.tracker.revisit.Pairwise (fun a b => b.before a = false)
  building : ∀ i, s.engine.op = .ownBuild i → s.tracker.rows = []
  loading : ∀ i, s.presence.shares[i]? = some .loading → ∃ j, s.engine.op = .load (i + 1) j
  queue : ∀ n ∈ s.presence.adoptQueue, 1 ≤ n

/-! ## Bit stuffing undone (R19) -/

/-- The bits after `prev`, which ends a run of `n` equal bits, without each bit that follows six equal ones (R19). -/
def unstuffAfter (prev : Bool) (n : Nat) : List Bool → List Bool
  | [] => []
  | b :: bs => if n = 6 then unstuffAfter b 1 bs else b :: unstuffAfter b (if b = prev then n + 1 else 1) bs

/-- A stuffed region without its stuff bits (R19). -/
def unstuffed : List Bool → List Bool
  | [] => []
  | b :: bs => b :: unstuffAfter b 1 bs

/-! ## The store's answer to an append (R160) -/

/-- An append is accepted (R160). -/
def Store.accepts (st : Store) : Bool :=
  st.hasRoom && (!st.programming || decide (st.second.length < 8))

/-- Of the store only what appends change has changed from `s` to `t`, and of the Start-up Controller only STORE_FULL (R160, R161). -/
def OnlyAppends (s t : State) : Prop :=
  t.store = { s.store with
    pageBuf := t.store.pageBuf
    second := t.store.second
    programming := t.store.programming
    progs := t.store.progs
    seqCounter := t.store.seqCounter
    lastGiven := t.store.lastGiven
    dropped := t.store.dropped } ∧
  t.startup = { s.startup with conds := { s.startup.conds with storeFull := t.startup.conds.storeFull } }

/-! ## The buffers after a fault (R164, R165) -/

/-- From `s`, before a failed program, to `t`, after it (R164, R165): the records held keep their order, the page buffer takes no more of
its own than the target, `gone` is what is beyond the places where no candidate is ERASED, and each record gone is disposed of in turn. A
page buffer that is left empty is FILLING (the model's choice, log 62), and one that is PROGRAMMING asks for its program again. -/
structure Resplit (s t : State) (gone : List Buffered) : Prop where
  order : t.store.pageBuf ++ t.store.second ++ gone = s.store.pageBuf ++ s.store.second
  removed : gone = if t.store.places < (s.store.pageBuf ++ s.store.second).length ∧ t.store.candidateErased = false then
    (s.store.pageBuf ++ s.store.second).drop t.store.places else []
  page : t.store.pageBuf.length =
    min s.store.pageBuf.length (min t.store.target (t.store.pageBuf ++ t.store.second).length)
  entries : t.engine = (gone.foldl disposeRemoved s).engine
  dropped : t.store.dropped = (gone.foldl disposeRemoved s).store.dropped
  emptied : t.store.pageBuf = [] → t.store.programming = false ∧ .logPage ∉ t.store.progs
  again : t.store.pageBuf ≠ [] → t.store.programming = s.store.programming ∧
    (s.store.programming = true → .logPage ∈ t.store.progs)

/-! ## What no settling changes -/

/-- The parts of the state that every command leaves alone but those made to change them. -/
structure Fixed where
  flash : Memory
  cfg : Memory
  powered : Bool
  straps : BitVec 3
  now : Time
  settings : Settings
  image : List Byte
  uploadMark : Nat
  pending : List Instr
deriving DecidableEq, Repr

/-- The fixed parts of a state. -/
def State.fixed (s : State) : Fixed where
  flash := s.store.flash
  cfg := s.startup.cfg
  powered := s.startup.powered
  straps := s.startup.straps
  now := s.startup.now
  settings := s.startup.settings
  image := s.startup.image
  uploadMark := s.store.uploadMark
  pending := s.pending

end Sys2Proof.Machine
end

