-- ==== Sys2Proof/Certificates/Slice0/Obligations.lean ====
section
/-!
DEFINITION. The statements for the provers: one proposition `Obligations.<Name>` each. The docstring of each says which sentences of
spec/ it formalises; where it rests on a choice of the model it names the log entry.
-/

open Sys2Proof Sys2Proof.Machine

/-! ## Arithmetic and encodings -/

/-- The CRC of the part (1.2): its register from byte to byte, its check value, the order of the appended bytes, the zero register
after a correct CRC, and the equal verdict of the two ways to check. -/
def Obligations.CrcRule : Prop :=
  crc16 [] = 0xFFFF ∧
  (∀ (bs : List Byte) (b : Byte), crc16 (bs ++ [b]) = crcShift^[8] (crc16 bs ^^^ (b.setWidth 16 <<< 8))) ∧
  (∀ r : BitVec 16, crcShift r = if r.getLsbD 15 then (r <<< 1) ^^^ 0x1021 else r <<< 1) ∧
  crc16 [0x31, 0x32, 0x33, 0x34, 0x35, 0x36, 0x37, 0x38, 0x39] = 0x29B1 ∧
  (∀ bs : List Byte, crcBytes bs = [(crc16 bs >>> 8).setWidth 8, (crc16 bs).setWidth 8]) ∧
  (∀ bs : List Byte, crc16 (bs ++ crcBytes bs) = 0) ∧
  (∀ (bs : List Byte) (hi lo : Byte), crc16 (bs ++ [hi, lo]) = 0 ↔ [hi, lo] = crcBytes bs) ∧
  (∀ (bs : List Byte) (n : Nat), bs.length = n + 2 → (crcGood bs 0 n = true ↔ crc16 bs = 0))

/-- The four kinds of packet and the result of COUNTER_REGRESS (R85); a regress is evaluated in every other stage like an advance; a
first packet takes no drive check; and the rule's two examples. -/
def Obligations.PacketKinds : Prop :=
  (∀ c, packetKind none c = .first) ∧
  (∀ (l : LastHeard) (c : BitVec 16),
    let g := (65536 + c.toNat - l.counter.toNat) % 65536
    packetKind (some l) c = if g = 0 then .repeated else if g ≤ 32767 then .advance else .regress) ∧
  (∀ (st : Settings) (day : BitVec 16) (e : Entry) (p : Packet),
    (packetResults st day e p).getD 4 none =
      match packetKind e.lastHeard p.counter with
      | .first | .repeated => none
      | .advance => some false
      | .regress => some true) ∧
  (∀ (st : Settings) (day : BitVec 16) (e : Entry) (p : Packet) (l : LastHeard) (c : BitVec 16) (i : Nat), i ≠ 4 →
    e.lastHeard = some l → packetKind (some l) p.counter = .advance → packetKind (some { l with counter := c }) p.counter = .regress →
    (packetResults st day { e with lastHeard := some { l with counter := c } } p)[i]? = (packetResults st day e p)[i]?) ∧
  (∀ (st : Settings) (e : Entry) (p : Packet), packetKind e.lastHeard p.counter = .first → driveReverse st e p = false) ∧
  packetKind (some ⟨65534, 0, 0⟩) 3 = .advance ∧ packetKind (some ⟨3, 0, 0⟩) 65534 = .regress

/-- The reverse window, the drive check and the billing check, and the result of REVERSE (R87, R88): the ranges of W and q, a drop of W
or less never a rollover, and the rate tests untouched by the drive check. -/
def Obligations.ReverseChecks : Prop :=
  ∀ (st : Settings) (day : BitVec 16) (e : Entry) (p : Packet),
    let w := reverseWindow st e
    let r := p.reading.toNat
    let kind := packetKind e.lastHeard p.counter
    let reverse := (packetResults st day e p).getD 1 none
    w = 10 ^ e.digits * st.reverseWindow / 10000 ∧
    (st.reverseWindow = 0 → w = 0) ∧
    (e.digits ≤ 9 → st.reverseWindow ≤ 500 → w ≤ 50000000) ∧
    (driveReverse st e p = true ↔
      ∃ l, e.lastHeard = some l ∧ (kind = .advance ∨ kind = .regress) ∧ r < l.reading.toNat ∧ l.reading.toNat - r ≤ w) ∧
    consumption st e p =
      (if e.billed ≤ r then some (r - e.billed) else if e.billed - r ≤ w then none else some (r + 10 ^ e.digits - e.billed)) ∧
    (e.billed < 10 ^ e.digits → rangePassed e p = true → ∀ q, consumption st e p = some q → q < 10 ^ e.digits) ∧
    reverse =
      (if kind = .repeated ∨ rangePassed e p = false then none
       else some (driveReverse st e p || (consumption st e p).isNone || p.flags.getLsbD 4)) ∧
    (∀ (l : LastHeard) (x : BitVec 32), e.lastHeard = some l → kind ≠ .repeated →
      let e' := { e with lastHeard := some { l with reading := x } }
      (packetResults st day e' p)[2]? = (packetResults st day e p)[2]? ∧ (packetResults st day e' p)[3]? = (packetResults st day e p)[3]?)

/-- The elapsed days and the rate band (R89, R90): when the two rate detectors are tested, the two tests, and their exact form in
per cent of e / 16 units a day. -/
def Obligations.RateBand : Prop :=
  ∀ (st : Settings) (day : BitVec 16) (e : Entry) (p : Packet),
    let t := day.toNat
    let d := if e.billedDay < t then min (t - e.billedDay) 4095 else 1
    let k := packetKind e.lastHeard p.counter
    let results := packetResults st day e p
    let h := (st.band e.band).high
    let l := (st.band e.band).low
    elapsedDays t e.billedDay = d ∧
    (k = .repeated ∨ rangePassed e p = false ∨ e.rate = 0 ∨ consumption st e p = none →
      results.getD 2 none = none ∧ results.getD 3 none = none) ∧
    (k ≠ .repeated → rangePassed e p = true → 0 < e.rate → ∀ q, consumption st e p = some q →
      results.getD 2 none = some (decide (q * 1600 > e.rate * d * h)) ∧
      results.getD 3 none = some (decide (q * 1600 < e.rate * d * l) || (decide (q = 0) && decide (st.zeroDays ≤ d))) ∧
      (results.getD 2 none = some true ↔ (q : ℚ) > (h : ℚ) / 100 * ((e.rate : ℚ) / 16) * (d : ℚ)) ∧
      (l = 0 → (results.getD 3 none = some true ↔ q = 0 ∧ st.zeroDays ≤ d)))

/-- The range check, the meter flags step and the results of a repeat (5.4): METER_SWAP, METER_FLAGS and CONFLICT, and all else not
tested on a repeat. -/
def Obligations.RangeFlagsAndRepeats : Prop :=
  ∀ (st : Settings) (day : BitVec 16) (e : Entry) (p : Packet),
    let results := packetResults st day e p
    results.length = 7 ∧
    (rangePassed e p = true ↔ p.digits.toNat = e.digits ∧ p.reading.toNat < 10 ^ e.digits) ∧
    (packetKind e.lastHeard p.counter ≠ .repeated →
      results.getD 6 none = some (!rangePassed e p) ∧
      results.getD 0 none = some (p.flags.getLsbD 7 || p.flags.getLsbD 6 || p.flags.getLsbD 5) ∧
      results.getD 5 none = none ∧
      (rangePassed e p = false → results.getD 1 none = none ∧ results.getD 2 none = none ∧ results.getD 3 none = none)) ∧
    (∀ l, e.lastHeard = some l → packetKind e.lastHeard p.counter = .repeated →
      results = [none, none, none, none, none, some (decide (p.reading ≠ l.reading)), none])

/-- A shown result in ACTIVE under LATCH or RELEASE, and a clean result in IDLE or PENDING under any disposition but OFF (R106, R107):
no raise, the counts and the states, and a release count that begins again from 0. Where METER_FLAGS is shown in ACTIVE by an alarm
bubble, its count is the greater of its debounce and one more than before, and at most 8 (R105). -/
def Obligations.DetectorWithoutRaise : Prop :=
  (∀ (ds : DetectorSetting) (d : Detector), (ds.disposition = .latch ∨ ds.disposition = .release) → d.state = .active →
    detectorStep ds false (some true) d = (⟨.active, min 8 (d.consecutive + 1), 0, some true⟩, false) ∧
    (ds.disposition = .release → 1 < ds.releaseCount →
      (detectorStep ds false (some false) (detectorStep ds false (some true) d).1).1.clean = 1) ∧
    detectorStep ds true (some true) d = (⟨.active, min 8 (max ds.debounce (d.consecutive + 1)), 0, some true⟩, false)) ∧
  (∀ (ds : DetectorSetting) (d : Detector) (jump : Bool), ds.disposition ≠ .off → (d.state = .idle ∨ d.state = .pending) → d.clean = 0 →
    detectorStep ds jump (some false) d = (⟨.idle, 0, 0, some false⟩, false) ∧
    (ds.disposition ≠ .note → 1 < ds.debounce →
      (detectorStep ds false (some true) (detectorStep ds jump (some false) d).1).1.consecutive = 1))

/-- The other transitions of a detector (6.2, 6.3): raises outside ACTIVE under LATCH, RELEASE and NOTE, the alarm-bubble count of
METER_FLAGS, the clean result in ACTIVE, a result not tested and a detector set OFF; and the law that a LATCH detector leaves ACTIVE on no
result. -/
def Obligations.DetectorRaises : Prop :=
  ∀ (ds : DetectorSetting) (d : Detector) (jump : Bool),
    let n := if jump then min 8 (max ds.debounce (d.consecutive + 1)) else d.consecutive + 1
    (d.state ≠ .active → (ds.disposition = .latch ∨ ds.disposition = .release) →
      detectorStep ds jump (some true) d =
        if n = ds.debounce then (⟨.active, n, 0, some true⟩, true) else (⟨.pending, n, 0, some true⟩, false)) ∧
    (d.state ≠ .active → ds.disposition = .note →
      detectorStep ds jump (some true) d =
        if n = ds.debounce then (⟨.idle, 0, 0, some true⟩, true) else (⟨.pending, n, 0, some true⟩, false)) ∧
    (jump = true → ds.debounce ≤ 8 → d.consecutive < ds.debounce → d.state ≠ .active → ds.disposition ≠ .off →
      (detectorStep ds jump (some true) d).2 = true) ∧
    (d.state = .active → ds.disposition = .latch →
      (detectorStep ds jump (some false) d).1 = ⟨.active, 0, 0, some false⟩ ∧ ∀ r, (detectorStep ds jump r d).1.state = .active) ∧
    (d.state = .active → ds.disposition = .release →
      (detectorStep ds jump (some false) d).1 =
        if d.clean + 1 = ds.releaseCount then ⟨.idle, 0, 0, some false⟩ else ⟨.active, 0, d.clean + 1, some false⟩) ∧
    detectorStep ds jump none d = (d, false) ∧
    (ds.disposition = .off → ∀ r, detectorStep ds jump r d = (d, false)) ∧
    (∀ r, r ≠ some true → (detectorStep ds jump r d).2 = false)

/-- The shares of the meters and their effective owners (3.1, 3.4): every meter falls in one of the shares 1 to N, with the table of 3.1;
the owner is this station for its own share, then a participating share slot, then the first slot in cyclic order after it that is this
station's own or participates. -/
def Obligations.SharesAndOwners : Prop :=
  (∀ (n : Nat) (m : MeterId), 0 < n → 1 ≤ shareOf n m ∧ shareOf n m ≤ n ∧ shareOf n m = (m.toNat % 65521) % n + 1) ∧
  shareOf 4 40000 = 1 ∧ shareOf 4 30114772 = 2 ∧ shareOf 4 65523 = 3 ∧ shareOf 4 70000 = 4 ∧
  (∀ (s : State) (n : Nat), 1 ≤ n → n ≤ 8 →
    let serves := fun m => m = s.slot ∨ s.participates m = true
    (n = s.slot → s.effectiveOwner n = s.slot) ∧
    (n ≠ s.slot → s.participates n = true → s.effectiveOwner n = n) ∧
    (¬ serves n → ∃ i, 1 ≤ i ∧ i ≤ 7 ∧ s.effectiveOwner n = (n - 1 + i) % 8 + 1 ∧ serves ((n - 1 + i) % 8 + 1) ∧
      ∀ j, 1 ≤ j → j < i → ¬ serves ((n - 1 + j) % 8 + 1)))

/-- The comparison table of a recomputation for one share (3.5), with the judgement of the held relay entries of a QUEUED or LOADING share
that is NOT MINE again (3.6): an entry whose 250 ms have run out is DUE after its first and second send, and self-stored and removed after
its third. Several self-stored at one instant follow the order of the relay list (the model's choice, log 52). A recomputation takes the
map of 3.4 and then compares every share, and leaves the view, the run state and the plan as they are. A packet operation that has not yet
read the share state reads it before the recomputation or after it, and which of the two is free (5.3; the model's reading, log 26). -/
def Obligations.RecomputationTable : Prop :=
  (∀ (s : State) (n : Nat),
    let mine := s.ownerOf n = s.slot ∧ s.isRunning = true
    let waited := s.relay.list.filter fun e =>
      decide (e.share = n ∧ e.phase = .waiting) && e.lastSend.any fun t => decide (250 ≤ (s.now - t).toNat)
    let records := (waited.filter fun e => decide (3 ≤ e.sends)).map fun e => unconfirmedRecord s e.packet e.segment e.stale e.target
    let judged := (s.relay.list.filter fun x => decide (∀ e ∈ waited, 3 ≤ e.sends → e.tag ≠ x.tag)).map fun x =>
      if ∃ e ∈ waited, e.sends < 3 ∧ e.tag = x.tag then { x with phase := .due } else x
    (s.shareState n = .notMine → mine →
      compareShare s n = { s with presence := { s.presence with
        shares := s.presence.shares.set (n - 1) .queued
        adoptQueue := s.presence.adoptQueue ++ [n] } }) ∧
    (s.shareState n = .adopted → ¬ mine →
      compareShare s n = { s with
        presence := { s.presence with shares := s.presence.shares.set (n - 1) .notMine }
        engine := { s.engine with releases := s.engine.releases ++ [.share n] } }) ∧
    (s.shareState n = .queued → ¬ mine →
      let t := compareShare s n
      t = { s with
        presence := { s.presence with
          shares := s.presence.shares.set (n - 1) .notMine
          adoptQueue := s.presence.adoptQueue.filter (· != n) }
        relay := { s.relay with
          list := judged
          unconfirmed := t.relay.unconfirmed }
        store := (records.foldl appendOrDrop s).store
        startup := (records.foldl appendOrDrop s).startup } ∧
      (s.relay.unconfirmed ≤ 65535 → t.relay.unconfirmed = min (s.relay.unconfirmed + records.length) 65535)) ∧
    (s.shareState n = .loading → ¬ mine →
      let t := compareShare s n
      t = { s with
        presence := { s.presence with shares := s.presence.shares.set (n - 1) .notMine }
        engine := { s.engine with
          op := .idle
          table := s.engine.table.filter (·.origin != .adopted n)
          untracked := s.engine.untracked.filter (·.1 != n) }
        relay := { s.relay with
          list := judged
          unconfirmed := t.relay.unconfirmed }
        store := { (records.foldl appendOrDrop s).store with serving := match s.store.serving with
          | some (.planRead _) => some (.planRead false)
          | some (.rebuildRead _) => some (.rebuildRead false)
          | x => x }
        startup := (records.foldl appendOrDrop s).startup } ∧
      (s.relay.unconfirmed ≤ 65535 → t.relay.unconfirmed = min (s.relay.unconfirmed + records.length) 65535)) ∧
    (s.shareState n = .own ∨ (s.shareState n = .notMine ∧ ¬ mine) ∨
        ((s.shareState n = .queued ∨ s.shareState n = .loading ∨ s.shareState n = .adopted) ∧ mine) →
      compareShare s n = s)) ∧
  (∀ s : State, ((∀ item, s.engine.op ≠ .packet item none) → raceReading s = s) ∧
    ∀ item, s.engine.op = .packet item none →
      let read := PacketReading.mk (decide (item.pair ∈ s.relay.heldMemory)) (s.shareState (s.shareOf item.pair.meterId))
      raceReading s = { s with
        engine := { s.engine with op := .packet item (if Config.readsFirst s.freeIndex then some read else none) }
        freeIndex := s.freeIndex + 1 }) ∧
  (∀ s : State,
    recompute s = ((List.range s.settings.collectors).map (· + 1)).foldl compareShare
      { raceReading s with presence := { s.presence with owners := (List.range s.settings.collectors).map fun i => s.effectiveOwner (i + 1) } } ∧
    (recompute s).presence.owners = (List.range s.settings.collectors).map (fun i => s.effectiveOwner (i + 1)) ∧
    (recompute s).presence.view = s.presence.view ∧ (recompute s).engine.runState = s.engine.runState ∧
    (recompute s).engine.plan = s.engine.plan)

/-- The Rack Port's answer to a clear (R35), and what a clear and a duplicate frame do with it. -/
def Obligations.DuplicateAnswer : Prop :=
  ∀ s : State,
    (s.duplicateRecent = true ↔ ∃ t, s.rack.lastDuplicate = some t ∧ (4294967296 + s.now.toNat - t.toNat) % 4294967296 < 2000) ∧
    (clearConditions s).startup.conds.duplicateSlot = (s.startup.conds.duplicateSlot && s.duplicateRecent) ∧
    (clearConditions s).rack = s.rack ∧
    (clearConditions s).startup.conds.txFault = false ∧
    (duplicateFrame s).duplicateRecent = true ∧
    (duplicateFrame (clearConditions s)).startup.conds.duplicateSlot = true ∧
    (∀ x : Sending, s.isLive x.frame.cls.toNat x.tag = true →
      s.rack.retry = some ⟨x.frame.cls.toNat, x.tag, 7⟩ →
      ∀ atStart, (transmitError atStart (clearConditions s) x).startup.conds.txFault = true)

/-- The settings in use formed from an image (11.2): every field in its range whatever the bytes; a field of the image that lies in its
range taken as it stands, one outside it taken as the nearer end, and each code by its table; the default image giving the defaults of
6.1 and 11.2; and an image that a save writes accepted again with its bytes. -/
def Obligations.SettingsInRange : Prop :=
  (∀ image : List Byte,
    let st := settingsOf image
    (2 ≤ st.collectors ∧ st.collectors ≤ 8) ∧ (1 ≤ st.threshold ∧ st.threshold ≤ 255) ∧
    st.detectors.length = 7 ∧
    (∀ d ∈ st.detectors, 1 ≤ d.debounce ∧ d.debounce ≤ 8 ∧ d.weight ≤ 63 ∧ 1 ≤ d.releaseCount ∧ d.releaseCount ≤ 15) ∧
    st.bands.length = 4 ∧ (∀ b ∈ st.bands, 100 ≤ b.high ∧ b.high ≤ 1000 ∧ b.low ≤ 100) ∧
    (1 ≤ st.zeroDays ∧ st.zeroDays ≤ 60) ∧ st.reverseWindow ≤ 500 ∧ (1 ≤ st.lookback ∧ st.lookback ≤ 4) ∧
    (st.positionTimeout = 1000 ∨ st.positionTimeout = 2000 ∨ st.positionTimeout = 5000 ∨ st.positionTimeout = 10000)) ∧
  (∀ image : List Byte, image.length = 96 →
    let st := settingsOf image
    let byte := fun i => (image.getD i 0).toNat
    let word := fun i => 256 * byte i + byte (i + 1)
    let fits := fun (v low high x : Nat) => (v < low → x = low) ∧ (low ≤ v → v ≤ high → x = v) ∧ (high < v → x = high)
    fits (byte 0) 2 8 st.collectors ∧ fits (byte 1) 1 255 st.threshold ∧
    (∀ j, j < 7 →
      (st.detector j).disposition = (match byte (2 + 4 * j) with
        | 0 => .latch
        | 1 => .release
        | 2 => .note
        | _ => .off) ∧
      fits (byte (3 + 4 * j)) 1 8 (st.detector j).debounce ∧ fits (byte (4 + 4 * j)) 0 63 (st.detector j).weight ∧
      fits (byte (5 + 4 * j)) 1 15 (st.detector j).releaseCount) ∧
    (∀ i, i < 4 → fits (word (30 + 3 * i)) 100 1000 (st.band i).high ∧ fits (byte (32 + 3 * i)) 0 100 (st.band i).low) ∧
    fits (byte 42) 1 60 st.zeroDays ∧ fits (word 43) 0 500 st.reverseWindow ∧ fits (byte 45) 1 4 st.lookback ∧
    st.positionTimeout = (match byte 46 with
      | 0 => 1000
      | 1 => 2000
      | 2 => 5000
      | _ => 10000) ∧
    (st.storeUnlisted = true ↔ 1 ≤ byte 47)) ∧
  settingsOf defaultImage = defaultSettings ∧
  (∀ image : List Byte, image.length = 96 → acceptedImage (savedImage image) = some image)

/-- A receiver judges every frame of at most 48 payload bytes as valid, in the bits its sender drives (2.2, 2.3). -/
def Obligations.WireFrameJudgedValid : Prop :=
  ∀ f : RackFrame, f.payload.length ≤ 48 → judgeBits (wireBits f) = some (.valid true)

/-- Bit stuffing leaves no seven equal bits in a row (2.2), adds at most one bit for each five after the first six, and a receiver that
drops each bit after six equal ones has the unstuffed bits again. -/
def Obligations.StuffingBreaksRuns : Prop :=
  (∀ (bits : List Bool) (b : Bool), ¬ List.replicate 7 b <:+: stuffed bits) ∧
  (∀ bits : List Bool, 6 ≤ bits.length → (stuffed bits).length ≤ bits.length + 1 + (bits.length - 6) / 5) ∧
  (∀ bits : List Bool, unstuffed (stuffed bits) = bits)

/-- The receive filter (2.4, 8.2, 10.1): frames of the peers, the console, the navigation unit and the dock are read back, each field as
sent; a wrong destination, class or source is set aside, a wrong length is a format error, and an operation byte that no command has is
the block's own matter. A QUERY whose length is neither 1 nor 3 is a format error whatever its operation (the model's choice, log 41). A
DOCK frame of length 0 is a format error; one of a known operation with a wrong length, or of an unknown operation, is a dock reject. -/
def Obligations.FilterReadsFrames : Prop :=
  (∀ (own : Nat) (src dst : BitVec 4), dst.toNat = own ∨ dst.toNat = 15 →
    (isCollector src.toNat = true →
      (∀ p, readFrame own ⟨2, src, dst, presenceBytes p⟩ = .delivered (.presence src p)) ∧
      (∀ m c, readFrame own ⟨3, src, dst, heldBytes m c⟩ = .delivered (.held src m c)) ∧
      (∀ p, readFrame own ⟨4, src, dst, handoverBytes p⟩ = .delivered (.handover src p)) ∧
      (∀ p, readFrame own ⟨5, src, dst, relayBytes p⟩ = .delivered (.relay src p))) ∧
    (∀ run day : BitVec 16,
      readFrame own ⟨0, 10, dst, [1] ++ bytesOf 2 run.toNat ++ bytesOf 2 day.toNat⟩ = .delivered (.runOpen run day) ∧
      readFrame own ⟨0, 10, dst, [2] ++ bytesOf 2 run.toNat ++ bytesOf 2 day.toNat⟩ = .delivered (.runClose run day) ∧
      readFrame own ⟨8, 10, dst, [1] ++ bytesOf 2 run.toNat⟩ = .delivered (.listRevisit run)) ∧
    readFrame own ⟨8, 10, dst, [2]⟩ = .delivered .queryClearConditions ∧
    (∀ (v : Byte) (n : BitVec 16), readFrame own ⟨1, 9, dst, [v] ++ bytesOf 2 n.toNat⟩ = .delivered (.position v n)) ∧
    (∀ n : BitVec 32,
      readFrame own ⟨10, 11, dst, [1] ++ bytesOf 4 n.toNat⟩ = .delivered (.uploadOpen n) ∧
      readFrame own ⟨10, 11, dst, [2] ++ bytesOf 4 n.toNat⟩ = .delivered (.uploadMark n)) ∧
    (∀ (n : BitVec 32) (a b : BitVec 16),
      readFrame own ⟨10, 11, dst, [6] ++ bytesOf 4 n.toNat ++ bytesOf 2 a.toNat ++ bytesOf 2 b.toNat⟩ = .delivered (.planBegin n a b)) ∧
    (∀ (a : BitVec 16) (bs : List Byte), bs.length = 32 →
      readFrame own ⟨10, 11, dst, [7] ++ bytesOf 2 a.toNat ++ bs⟩ = .delivered (.planData a bs)) ∧
    (∀ (a : Byte) (bs : List Byte), 1 ≤ bs.length → bs.length ≤ 16 →
      readFrame own ⟨10, 11, dst, [9, a] ++ bs⟩ = .delivered (.settingWrite a bs)) ∧
    readFrame own ⟨10, 11, dst, [3]⟩ = .delivered .uploadClose ∧ readFrame own ⟨10, 11, dst, [4]⟩ = .delivered .eraseUploaded ∧
    readFrame own ⟨10, 11, dst, [5]⟩ = .delivered .clearFindings ∧ readFrame own ⟨10, 11, dst, [8]⟩ = .delivered .planEnd ∧
    readFrame own ⟨10, 11, dst, [10]⟩ = .delivered .settingSave ∧
    readFrame own ⟨10, 11, dst, [11]⟩ = .delivered .dockClearConditions) ∧
  (∀ (own : Nat) (f : RackFrame),
    let cls := f.cls.toNat
    let src := f.src.toNat
    let n := f.payload.length
    let here := f.dst.toNat = own ∨ f.dst.toNat = 15
    (¬ here → readFrame own f = .setAside) ∧
    (cls = 6 ∨ cls = 7 ∨ cls = 9 ∨ 11 ≤ cls → readFrame own f = .setAside) ∧
    ((cls = 0 ∨ cls = 8) ∧ src ≠ 10 → readFrame own f = .setAside) ∧
    (cls = 1 ∧ src ≠ 9 → readFrame own f = .setAside) ∧
    (cls = 10 ∧ src ≠ 11 → readFrame own f = .setAside) ∧
    (2 ≤ cls ∧ cls ≤ 5 ∧ isCollector src = false → readFrame own f = .setAside) ∧
    (here → cls = 0 → src = 10 → n ≠ 5 → readFrame own f = .formatError) ∧
    (here → cls = 0 → src = 10 → n = 5 → f.payload.head? ≠ some 1 → f.payload.head? ≠ some 2 → readFrame own f = .runReject) ∧
    (here → cls = 1 → src = 9 → n ≠ 3 → readFrame own f = .formatError) ∧
    (here → isCollector src = true →
      (cls = 2 ∧ n ≠ 14) ∨ (cls = 3 ∧ n ≠ 6) ∨ (cls = 4 ∧ n ≠ 13) ∨ (cls = 5 ∧ n ≠ 15) → readFrame own f = .formatError) ∧
    (here → cls = 8 → src = 10 → f.payload.head? = some 1 → n ≠ 3 → readFrame own f = .formatError) ∧
    (here → cls = 8 → src = 10 → f.payload.head? = some 2 → n ≠ 1 → readFrame own f = .formatError) ∧
    (here → cls = 8 → src = 10 → n ≠ 1 → n ≠ 3 → readFrame own f = .formatError) ∧
    (here → cls = 8 → src = 10 → (n = 1 ∨ n = 3) → f.payload.head? ≠ some 1 → f.payload.head? ≠ some 2 →
      readFrame own f = .setAside) ∧
    (here → cls = 10 → src = 11 → n = 0 → readFrame own f = .formatError) ∧
    (here → cls = 10 → src = 11 → 0 < n →
      let op := (f.payload.getD 0 0).toNat
      ((op = 1 ∨ op = 2) ∧ n ≠ 5) ∨ ((op = 3 ∨ op = 4 ∨ op = 5 ∨ op = 8 ∨ op = 10 ∨ op = 11) ∧ n ≠ 1) ∨ (op = 6 ∧ n ≠ 9) ∨
        (op = 7 ∧ n ≠ 35) ∨ (op = 9 ∧ (n < 3 ∨ 18 < n)) ∨ op = 0 ∨ 11 < op →
      readFrame own f = .dockReject))

/-- What the part writes in flash is read back: a log record (9.3), not free, its CRC good, every field that the part reads as it was
written; what an opening programs (9.2); and the plan header behind any record of slot 0 (4.1, 4.2). -/
def Obligations.FlashFormatsReadBack : Prop :=
  (∀ (pos : LogPos) (n : Nat) (r : RecordBody), n < 4294967296 →
    (recordBytes n r).length = 32 ∧ recordGood (recordBytes n r) = true ∧
    recordOf pos (recordBytes n r) =
      ⟨pos, n, r.kind.code, r.meterId, r.counter, r.reading, r.flags, r.run, r.late, recordBytes n r⟩) ∧
  (∀ o : Opening, o.seq < 4294967296 → o.eraseCount < 16777216 → o.bound < 4294967295 →
    (openingBytes o).length = 32 ∧
    headerOf (openingBytes o) = {
      allOnes := false
      magicGood := true
      crcGood := true
      seq := o.seq
      eraseCount := o.eraseCount
      opened := true
      full := false
      uploaded := false
      eraseBegun := false
      retired := false
      reserves := [o.bound] }) ∧
  (∀ (rec : List Byte) (p : Plan) (spare : List Byte), rec.length = 19 → 1 ≤ p.count → p.count ≤ 16384 → 1 ≤ p.segments →
    p.segments ≤ 512 → planHeaderOf (rec ++ planHeaderBytes p ++ spare) = some p)

/-! ## The whole machine -/

/-- A step with a command at the front of the queue is that command on the state with the queue's rest, and on an empty queue one
millisecond of station time, in which an erase that is not suspended spends one millisecond (the model's choice, logs 1 and 14). -/
def Obligations.StepRunsFront : Prop :=
  (∀ (c : Instr) (rest : List Instr) (s : State), s.pending = c :: rest → step s = exec c { s with pending := rest }) ∧
  (∀ s : State, s.pending = [] → s.startup.powered = true → s.store.erase = none →
    step s = .next { s with startup := { s.startup with now := s.startup.now + 1 } }) ∧
  (∀ (s : State) (e : EraseRun), s.pending = [] → s.startup.powered = true → s.store.erase = some e →
    step s = .next { s with
      startup := { s.startup with now := s.startup.now + 1 }
      store := { s.store with erase := some (if s.store.serving = none then { e with spent := e.spent + 1 } else e) } }) ∧
  (∀ s : State, s.pending = [] → s.startup.powered = false → step s = .next s)

/-- No command changes the queue of commands (the model's choice, log 1). -/
def Obligations.QueueUntouched : Prop :=
  ∀ (c : Instr) (s t : State), exec c s = .next t → t.pending = s.pending

/-- Every step keeps flash and configuration memory in canonical form (the model's choice of form, log 3). -/
def Obligations.MemoryStaysCanonical : Prop :=
  ∀ s t : State, MemoryCanonical s → step s = .next t → MemoryCanonical t

/-- Every step keeps every error counter of the nine blocks at 65,535 or less (11.4, R194). -/
def Obligations.CountersStayInRange : Prop :=
  ∀ s t : State, CountersInRange s → step s = .next t → CountersInRange t

/-- Every step keeps these queues and lists within their capacities, and without a duplicate where the manual allows none: intake queue,
relay intake queue, relay list, held memory, HELD pending list, suspect pending list, reply list, route table, adoption queue (with the
shares it names QUEUED), page buffer, plan write queue, erase list. Two are not among them: the second page buffer, which log 45 lets pass
its capacity, and the tally list, to which 8.7 gives 512 places and no segment twice in one run, a law of the run's closures and not of
one step. The revisit list stands under ScoreLawHolds. -/
def Obligations.CapacitiesHold : Prop :=
  ∀ s t : State, WithinCapacity s → step s = .next t → WithinCapacity t

/-- Every step keeps the law of the run state (8.1): a VALID plan in READY, REBUILDING, RUNNING and CLOSING, and no share QUEUED, LOADING
or ADOPTED outside RUNNING. -/
def Obligations.RunLawHolds : Prop :=
  ∀ s t : State, RunLaw s → step s = .next t → RunLaw t

/-- Every step keeps the law of the score (6.4): each route entry's score is the lesser of 255 and the sum of the weights of its ACTIVE
detectors. Every step keeps the law of the tracker's figures (4.3, 8.5, 8.9): each row of the segment table has the counts of the entries
of its segment, and the revisit list holds exactly the MISSED entries, by segment and then plan index, so at most 8,192 of them and none
twice. The entries of a load in progress are not yet counted (3.6). -/
def Obligations.ScoreLawHolds : Prop :=
  (∀ s t : State, ScoreLaw s → step s = .next t → ScoreLaw t) ∧
  (∀ s t : State, TrackerLaw s → step s = .next t → TrackerLaw t) ∧
  (∀ s : State, TrackerLaw s → s.tracker.revisit.length ≤ 8192 ∧ s.tracker.revisit.Nodup)

/-- The state after reset meets every invariant above and holds the values of chapters 1 to 11 after start: counters 0, queues and lists
empty, the receiver SEARCHING, the line receiver SPOILED with its gap running, every peer presumed, no run, conditions
FRESH and PLAN_INVALID. The model's choices are its straps and its blank memories (log 3), the settings before step 2 (log 4), the interrupted
run absent before the scan (log 5), and of the session no record outstanding before the first UPLOAD OPEN (log 55). -/
def Obligations.ResetValues : Prop :=
  let s := State.reset
  MemoryCanonical s ∧ CountersInRange s ∧ WithinCapacity s ∧ RunLaw s ∧ ScoreLaw s ∧ TrackerLaw s ∧ QueryLaw s ∧ FlashInside s ∧
  (∀ n ∈ s.counters, n = 0) ∧
  s.now = 0 ∧ s.radio.line = .spoiled ∧ s.radio.gapRunning = true ∧ s.radio.queue = [] ∧
  s.rack.rx = .searching ∧ s.rack.sending = none ∧ s.rack.retry = none ∧ s.rack.lastDuplicate = none ∧
  (∀ v ∈ s.presence.view, v.lastHeard = 0 ∧ v.contents = none ∧ v.presumed = some 2000) ∧
  s.presence.view.map (·.slot) = [2, 3, 4, 5, 6, 7, 8] ∧ s.presence.owners = [1, 2, 3, 4] ∧
  s.presence.shares = [.own, .notMine, .notMine, .notMine] ∧ s.presence.adoptQueue = [] ∧ s.presence.timer = none ∧
  s.engine.op = .idle ∧ s.engine.releases = [] ∧ s.engine.requests = [] ∧ s.engine.relayQueue = [] ∧ s.engine.notices = [] ∧
  s.engine.handing = [] ∧ s.engine.table = [] ∧ s.engine.ownUntracked = 0 ∧ s.engine.untracked = [] ∧ s.engine.duplicates = 0 ∧
  s.engine.plan = none ∧ s.engine.runState = none ∧ s.engine.currentRun = none ∧ s.engine.openingRun = none ∧
  s.engine.interrupted = none ∧ s.engine.lastSide = .relay ∧ s.engine.closeWaits = false ∧
  s.tracker.segment = 0 ∧ s.tracker.stale = false ∧ s.tracker.watchdog = none ∧ s.tracker.rows = [] ∧ s.tracker.revisit = [] ∧
  s.tracker.tallies = [] ∧ s.tracker.reply = none ∧ s.tracker.query = none ∧
  s.relay.list = [] ∧ s.relay.heldMemory = [] ∧ s.relay.heldPending = [] ∧
  s.store.pageBuf = [] ∧ s.store.second = [] ∧ s.store.programming = false ∧ s.store.flushing = false ∧ s.store.eraseList = [] ∧
  s.store.progs = [] ∧ s.store.marks = [] ∧ s.store.planErase = none ∧ s.store.serving = none ∧ s.store.erase = none ∧
  s.dock.session.state = .none ∧ s.dock.session.synthList = [] ∧ s.dock.session.data = none ∧ s.dock.session.ask = none ∧
  s.dock.session.toSynth = [] ∧ s.dock.session.outstanding = [] ∧
  s.dock.load.phase = .none ∧ s.dock.load.received = [] ∧ s.dock.load.queue = [] ∧ s.dock.load.bad = [] ∧ s.dock.load.ignored = 0 ∧
  s.dock.load.check = none ∧ s.dock.replies = [] ∧ s.presence.item = none ∧ s.startup.save = none ∧ s.startup.waitingSaves = 0 ∧
  s.conditionsField = 0x0101

/-- What writes memory (9.1, 11.3). A command that is no start, loss of power, erase or end of a program leaves the flash as it is. The
end of a program makes no bit 1 that was 0, and changes no byte outside the bytes that the program writes. Only a save's end, a
start and a loss of power write the configuration memory. -/
def Obligations.FlashWritesConfined : Prop :=
  (∀ (c : Instr) (s t : State), exec c s = .next t → (∀ x, c ≠ .start x) → c ≠ .powerLoss →
    (∀ ok, c ≠ .saveCompletion ok) → t.startup.cfg = s.startup.cfg) ∧
  (∀ (c : Instr) (s t : State), exec c s = .next t → (∀ x, c ≠ .start x) → c ≠ .powerLoss → c ≠ .sectorErase → c ≠ .planSectorErase →
    ((∀ ok, c ≠ .pageProgram ok) → (∀ ok, c ≠ .sectorOpening ok) → (∀ ok, c ≠ .headerMarkProgram ok) →
      (∀ ok, c ≠ .planRecordProgram ok) → (∀ ok, c ≠ .planHeaderProgram ok) → t.store.flash = s.store.flash) ∧
    (s.store.flash.wf = true → ∀ a,
      t.store.flash.read a &&& s.store.flash.read a = t.store.flash.read a ∧
      ((∀ x, s.programTarget = some x → ¬ (x.1 ≤ a ∧ a < x.1 + x.2.length)) → t.store.flash.read a = s.store.flash.read a)))

/-- No command but START and POWER_LOSS changes the slot straps or whether the part is powered, and from step 2 on the settings in use
hold (6.1, 11.1); from the scan's end on the upload mark and the sequence counter never fall (9.4, 9.8, 10.2). That no such command moves
station time is the model's choice (logs 1 and 14): time passes in idle steps alone. -/
def Obligations.HoldsUntilStart : Prop :=
  (∀ (c : Instr) (s t : State), exec c s = .next t → (∀ x, c ≠ .start x) → c ≠ .powerLoss →
    t.startup.straps = s.startup.straps ∧ t.startup.powered = s.startup.powered ∧ t.startup.now = s.startup.now ∧
    (s.startup.step ≠ .config → t.startup.settings = s.startup.settings ∧ t.startup.step ≠ .config)) ∧
  (∀ (c : Instr) (s t : State), exec c s = .next t → (∀ x, c ≠ .start x) → c ≠ .powerLoss → c ≠ .startUpScan →
    s.store.uploadMark ≤ t.store.uploadMark ∧ s.store.seqCounter ≤ t.store.seqCounter)

/-- Every command answers with a next state, whatever the state, while the flash addresses in use lie inside the array (9.1). Without power
no command but START changes anything (11.1; the model's choice for the rest, log 2). -/
def Obligations.EveryCommandAnswers : Prop :=
  (∀ (c : Instr) (s : State), FlashInside s → ∃ t, exec c s = .next t) ∧
  (∀ (c : Instr) (s : State), s.startup.powered = false → (∀ x, c ≠ .start x) → exec c s = .next s)

/-- What follows at the end of a command while nothing waits for the engine's choice (5.1, 9.6, 2.6): only the transmit selector, the flash
arbiter, the erase list's head, the plan write queue, the report of a full store and the answer to a LIST REVISIT that waits act; every
other part stays as the command left it. The LIST REVISIT that waits is answered once no REVISIT frame is on the bus (8.9): it gives its
start index to the reply still pending, under its old tag (the model's choice, log 34), or makes a new reply pending. -/
def Obligations.SettlingFrame : Prop :=
  ∀ s : State, EngineSettled s →
    let t := settle s
    t.radio = s.radio ∧ t.presence = s.presence ∧ t.engine = s.engine ∧ t.relay = s.relay ∧
    t.freeIndex = s.freeIndex ∧ t.pending = s.pending ∧
    (s.tracker.query = none ∨ (∃ x, s.rack.sending = some x ∧ x.frame.cls = 9) → t.tracker = s.tracker ∧ t.nextTag = s.nextTag) ∧
    (∀ start, s.tracker.query = some start → (∀ x, s.rack.sending = some x → x.frame.cls ≠ 9) →
      (∀ r, s.tracker.reply = some r → t.nextTag = s.nextTag ∧ t.tracker = { s.tracker with
        reply := some ⟨r.tag, start⟩
        query := none }) ∧
      (s.tracker.reply = none → t.nextTag = s.nextTag + 1 ∧ t.tracker = { s.tracker with
        reply := some ⟨s.nextTag, start⟩
        query := none })) ∧
    t.rack = { s.rack with
      rx := t.rack.rx
      sending := t.rack.sending
      retry := t.rack.retry } ∧
    (s.rack.sending.isSome = true → t.rack.rx = s.rack.rx ∧ t.rack.sending = s.rack.sending) ∧
    t.startup = { s.startup with conds := { s.startup.conds with storeFull := t.startup.conds.storeFull } } ∧
    (s.startup.conds.storeFull = true → t.startup.conds.storeFull = true) ∧
    t.dock = { s.dock with load := { s.dock.load with queue := t.dock.load.queue } } ∧
    t.store = { s.store with
      rows := t.store.rows
      eraseList := t.store.eraseList
      progs := t.store.progs
      marks := t.store.marks
      planErase := t.store.planErase
      serving := t.store.serving
      erase := t.store.erase } ∧
    (s.store.serving.isSome = true → t.store.serving = s.store.serving)

/-- The engine's choice (5.1): release requests, station requests, the adoption queue, then packets, the two packet queues in turn; packets
and loads only in RUNNING; and nothing while an operation is in progress. A load's begin makes its share LOADING and leaves no entry of the
share in the table and no HANDOVER of one, a kept record going to the store (3.6, 4.6). A packet operation begins by the take alone, its
reading of the held memory and the share state (5.3) still to come (the model's choice, log 26). What each station request begins (5.1): a
closure marking, the run reset, the reset before a rebuild, the plan check, the findings clear, the emptying and the kept-record release
each as that operation; the own-share build with its counts 0, which at a spare ends at once (4.4). -/
def Obligations.EngineChoiceOrder : Prop :=
  (∀ s : State, s.engine.op ≠ .idle → engineChoose s = s) ∧
  (∀ (s : State) (n : Nat) (rest : List ReleaseReq), s.engine.op = .idle → s.engine.releases = .share n :: rest →
    engineChoose s = { s with engine := { s.engine with releases := rest, op := .release n } }) ∧
  (∀ (s : State) (rest : List ReleaseReq), s.engine.op = .idle → s.engine.releases = .close :: rest →
    engineChoose s = { s with engine := { s.engine with releases := rest, op := .closeRelease } }) ∧
  (∀ (s : State) (r : StationReq) (rest : List StationReq), s.engine.op = .idle → s.engine.releases = [] →
    s.engine.requests = r :: rest → engineChoose s = beginRequest { s with engine := { s.engine with requests := rest } } r) ∧
  (∀ u : State,
    let begins := fun (r : StationReq) (x : EngineOp) => beginRequest u r = { u with engine := { u.engine with op := x } }
    (∀ n, begins (.closure n) (.closure n)) ∧ begins .runReset .runReset ∧ (∀ m, begins (.resetRebuild m) (.resumeReset m)) ∧
    begins .planCheck .planCheckHeader ∧ begins .findingsClear .findingsClear ∧ begins .emptying .emptying ∧
    (∀ m n, begins (.keptRelease m n) (.keptRelease m n)) ∧
    (∀ p, u.engine.plan = some p →
      let v := { u with
        engine := { u.engine with
          op := .ownBuild 0
          ownUntracked := 0
          duplicates := 0 }
        tracker := { u.tracker with rows := [] } }
      (u.slot ≤ u.settings.collectors → beginRequest u .ownBuild = v) ∧
      (u.settings.collectors < u.slot → beginRequest u .ownBuild = buildEnds v p)) ∧
    (u.engine.plan = none → beginRequest u .ownBuild = u)) ∧
  (∀ (s : State) (n : Nat) (rest : List Nat), s.engine.op = .idle → s.engine.releases = [] → s.engine.requests = [] →
    s.presence.adoptQueue = n :: rest → s.isRunning = true →
    (engineChoose s).engine.op = .load n 0 ∧ (engineChoose s).presence.adoptQueue = rest ∧
    (engineChoose s).presence.shares = s.presence.shares.set (n - 1) .loading ∧
    (engineChoose s).engine.untracked = s.engine.untracked ++ [(n, 0)] ∧
    (∀ e ∈ (engineChoose s).engine.table, e.origin ≠ .adopted n) ∧
    (let gone := s.engine.table.filter fun e => e.origin == .adopted n
     (engineChoose s).store = ((gone.filterMap (·.kept)).foldl appendOrDrop s).store ∧
     (engineChoose s).engine.handing = s.engine.handing.filter fun i => !gone.any (·.meterId == i.meterId)) ∧
    ((s.engine.table.map (·.meterId)).Nodup →
      (engineChoose s).engine.table = s.engine.table.filter (fun e => decide (e.origin ≠ .adopted n)))) ∧
  (∀ s : State, s.engine.op = .idle → s.engine.releases = [] → s.engine.requests = [] → s.isRunning = false → engineChoose s = s) ∧
  (∀ s : State, s.engine.op = .idle → s.engine.releases = [] → s.engine.requests = [] → s.presence.adoptQueue = [] →
    s.isRunning = true →
    (∀ (p : Packet) (ps : List Packet), s.radio.queue = p :: ps → (s.engine.relayQueue = [] ∨ s.engine.lastSide = .relay) →
      engineChoose s = { s with
        radio := { s.radio with queue := ps }
        engine := { s.engine with
          lastSide := .intake
          op := .packet (.intake p) none } }) ∧
    (∀ (i : RelayItem) (is : List RelayItem), s.engine.relayQueue = i :: is → (s.radio.queue = [] ∨ s.engine.lastSide = .intake) →
      engineChoose s = { s with
        engine := { s.engine with
          relayQueue := is
          lastSide := .relay
          op := .packet (.relayed i) none } }))

/-- The flash arbiter's choice by rank (9.6) and the transmit selector's choice by class (2.6): the fixed order of what the flash serves, at
the first rank the log page, the opening, the plan record and the plan header each as it waits there alone, and what is begun on the bus
when the receiver is IDLE. The source, class, destination and payload of every frame as it is formed at its offer (2.4): HELD, HANDOVER,
RELAY, SUSPECT, TALLY, REVISIT, DOCKREPLY, UPLOAD DATA and UPLOAD END; PRESENCE stands under PresenceContent. That a record leaves the plan
write queue when the arbiter begins its program is the model's choice (log 21). -/
def Obligations.ArbiterAndSelector : Prop :=
  (∀ s : State, s.store.serving.isSome = true → arbitrate s = s) ∧
  (∀ s : State, s.store.serving = none →
    let reads := s.engine.op.readsPlan = true ∨ s.checkWaits = true
    (s.store.opening = none → s.store.head.isSome = true → .logPage ∈ s.store.progs → .opening ∉ s.store.progs →
      .planRecord ∉ s.store.progs → .planHeader ∉ s.store.progs →
      arbitrate s = { s with store := { s.store with
        progs := s.store.progs.erase .logPage
        serving := some .logPage } }) ∧
    (s.store.opening.isSome = true → .opening ∈ s.store.progs → .planRecord ∉ s.store.progs → .planHeader ∉ s.store.progs →
      arbitrate s = { s with store := { s.store with
        progs := s.store.progs.erase .opening
        serving := some .opening } }) ∧
    (∀ (i : Nat) (bs : List Byte) (rest : List (Nat × List Byte)), s.store.progs = [.planRecord] →
      s.dock.load.queue = (i, bs) :: rest →
      arbitrate s = { s with
        store := { s.store with
          progs := []
          serving := some (.planRecord i bs) }
        dock := { s.dock with load := { s.dock.load with queue := rest } } }) ∧
    (s.store.progs = [.planHeader] →
      arbitrate s = { s with store := { s.store with
        progs := []
        serving := some .planHeader } }) ∧
    (s.store.progs = [] →
      (reads → arbitrate s = { s with store := { s.store with serving := some (.planRead true) } }) ∧
      (¬ reads → s.engine.op.readsLog = true → arbitrate s = { s with store := { s.store with serving := some (.rebuildRead true) } }) ∧
      (¬ reads → s.engine.op.readsLog = false →
        (s.dock.session.ask.isSome = true → arbitrate s = { s with store := { s.store with serving := some (.uploadRead true) } }) ∧
        (s.dock.session.ask = none →
          (∀ (m : MarkReq) (rest : List MarkReq), s.store.marks = m :: rest → arbitrate s = { s with store := { s.store with
            marks := rest
            serving := some (.mark m) } }) ∧
          (s.store.marks = [] → s.store.erase = none →
            (∀ n, s.store.planErase = some n → arbitrate s = { s with store := { s.store with
              planErase := none
              erase := some ⟨n, 0⟩ } }) ∧
            (∀ (n : Nat) (x : Bool) (rest : List EraseItem), s.store.planErase = none → s.store.eraseList = ⟨n, x, .ready⟩ :: rest →
              arbitrate s = { s with store := { s.store with erase := some ⟨n, 0⟩ } })))))) ∧
  (∀ s : State,
    s.nextItem = [s.offer2, s.offer3, s.offer4, s.offer5, s.offer6, s.offer7, s.offer9, s.offer11].findSome? id ∧
    (∀ x, s.nextItem = some x → x.frame.src.toNat = s.slot) ∧
    (∀ x, s.offer2 = some x → x.frame.cls = 2 ∧ x.frame.dst = 15) ∧ (∀ x, s.offer3 = some x → x.frame.cls = 3 ∧ x.frame.dst = 15) ∧
    (∀ x, s.offer4 = some x → x.frame.cls = 4) ∧ (∀ x, s.offer5 = some x → x.frame.cls = 5) ∧
    (∀ x, s.offer6 = some x → x.frame.cls = 6 ∧ x.frame.dst = 10) ∧ (∀ x, s.offer7 = some x → x.frame.cls = 7 ∧ x.frame.dst = 10) ∧
    (∀ x, s.offer9 = some x → x.frame.cls = 9 ∧ x.frame.dst = 10) ∧ (∀ x, s.offer11 = some x → x.frame.cls = 11 ∧ x.frame.dst = 11)) ∧
  (∀ s : State,
    let own := BitVec.ofNat 4 s.slot
    (s.isRunning = false → s.offer4 = none) ∧
    (∀ (i : HandingItem) (rest : List HandingItem) (e : Entry) (l : LastHeard), s.isRunning = true → s.engine.handing = i :: rest →
      s.ownerOf i.share ≠ s.slot → s.engine.lookup i.meterId = some e → e.lastHeard = some l →
      s.offer4 = some ⟨i.tag, ⟨4, own, BitVec.ofNat 4 (s.ownerOf i.share), bytesOf 4 e.meterId.toNat ++ bytesOf 2 l.counter.toNat ++
        bytesOf 4 l.reading.toNat ++ [BitVec.ofNat 8 e.digits, l.flags, activeSet e.detectors]⟩⟩) ∧
    (∀ x, s.offer4 = some x → ∃ i ∈ s.engine.handing, x.tag = i.tag ∧ x.frame.dst = BitVec.ofNat 4 (s.ownerOf i.share) ∧
      s.ownerOf i.share ≠ s.slot) ∧
    (∀ x, s.offer5 = some x → ∃ e ∈ s.relay.list, x = ⟨e.tag, ⟨5, own, BitVec.ofNat 4 (s.ownerOf e.share),
        bytesOf 4 e.packet.meterId.toNat ++ bytesOf 2 e.packet.counter.toNat ++ bytesOf 4 e.packet.reading.toNat ++
          [BitVec.ofNat 8 (16 * e.packet.digits.toNat + (if e.packet.alarm then 2 else 1)), e.packet.flags, e.packet.rssi,
            e.packet.channel, BitVec.ofNat 8 (e.sends + 1)]⟩⟩ ∧
      (e.phase = .unsent ∨ e.phase = .due) ∧ s.shareState e.share = .notMine ∧ s.ownerOf e.share ≠ s.slot) ∧
    (∀ (e : RelayEntry) (rest : List RelayEntry), s.relay.list = e :: rest → (e.phase = .unsent ∨ e.phase = .due) →
      s.shareState e.share = .notMine → s.ownerOf e.share ≠ s.slot → ∃ x, s.offer5 = some x ∧ x.tag = e.tag) ∧
    (∀ (i : HeldItem) (rest : List HeldItem), s.relay.heldPending = i :: rest →
      s.offer3 = some ⟨i.tag, ⟨3, own, 15, bytesOf 4 i.pair.meterId.toNat ++ bytesOf 2 i.pair.counter.toNat⟩⟩) ∧
    (∀ (n : Notice) (rest : List Notice), s.engine.notices = n :: rest →
      s.offer6 = some ⟨n.tag, ⟨6, own, 10, bytesOf 4 n.meterId.toNat ++ [BitVec.ofNat 8 n.score, n.active] ++ bytesOf 2 n.segment⟩⟩) ∧
    (∀ (i : TallyItem) (rest : List TallyItem) (r : SegmentRow), s.tracker.tallies = i :: rest →
      s.tracker.rows.find? (·.segment == i.segment) = some r →
      s.offer7 = some ⟨i.tag, ⟨7, own, 10, bytesOf 2 r.segment ++ bytesOf 2 r.expected ++ bytesOf 2 r.read ++ bytesOf 2 r.missed ++
        bytesOf 2 r.suspect⟩⟩) ∧
    (∀ r : RevisitReply, s.tracker.reply = some r →
      s.offer9 = some ⟨r.tag, ⟨9, own, 10, bytesOf 2 s.tracker.revisit.length ++ bytesOf 2 r.startIndex.toNat ++
        ((s.tracker.revisit.drop r.startIndex.toNat).take 7).flatMap fun i => bytesOf 4 i.meterId.toNat ++ bytesOf 2 i.segment⟩⟩) ∧
    (∀ d : UploadItem, s.dock.session.data = some d → (∀ r, s.dock.replies.head? = some r → d.tag ≤ r.tag) →
      s.offer11 = some ⟨d.tag, ⟨11, own, 11, [0x81, 1] ++ d.bytes⟩⟩) ∧
    (∀ (r : Reply) (rest : List Reply), s.dock.replies = r :: rest → (∀ d, s.dock.session.data = some d → r.tag < d.tag) →
      let x := s.dock.session
      (∀ bs, r.body = .fixed bs → s.offer11 = some ⟨r.tag, ⟨11, own, 11, bs⟩⟩) ∧
      (r.body = .uploadEnd 1 → s.offer11 = some ⟨r.tag, ⟨11, own, 11, [0x82, 1, 1] ++ bytesOf 4 x.highest ++ bytesOf 2 x.streamed ++
        bytesOf 2 x.synthCount ++ bytesOf 2 x.unsynthesized ++ bytesOf 4 s.store.uploadMark ++ bytesOf 2 s.conditionsField.toNat ++
        bytesOf 2 s.store.dropped ++ bytesOf 2 s.store.faults ++ bytesOf 3 s.store.highestEraseCount ++
        bytesOf 2 (s.store.rows.countP (·.state == .erased))⟩⟩) ∧
      (r.body = .uploadEnd 2 → s.offer11 = some ⟨r.tag, ⟨11, own, 11, [0x82, 1, 2] ++
        [s.radio.lineErrors, s.radio.intakeCrc, s.radio.malformed, s.radio.outOfRun, s.radio.overrun, s.rack.rxCrc, s.rack.rxFormat,
          s.rack.txErrors, s.rack.txDrops].flatMap (bytesOf 2)⟩⟩) ∧
      (r.body = .uploadEnd 3 → s.offer11 = some ⟨r.tag, ⟨11, own, 11, [0x82, 1, 3] ++
        [s.engine.heldDrop, s.engine.unlistedDrop, s.engine.relayReject, s.engine.handoverDrop, s.engine.suspectDrop, s.engine.runReject,
          s.tracker.tallyDrop, s.relay.duplicates, s.relay.confirmed, s.relay.unconfirmed, s.relay.heldDrop, s.engine.relayOverrun,
          s.engine.relayOutOfRun, s.dock.rejects, s.dock.replyDrops].flatMap (bytesOf 2)⟩⟩))) ∧
  (∀ s : State, offer s =
    if s.startup.step = .up ∧ s.rack.rx = .idle ∧ s.rack.sending = none then
      (match s.nextItem with
        | some x => { s with rack := { s.rack with
          rx := .frame
          sending := some x } }
        | none => s)
    else s)

/-- The store's answer to an append (9.4): room, the number given, the buffer entered and the program begun, STORE_FULL where no room is
left; and the record that is refused, dropped and counted. -/
def Obligations.AppendsJudged : Prop :=
  ∀ (s : State) (b : RecordBody),
    let st := s.store
    let places := match st.head with
      | some (_, slot) => 128 - slot
      | none => 0
    let t := (append s b).1
    (st.hasRoom = true ↔ st.seqCounter < 4294967295 ∧ (st.pageBuf.length + st.second.length < places ∨ st.candidateErased = true)) ∧
    (st.accepts = false → append s b = (s, none) ∧
      appendOrDrop s b = { s with store := { st with dropped := min (st.dropped + 1) 65535 } }) ∧
    (st.accepts = true → (append s b).2 = some st.seqCounter ∧ appendOrDrop s b = t ∧
      t = { s with
        store := { st with
          seqCounter := st.seqCounter + 1
          lastGiven := st.seqCounter
          pageBuf := if st.programming then st.pageBuf else st.pageBuf ++ [⟨st.seqCounter, b, s.now⟩]
          second := if st.programming then st.second ++ [⟨st.seqCounter, b, s.now⟩] else st.second
          programming := t.store.programming
          progs := t.store.progs }
        startup := { s.startup with conds := { s.startup.conds with storeFull := t.startup.conds.storeFull } } } ∧
      (st.programming = true → t.store.programming = true ∧ t.store.progs = st.progs) ∧
      (st.programming = false →
        let due := st.target ≤ st.pageBuf.length + 1 ∨ st.flushing = true
        (due → t.store.programming = true ∧ t.store.progs = st.progs ++ [.logPage]) ∧
        (¬ due → t.store.programming = false ∧ t.store.progs = st.progs)) ∧
      (s.scanned = true → t.startup.conds.storeFull = (s.startup.conds.storeFull || !t.store.hasRoom)))

/-- What PRESENCE carries (3.2, 11.4): run state, run and plan, the conditions bit by bit, the adopted shares, the participation view, the
free sectors and the revision; and when a slot participates (3.3). -/
def Obligations.PresenceContent : Prop :=
  ∀ s : State,
    let p := s.presencePayload
    let c := s.startup.conds
    (∀ t, s.presence.item = some t → s.offer2 = some ⟨t, ⟨2, BitVec.ofNat 4 s.slot, 15, presenceBytes p⟩⟩) ∧
    (presenceBytes p).length = 14 ∧ p.revision = 2 ∧ p.run = s.engine.currentRun.getD 0 ∧
    p.runState = (match s.engine.runState with
      | none | some .blank => 0
      | some .loadingErase => 1
      | some .loadingData => 2
      | some .ready => 3
      | some .rebuilding => 4
      | some .running => 5
      | some .closing => 6) ∧
    p.plan = (match s.engine.runState with
      | none | some .blank => 0
      | some .loadingErase | some .loadingData => s.dock.load.ident
      | _ => (s.engine.plan.map (·.ident)).getD 0) ∧
    p.freeSectors = BitVec.ofNat 16 (s.store.rows.countP (·.state == .erased)) ∧
    (∀ n, 1 ≤ n → n ≤ 8 →
      p.adopted.getLsbD (n - 1) = decide (n ≤ s.settings.collectors ∧ s.shareState n = .adopted) ∧
      p.participation.getLsbD (n - 1) = if n = s.slot then decide (s.engine.runState = some .running) else s.participates n) ∧
    (List.range 16).map p.conditions.getLsbD = [c.fresh, c.intakeOverrun, c.positionStale, c.storeFull, c.storeFault, c.txFault,
      c.duplicateSlot, c.configDefaulted, s.engine.plan.isNone, decide (0 < s.engine.ownUntracked + (s.engine.untracked.map (·.2)).sum),
      false, false, false, false, false, false] ∧
    (∀ n, s.participates n = true ↔ ∃ v, s.presence.entry n = some v ∧ (s.now - v.lastHeard).toNat < 2000 ∧
      (v.presumed.isSome = true ∨ ∃ x, v.contents = some x ∧ x.runState = 5 ∧ s.engine.currentRun = some x.run ∧
        s.engine.plan.map (·.ident) = some x.plan))

/-! ## What each command does: start, intake line, rack line -/

/-- START and POWER_LOSS (11.1, 9.1): RAM state is lost, flash and configuration memory are kept but for what a program, an erase or a save
in progress was writing; what those leave is free (9.1, 11.3; logs 7 and 8). START while powered is a loss and then a start (log 32), and a
POWER_LOSS of a station without power leaves the state as it is (the model's choice, log 2). -/
def Obligations.StartAndPowerLoss : Prop :=
  ∀ (straps : BitVec 3) (s : State),
    (s.startup.powered = false →
      exec (.start straps) s = .next (State.afterStart true straps s.store.flash s.startup.cfg s.freeIndex s.pending) ∧
      exec .powerLoss s = .next s) ∧
    (s.startup.powered = true → (∀ x ∈ s.flashTargets, inFlash x.1 x.2 = true) →
      ∃ flash cfg : Memory,
        exec (.start straps) s = .next (State.afterStart true straps flash cfg (s.freeIndex + 3) s.pending) ∧
        exec .powerLoss s = .next (State.afterStart false s.startup.straps flash cfg (s.freeIndex + 3) s.pending) ∧
        (s.flashTargets = [] → flash = s.store.flash) ∧
        (s.store.flash.wf = true → ∀ a, (∀ x ∈ s.flashTargets, ¬ (x.1 ≤ a ∧ a < x.1 + x.2)) →
          flash.read a = s.store.flash.read a) ∧
        (s.startup.save = none → cfg = s.startup.cfg) ∧
        (s.startup.cfg.wf = true → ∀ a, 98 ≤ a → cfg.read a = s.startup.cfg.read a))

/-- CONFIG_READ and CONFIG_ANSWER_TIMEOUT (11.2): the image read with a good CRC, or the default image with CONFIG_DEFAULTED set, by the
timeout no earlier than 2 ms after the read command, which step 2 gives at station time 0 (log 1); the settings in use formed from it; the
share states and the map of owners for the new N (3.4, 3.5), every share its own slot's while the view stands as after start (3.8); step 3
next. -/
def Obligations.ConfigurationTaken : Prop :=
  ∀ s : State, s.startup.powered = true → s.startup.step = .config →
    (let bytes := s.startup.cfg.readBytes 0 98
     exec .configRead s = .next (settle
      (if crc16 bytes = 0 then takeImage (bytes.take 96) false s else takeImage defaultImage true s))) ∧
    (2 ≤ s.now.toNat → exec .configAnswerTimeout s = .next (settle (takeImage defaultImage true s))) ∧
    (s.now.toNat < 2 → exec .configAnswerTimeout s = .next s) ∧
    (∀ (image : List Byte) (d : Bool),
      let t := takeImage image d s
      let n := (settingsOf image).collectors
      t = { s with
        startup := { s.startup with
          image := image
          settings := settingsOf image
          step := .scan
          conds := { s.startup.conds with configDefaulted := s.startup.conds.configDefaulted || d } }
        presence := { s.presence with
          shares := (List.range n).map fun i => if i + 1 = s.slot then .own else .notMine
          owners := (List.range n).map fun i => s.effectiveOwner (i + 1)
          adoptQueue := [] } } ∧
      (s.presence.view = (Presence.afterStart s.slot n).view → s.now.toNat < 2000 →
        t.presence.owners = (List.range n).map fun i => i + 1))

/-- START_UP_SCAN (9.9): from a powered station in step 3 it answers, whatever the flash holds, and only the store, the interrupted run,
the request of the plan check and the step change. Every log sector is classified from its header, first matching row of the table, with
its sector sequence, erase count and the first and last numbers of its records. The head sector is the OPENED one of highest sequence, its
head after the last slot used, or on the next page where that page holds a slot that fails its CRC; past the end the sector is FULL. With
no sector left OPENED the candidate is opened if it is ERASED. Every other OPENED sector is FULL, and the FULL marks not set are requested.
The sequence counter is one past the highest accepted record or the greatest reserve entry, or 1, and the durable bound with it; the next
sector sequence, the upload mark and the erase list follow from the intact headers, and the interrupted run is the newest RUN MARK(open)
accepted with no RUN MARK(close) accepted after it. What counts as an intact header is the model's reading (log 50), as are the erase count
of a header that cannot be read (log 17) and the walk through RETIRED sectors (log 47). The FULL marks wait in the order that log 58
chooses. The records that a walk of the log accepts (9.3): those in used slots of sectors in log order whose CRC checks good, in log order,
each number above every number accepted before it; the tail, passing over RETIRED sectors; and whether a record is in log order still. The
next sector sequence may lie past 4,294,967,294 (the model's choice, log 64). -/
def Obligations.ScanRecovers : Prop :=
  (∀ h : SectorHeader, h.intact = true ↔ h.magicGood = true ∧ h.crcGood = true ∧
    (h.opened = true ∨ h.uploaded = true ∨ h.eraseBegun = true ∨ h.retired = true)) ∧
  (∀ s : State, s.startup.powered = true → s.startup.step = .scan →
    let flash := s.store.flash
    let header := fun n => headerOf (flash.readBytes (slotAddress n 0) 32)
    let slot := fun n k => flash.readBytes (slotAddress n k) 32
    let free := fun n k => slot n k = List.replicate 32 0xFF
    let inLog := fun n => 128 ≤ n ∧ n < 512
    let plain := fun n => (header n).retired = false ∧ (header n).allOnes = false
    let read := fun n => (header n).magicGood = true ∧ (header n).crcGood = true
    let isOpened := fun n => inLog n ∧ plain n ∧ read n ∧ (header n).eraseBegun = false ∧ (header n).uploaded = false ∧
      (header n).opened = true
    ∃ t : State, exec .startUpScan s = .next (settle t) ∧
      t = { s with
        store := { t.store with
          flash := flash
          pageBuf := s.store.pageBuf
          second := s.store.second
          programming := s.store.programming
          flushing := s.store.flushing
          planErase := s.store.planErase
          serving := s.store.serving
          erase := s.store.erase
          dropped := s.store.dropped
          faults := s.store.faults }
        engine := { s.engine with
          interrupted := t.engine.interrupted
          requests := s.engine.requests ++ [.planCheck] }
        startup := { s.startup with step := .planCheck } } ∧
      t.store.rows.map (·.sector) = (List.range 384).map (· + 128) ∧
      -- the sector table (R170, R172)
      (∀ row ∈ t.store.rows,
        let h := header row.sector
        row.abandoned = 0 ∧
        (h.retired = true → row.state = .retired ∧ row.seq = if h.crcGood then some h.seq else none) ∧
        (plain row.sector → read row.sector →
          (h.eraseBegun = true → row.state = .erasing ∧ row.seq = some h.seq) ∧
          (h.eraseBegun = false → h.uploaded = true → row.state = .uploaded ∧ row.seq = some h.seq) ∧
          (h.eraseBegun = false → h.uploaded = false → h.opened = true →
            (row.state = .opened ∨ row.state = .full) ∧ row.seq = some h.seq) ∧
          (h.eraseBegun = false → h.uploaded = false → h.opened = false → row.state = .eraseListed ∧ row.seq = none)) ∧
        (plain row.sector → ¬ read row.sector → row.seq = none ∧ row.state = if h.eraseBegun then .erasing else .eraseListed) ∧
        (flash.wf = true → h.allOnes = true →
          row.seq = none ∧
          ((∀ k, 1 ≤ k → k ≤ 127 → free row.sector k) → row.state = .erased) ∧
          (∀ k, 1 ≤ k → k ≤ 127 → ¬ free row.sector k → row.state = .eraseListed)) ∧
        (h.intact = true → row.eraseCount = h.eraseCount) ∧
        (h.intact = false →
          (∀ n, inLog n → (header n).intact = true → (header n).eraseCount ≤ row.eraseCount) ∧
          (row.eraseCount = 0 ∨ ∃ n, inLog n ∧ (header n).intact = true ∧ row.eraseCount = (header n).eraseCount)) ∧
        (∀ q, row.seq = some q → row.state.inLog = true →
          let own := t.store.walk.filter fun r => r.pos.sector == q
          row.first = own.head?.map (·.number) ∧ row.last = own.getLast?.map (·.number)) ∧
        (row.seq = none ∨ row.state.inLog = false → row.first = none ∧ row.last = none)) ∧
      -- the head (R171)
      (∀ n, isOpened n → (∀ m, isOpened m → m ≠ n → (header m).seq < (header n).seq) →
        (∀ m, isOpened m → m ≠ n → ∀ row ∈ t.store.rows, row.sector = m → row.state = .full) ∧
        ((∀ k, 1 ≤ k → k ≤ 127 → free n k) → t.store.head = some (n, 1)) ∧
        (∀ k, 1 ≤ k → k ≤ 127 → ¬ free n k → (∀ j, k < j → j ≤ 127 → free n j) →
          let spoiled := ∃ j, 1 ≤ j ∧ j / 8 = k / 8 ∧ ¬ free n j ∧ recordGood (slot n j) = false
          ∀ next, (spoiled → next = (k / 8 + 1) * 8) → (¬ spoiled → next = k + 1) →
            (next < 128 → t.store.head = some (n, next)) ∧
            (128 ≤ next → ∀ m, t.store.head ≠ some (n, m))) ∧
        (∀ row ∈ t.store.rows, row.sector = n → (row.state = .opened ↔ ∃ m, t.store.head = some (n, m)))) ∧
      ((∀ row ∈ t.store.rows, row.state ≠ .opened) →
        (t.store.candidateErased = false → t.store.head = none) ∧
        (∀ r, t.store.candidate = some r → r.state = .erased → t.store.head = some (r.sector, 1) ∧
          t.store.opening = some ⟨r.sector, t.store.sectorSeq, r.eraseCount, t.store.seqCounter⟩ ∧
          t.store.progs = s.store.progs ++ [.opening])) ∧
      ((∃ row ∈ t.store.rows, row.state = .opened) → t.store.opening = s.store.opening ∧ t.store.progs = s.store.progs) ∧
      (s.store.serving = none → ∀ m, m ∈ t.store.marks ↔ ∃ n, m = .full n ∧ isOpened n ∧ (header n).full = false ∧
        ∃ row ∈ t.store.rows, row.sector = n ∧ row.state = .full) ∧
      -- what is recovered (R172)
      (1 ≤ t.store.seqCounter ∧ t.store.durableBound = t.store.seqCounter ∧
        (∀ r ∈ t.store.walk, r.number < t.store.seqCounter) ∧
        (∀ n, inLog n → (header n).intact = true → ∀ b ∈ (header n).reserves, b ≤ t.store.seqCounter) ∧
        (t.store.seqCounter = 1 ∨ (∃ r ∈ t.store.walk, t.store.seqCounter = r.number + 1) ∨
          ∃ n, inLog n ∧ (header n).intact = true ∧ t.store.seqCounter ∈ (header n).reserves)) ∧
      ((∀ n, inLog n → (header n).intact = true → (header n).seq < t.store.sectorSeq) ∧
        (t.store.sectorSeq = 1 ∨ ∃ n, inLog n ∧ (header n).intact = true ∧ t.store.sectorSeq = (header n).seq + 1)) ∧
      ((∀ n k, inLog n → (header n).intact = true → (header n).uploaded = true → 1 ≤ k → k ≤ 127 → recordGood (slot n k) = true →
          fieldOf (slot n k) 0 4 ≤ t.store.uploadMark) ∧
        (t.store.uploadMark = 0 ∨ ∃ n k, inLog n ∧ (header n).intact = true ∧ (header n).uploaded = true ∧ 1 ≤ k ∧ k ≤ 127 ∧
          recordGood (slot n k) = true ∧ fieldOf (slot n k) 0 4 = t.store.uploadMark)) ∧
      ((∀ r ∈ t.store.walk, r.number ≤ t.store.lastGiven) ∧
        (t.store.lastGiven = 0 ∨ ∃ r ∈ t.store.walk, r.number = t.store.lastGiven)) ∧
      ((∀ i ∈ t.store.eraseList, i.scanPlaced = true ∧ i.phase = .listed) ∧
        (t.store.eraseList.map (·.sector)).Nodup ∧
        (∀ n, n ∈ t.store.eraseList.map (·.sector) ↔
          ∃ row ∈ t.store.rows, row.sector = n ∧ (row.state = .erasing ∨ row.state = .eraseListed)) ∧
        t.store.eraseList.Pairwise (fun a b =>
          let x := header a.sector
          let y := header b.sector
          (x.intact = true → y.intact = true ∧ x.seq ≤ y.seq) ∧
          (x.intact = false → y.intact = false → a.sector < b.sector))) ∧
      (∀ m, t.engine.interrupted = some m ↔ ∃ before r later, t.store.walk = before ++ r :: later ∧ r.kind = 1 ∧ r.counter = 1 ∧
        (∀ x ∈ later, ¬ (x.kind = 1 ∧ (x.counter = 1 ∨ x.counter = 2))) ∧ m = ⟨r.run, r.pos, r.number⟩)) ∧
  -- the walk, the tail and what log order holds (R158)
  (∀ st : Store,
    let slot := fun n k => st.flash.readBytes (slotAddress n k) 32
    let holds := fun (n q k : Nat) => (∃ x ∈ st.rows, x.sector = n ∧ x.seq = some q ∧
      (x.state = .opened ∨ x.state = .full ∨ x.state = .uploaded ∨ x.state = .eraseListed ∨ x.state = .retired)) ∧
      slot n k ≠ List.replicate 32 0xFF ∧ crc16 (slot n k) = 0
    let before := fun (a b : LogPos) => a.sector < b.sector ∨ (a.sector = b.sector ∧ a.slot < b.slot)
    (∀ r ∈ st.walk, 0 < r.number ∧ 1 ≤ r.pos.slot ∧ r.pos.slot ≤ 127 ∧
      ∃ n, holds n r.pos.sector r.pos.slot ∧ r = recordOf r.pos (slot n r.pos.slot)) ∧
    st.walk.Pairwise (fun a b => a.number < b.number) ∧
    ((st.rows.filterMap (·.seq)).Nodup →
      st.walk.Pairwise (fun a b => before a.pos b.pos) ∧
      ∀ n q k, holds n q k → 1 ≤ k → k ≤ 127 →
        let r := recordOf ⟨q, k⟩ (slot n k)
        (r ∈ st.walk ↔ 0 < r.number ∧ ∀ x ∈ st.walk, before x.pos r.pos → x.number < r.number)) ∧
    st.tail = ({ st with rows := st.rows.filter fun x => x.state != .retired } : Store).walk.head? ∧
    (∀ (pos : LogPos) (number : Nat), st.holdsAt pos number = true ↔
      ∃ n, holds n pos.sector pos.slot ∧ fieldOf (slot n pos.slot) 0 4 = number))

/-- INTAKE_CHARACTER and LINE_RETURN_HIGH (1.3): the line receiver on good and spoiled characters, and the gap timer. -/
def Obligations.IntakeCharacters : Prop :=
  (∀ (data : Byte) (parity stop : Bool) (s : State), s.startup.powered = true → s.radio.awaitHigh = false →
    let ones := ((List.range 8).filter fun i => data.getLsbD i).length + (if parity then 1 else 0)
    let good := decide (ones % 2 = 0) && stop
    let r := s.radio
    let spoiled := { r with
      line := .spoiled
      lineErrors := min (r.lineErrors + 1) 65535 }
    let r' := match r.line, good with
      | .spoiled, _ => r
      | .idle, true => if data = 16 then { r with line := .assembling [16] } else spoiled
      | .assembling bs, true => if bs.length < 17 then { r with line := .assembling (bs ++ [data]) } else spoiled
      | _, false => spoiled
    exec (.intakeCharacter data parity stop) s = .next { s with radio := { r' with
      gapRunning := stop
      awaitHigh := !stop } }) ∧
  (∀ s : State, s.startup.powered = true → s.radio.awaitHigh = true →
    exec .lineReturnHigh s = .next { s with radio := { s.radio with
      gapRunning := true
      awaitHigh := false } })

/-- GAP_EXPIRY (1.3 to 1.5): a frame of 17 bytes is judged for its channel, its CRC, its meter ID and kind, the run state and the room of
the intake queue, in that order; any other frame in progress is a line error, and a spoiled one is thrown away. -/
def Obligations.GapExpiryJudges : Prop :=
  ∀ s : State, s.startup.powered = true → s.radio.gapRunning = true → s.radio.awaitHigh = false → s.radio.line ≠ .idle →
    let idle := { s.radio with
      line := .idle
      gapRunning := false }
    let up := fun n => min (n + 1) 65535
    let lineError := { s with radio := { idle with lineErrors := up s.radio.lineErrors } }
    exec .gapExpiry s = .next (settle (match s.radio.line with
      | .assembling bs =>
        let bubble := (bs.drop 1).take 14
        let id := BitVec.ofNat 32 (numberOf (bubble.take 4))
        let kind := (bubble.getD 10 0).toNat % 16
        let p : Packet := {
          meterId := id
          counter := BitVec.ofNat 16 (numberOf ((bubble.drop 4).take 2))
          reading := BitVec.ofNat 32 (numberOf ((bubble.drop 6).take 4))
          digits := BitVec.ofNat 4 ((bubble.getD 10 0).toNat / 16)
          alarm := kind == 2
          flags := bubble.getD 11 0 &&& 0xFC
          rssi := bs.getD 15 0
          channel := bs.getD 16 0 }
        if bs.length ≠ 17 ∨ 15 < (bs.getD 16 0).toNat then lineError
        else if crc16 bubble ≠ 0 then { s with radio := { idle with intakeCrc := up s.radio.intakeCrc } }
        else if id = 0 ∨ id = 0xFFFFFFFF ∨ (kind ≠ 1 ∧ kind ≠ 2) then
          { s with radio := { idle with malformed := up s.radio.malformed } }
        else if s.engine.runState ≠ some .running then { s with radio := { idle with outOfRun := up s.radio.outOfRun } }
        else if s.radio.queue.length < 16 then { s with radio := { idle with queue := s.radio.queue ++ [p] } }
        else { s with
          radio := { idle with overrun := up s.radio.overrun }
          startup := { s.startup with conds := { s.startup.conds with intakeOverrun := true } } }
      | _ => { s with radio := idle }))

/-- SEARCHING_COMPLETE, RECEIVE_ERROR and DUPLICATE_FRAME (2.3): the receiver's next state, the count of a fault unless the frame was this
station's own (2.5), and the record of a duplicated slot. That a receiver past a judged frame is IDLE at once (log 11), and that no frame
of this station's own is on the bus once a frame with a fault, or a duplicate, has been judged (DEDUCED, log 10), are the model's readings;
so is SEARCHING after any other violation that follows a failed CRC (log 40). -/
def Obligations.ReceiverJudges : Prop :=
  (∀ s : State, s.startup.powered = true → s.rack.rx = .searching →
    exec .searchingComplete s = .next (settle { s with rack := { s.rack with rx := .idle } })) ∧
  (∀ (bits : List Bool) (s : State) (v : LineVerdict), s.startup.powered = true →
    (s.rack.rx = .idle ∨ s.rack.rx = .frame ∨ s.rack.rx = .ownSpoiled) → judgeBits bits = some v → v ≠ .valid true →
    let isCrc := v = .crcFailure true ∨ v = .crcFailure false
    let isFormat := v = .stuffViolation ∨ v = .lengthAbove48 ∨ v = .endFieldDominant
    exec (.receiveError bits) s = .next (settle { s with rack := { s.rack with
      rx := if v = .crcFailure true then .idle else .searching
      sending := none
      rxCrc := if isCrc ∧ s.rack.rx ≠ .ownSpoiled then min (s.rack.rxCrc + 1) 65535 else s.rack.rxCrc
      rxFormat := if isFormat ∧ s.rack.rx ≠ .ownSpoiled then min (s.rack.rxFormat + 1) 65535 else s.rack.rxFormat } })) ∧
  (∀ s : State, s.startup.powered = true → (s.rack.rx = .idle ∨ s.rack.rx = .frame ∨ s.rack.rx = .ownSpoiled) →
    exec .duplicateFrame s = .next (settle { s with
      rack := { s.rack with
        rx := .idle
        sending := none
        lastDuplicate := some s.now }
      startup := { s.startup with conds := { s.startup.conds with duplicateSlot := true } } }))

/-- Valid frames from other stations (2.3, 2.4): of every command that is a frame, the heard report of a collector's frame and FRESH
cleared, before step 6 nothing more, a wrong length not even counted (the model's reading, log 51); a frame from this station's own slot is
a duplicate; a frame that the receiver does not follow does nothing (the model's choice, log 2). The heard report recomputes the map before
the frame's delivery (the model's reading, log 57). Of RACK_FRAME_OTHER past step 6, what the receive filter's reading of the frame counts:
a format error, a run reject (8.2), a dock reject (10.1), or the delivery of the command it reads as (DEDUCED, log 33). The receiver is
IDLE at once after the frame (log 11), unless a frame of this station's own is on the bus. No frame from another station takes it off the
bus, whatever its delivery does to the item: it ends by its own outcome (2.5; log 10), and where its item has left its producer by then,
FRAME_SENT tells nobody and clears the retry item alone. -/
def Obligations.FramesHeard : Prop :=
  (∀ (c : Instr) (n : Nat) (s : State), s.startup.powered = true → frameSource c = some n →
    (s.follows = false → exec c s = .next s) ∧
    (s.follows = true → n = s.slot → exec c s = exec .duplicateFrame s) ∧
    (s.follows = true → n ≠ s.slot → s.startup.step ≠ .up →
      exec c s = .next (settle (if isCollector n then heardReport s.received n else s.received)))) ∧
  (∀ (f : RackFrame) (s : State), s.startup.powered = true → s.follows = true → f.src.toNat ≠ s.slot → s.startup.step = .up →
    let u := if isCollector f.src.toNat then heardReport s.received f.src.toNat else s.received
    exec (.rackFrameOther f) s = .next (settle (match readFrame s.slot f with
      | .setAside => u
      | .formatError => { u with rack := { u.rack with rxFormat := min (u.rack.rxFormat + 1) 65535 } }
      | .runReject => { u with engine := { u.engine with runReject := min (u.engine.runReject + 1) 65535 } }
      | .dockReject => { u with dock := { u.dock with rejects := min (u.dock.rejects + 1) 65535 } }
      | .delivered c => deliverCommand c u))) ∧
  (∀ s : State, s.received = { s with
    rack := { s.rack with rx := if s.rack.sending.isSome then s.rack.rx else .idle }
    startup := { s.startup with conds := { s.startup.conds with fresh := false } } }) ∧
  (∀ (c : Instr) (n : Nat) (s t : State) (x : Sending), frameSource c = some n → n ≠ s.slot → s.rack.sending = some x →
    exec c s = .next t →
    t.rack.sending = some x ∧ t.rack.rx = s.rack.rx ∧
    (t.startup.powered = true → t.isLive x.frame.cls.toNat x.tag = false →
      exec .frameSent t = .next (settle { t with rack := { t.rack with
        rx := .idle
        sending := none
        retry := none } })))

/-- FRAME_SENT, ARBITRATION_LOSS and TRANSMIT_ERROR (2.5): the item finished, kept, or counted toward the eighth error, at which it is
dropped; and what becomes of the finished item of each class: a relay entry has its send counted, its target held and its phase WAITING
(7.2), a HANDOVER's HANDING entry is removed (3.7), its kept record handed to the store, its HANDOVERs and its revisit item gone (4.6).
After FRAME_SENT the receiver is IDLE at once (2.3; the model's choice, log 11). After a transmit error it is IDLE where the start bit
itself was read as recessive, the selector then choosing again at once (log 61), and else follows what is left of the frame, uncounted (log
49). An error on a frame whose item has left its producer leaves the retry item as it is (log 42), and an item that is held back while with
its producer is the retry item still (log 56). -/
def Obligations.OwnFramesSettled : Prop :=
  (∀ (s : State) (x : Sending), s.startup.powered = true → s.rack.sending = some x →
    let cls := x.frame.cls.toNat
    exec .frameSent s = .next (settle (finishFrame { s with rack := { s.rack with
      rx := .idle
      sending := none
      retry := none } } x)) ∧
    exec .arbitrationLoss s = .next (settle { s with rack := { s.rack with
      rx := .frame
      sending := none } }) ∧
    (let n := match s.rack.retry with
      | some r => if r.cls = cls ∧ r.tag = x.tag then r.count + 1 else 1
      | none => 1
     ∀ atStart : Bool,
     let u := { s with rack := { s.rack with
      rx := if atStart then .idle else .ownSpoiled
      sending := none
      txErrors := min (s.rack.txErrors + 1) 65535 } }
     exec (.transmitError atStart) s = .next (settle (
      if s.isLive cls x.tag = false then u
      else if n < 8 then { u with rack := { u.rack with retry := some ⟨cls, x.tag, n⟩ } }
      else finishFrame { u with
        rack := { u.rack with
          retry := none
          txDrops := min (s.rack.txDrops + 1) 65535 }
        startup := { s.startup with conds := { s.startup.conds with txFault := true } } } x)))) ∧
  (∀ (s : State) (x : Sending), s.isLive x.frame.cls.toNat x.tag = false → finishFrame s x = s) ∧
  (∀ (s : State) (e : Entry),
    let v := match e.kept with
      | some b => appendOrDrop s b
      | none => s
    removeEntry s e = { v with
      engine := { s.engine with
        table := s.engine.table.filter fun x => x.meterId != e.meterId
        handing := s.engine.handing.filter fun i => i.meterId != e.meterId }
      tracker := { s.tracker with
        rows := (removeEntry s e).tracker.rows
        revisit := if e.status = .missed then s.tracker.revisit.filter (· != ⟨e.meterId, e.segment, e.planIndex⟩)
          else s.tracker.revisit } }) ∧
  (∀ (s : State) (x : Sending), s.isLive x.frame.cls.toNat x.tag = true →
    (x.frame.cls = 2 → finishFrame s x = { s with presence := { s.presence with item := none } }) ∧
    (x.frame.cls = 3 → finishFrame s x = { s with relay := { s.relay with heldPending := s.relay.heldPending.filter (·.tag != x.tag) } }) ∧
    (x.frame.cls = 5 → finishFrame s x = { s with relay := { s.relay with list := s.relay.list.map fun e =>
      if e.tag = x.tag then { e with
        sends := e.sends + 1
        lastSend := some s.now
        target := some x.frame.dst.toNat
        phase := .waiting } else e } }) ∧
    (x.frame.cls = 6 → finishFrame s x = { s with engine := { s.engine with notices := s.engine.notices.filter (·.tag != x.tag) } }) ∧
    (x.frame.cls = 7 → finishFrame s x = { s with tracker := { s.tracker with tallies := s.tracker.tallies.filter (·.tag != x.tag) } }) ∧
    (x.frame.cls = 9 → finishFrame s x = { s with tracker := { s.tracker with reply := none } }) ∧
    (x.frame.cls = 4 → ∀ i, s.engine.handing.find? (·.tag == x.tag) = some i →
      (∀ e, s.engine.lookup i.meterId = some e → e.status = .handing → finishFrame s x = removeEntry s e) ∧
      ((∀ e, s.engine.lookup i.meterId = some e → e.status ≠ .handing) →
        finishFrame s x = { s with engine := { s.engine with handing := s.engine.handing.filter (·.tag != x.tag) } })) ∧
    (x.frame.cls = 11 → ∀ d, s.dock.session.data = some d → d.tag = x.tag → finishFrame s x = finishUpload s d.number) ∧
    (x.frame.cls = 11 → (∀ d, s.dock.session.data = some d → d.tag ≠ x.tag) →
      finishFrame s x = { s with dock := { s.dock with replies := s.dock.replies.filter (·.tag != x.tag) } }))

/-! ## What each command does: runs, positions, peers -/

/-- RUN_OPEN (8.2, 8.3): the table of the rule by run state, open in progress and run number; a new run is opened, the interrupted run is
resumed, and what is neither is ignored or counted. An accepted one ends the session (10.2): the pending UPLOAD DATA withdrawn, so that it
is pending no longer while its frame on the bus completes (2.5), the synthesized list discarded, an upload read in progress left without a
reader; its figures stay, and a request for a number is dropped (the model's choices, logs 59 and 54). -/
def Obligations.RunOpenJudged : Prop :=
  (∀ (run day : BitVec 16) (s : State), Hears s 10 →
    let u := s.received
    let reject := { u with engine := { u.engine with runReject := min (u.engine.runReject + 1) 65535 } }
    exec (.runOpen run day) s = .next (settle (match s.engine.runState, s.engine.openingRun with
      | some .ready, none =>
        if run = 0 then reject
        else match s.engine.interrupted with
          | some m => if m.run = run then resumeRun m day u else openNewRun run day u
          | none => openNewRun run day u
      | some .ready, some r => if r = run then u else reject
      | some .rebuilding, _ | some .running, _ => if s.engine.currentRun = some run then u else reject
      | _, _ => u))) ∧
  (∀ (run day : BitVec 16) (u : State),
    openNewRun run day u = { u with
      engine := { u.engine with
        openingRun := some run
        runDay := day
        interrupted := none
        requests := u.engine.requests ++ [.runReset] }
      tracker := { u.tracker with
        rows := u.tracker.rows.map fun r => { r with state := .ahead }
        tallies := []
        tallyDrop := min (u.tracker.tallyDrop + u.tracker.tallies.length) 65535
        segment := 0
        stale := true }
      dock := (endSession u).dock
      store := (endSession u).store }) ∧
  (∀ u : State, endSession u = { u with
    dock := { u.dock with session := { u.dock.session with
      state := .none
      readPos := none
      synthList := []
      toSynth := []
      pauseSince := none
      data := none
      ask := none
      numberWait := false } }
    store := { u.store with serving := match u.store.serving with
      | some (.uploadRead _) => some (.uploadRead false)
      | x => x } }) ∧
  (∀ (u : State) (tag : Nat), (∀ r ∈ u.dock.replies, r.tag ≠ tag) → (endSession u).isLive 11 tag = false) ∧
  (∀ (m : Interrupted) (day : BitVec 16) (u : State),
    let t := resumeRun m day u
    t.rack = u.rack ∧
    t.engine.runState = some .rebuilding ∧ t.engine.currentRun = some m.run ∧ t.engine.runDay = day ∧ t.engine.interrupted = none ∧
    t.engine.requests = u.engine.requests ++ [.resetRebuild m] ∧ t.dock = (endSession u).dock ∧
    t.tracker = { u.tracker with
      rows := u.tracker.rows.map fun r => { r with state := .ahead }
      tallies := []
      tallyDrop := min (u.tracker.tallyDrop + u.tracker.tallies.length) 65535
      segment := 0
      stale := true })

/-- RUN_CLOSE (8.4): judged by run state and run number; an accepted one empties both packet queues, ends every adoption, disposes of the
relay list, closes every segment and places the close release alone. The moved items of the relay intake queue, then the entries of the
relay list, each in order, are self-stored as RELAY-UNCONFIRMED records and counted (7.2, 7.3, 7.5), every other item counted as relay out
of run. A load in progress stops, the entries it has made removed (3.6), and a read in progress for it or for the rebuild scan is left
without a reader. A packet operation in progress runs to its end on what it reads before the close, as 8.4 says (log 26). That the untracked
counts of the adopted shares go at the close itself is the model's choice (log 24; 4.4). -/
def Obligations.RunCloseCloses : Prop :=
  (∀ (run day : BitVec 16) (s : State), Hears s 10 →
    let u := s.received
    let reject := { u with engine := { u.engine with runReject := min (u.engine.runReject + 1) 65535 } }
    exec (.runClose run day) s = .next (settle (match s.engine.runState, s.engine.openingRun with
      | some .ready, some _ => reject
      | some .rebuilding, _ | some .running, _ => if s.engine.currentRun = some run then closeRun u else reject
      | _, _ => u))) ∧
  (∀ u : State,
    let t := closeRun u
    let kept := u.engine.requests.filter fun r => match r with
      | .resetRebuild _ => false
      | _ => true
    t.engine.runState = some .closing ∧ t.engine.currentRun = u.engine.currentRun ∧ t.engine.releases = [.close] ∧
    t.radio = { u.radio with
      queue := []
      outOfRun := min (u.radio.outOfRun + u.radio.queue.length) 65535 } ∧
    t.engine.relayQueue = [] ∧ t.relay.list = [] ∧ t.relay.heldMemory = u.relay.heldMemory ∧ t.relay.heldPending = u.relay.heldPending ∧
    t.presence.adoptQueue = [] ∧ t.presence.shares = u.presence.shares.map (fun x => if x = .own then .own else .notMine) ∧
    t.engine.untracked = [] ∧
    t.engine.op = (match u.engine.op with
      | .load _ _ | .rebuild _ _ => .idle
      | .packet item none => .packet item
        (some ⟨decide (item.pair ∈ u.relay.heldMemory), u.shareState (u.shareOf item.pair.meterId)⟩)
      | x => x) ∧
    t.engine.table = (match u.engine.op with
      | .load n _ => u.engine.table.filter fun e => e.origin != .adopted n
      | _ => u.engine.table) ∧
    t.store.serving = (match u.engine.op, u.store.serving with
      | .load _ _, some (.planRead _) | .rebuild _ _, some (.planRead _) => some (.planRead false)
      | .load _ _, some (.rebuildRead _) | .rebuild _ _, some (.rebuildRead _) => some (.rebuildRead false)
      | _, x => x) ∧
    t.tracker.watchdog = none ∧ t.tracker.segment = u.tracker.segment ∧ t.tracker.revisit = u.tracker.revisit ∧
    t.tracker.rows = u.tracker.rows.map (fun r => { r with state := .closed }) ∧
    t.engine.requests = kept ++ (u.tracker.rows.filter (·.state != .closed)).map (fun r => StationReq.closure r.segment) ∧
    (let moved := u.engine.relayQueue.filterMap fun i => match i with
       | .moved p segment stale => some (unconfirmedRecord u p segment stale none)
       | _ => none
     let records := moved ++ u.relay.list.map fun e => unconfirmedRecord u e.packet e.segment e.stale e.target
     t.store = { (records.foldl appendOrDrop u).store with serving := t.store.serving } ∧
     t.startup = (records.foldl appendOrDrop u).startup ∧
     (u.relay.unconfirmed ≤ 65535 → t.relay.unconfirmed = min (u.relay.unconfirmed + records.length) 65535) ∧
     (u.engine.relayOutOfRun ≤ 65535 →
       t.engine.relayOutOfRun = min (u.engine.relayOutOfRun + (u.engine.relayQueue.length - moved.length)) 65535))) ∧
  (∀ (u : State) (p : Packet) (segment : Nat) (stale : Bool) (target : Option Nat),
    unconfirmedRecord u p segment stale target = {
      kind := .relayUnconfirmed
      origin := .unconfirmed target
      meterId := p.meterId
      counter := p.counter
      reading := p.reading
      digits := p.digits
      flags := p.flags
      run := u.engine.currentRun.getD 0
      segment := segment
      stale := stale
      late := false
      alarm := p.alarm
      active := 0
      raised := 0
      score := 0
      rssi := p.rssi
      channel := p.channel })

/-- POSITION and POSITION_WATCHDOG_EXPIRY (8.6, 8.8): current segment, watchdog, stale state, the segments opened and closed and their
markings requested in order; outside RUNNING or with another flag byte nothing. -/
def Obligations.PositionFollowed : Prop :=
  (∀ (valid : Byte) (segment : BitVec 16) (s : State), Hears s 9 →
    let u := s.received
    let p := min segment.toNat (s.tracker.rows.length - 1)
    let l := s.settings.lookback
    let opened := u.tracker.rows.map fun r => if r.state = .ahead ∧ r.segment ≤ p then { r with state := .opened } else r
    let left := fun (r : SegmentRow) => decide (r.state = .opened ∧ r.segment + l ≤ p)
    exec (.position valid segment) s = .next (settle (
      if s.engine.runState = some .running ∧ valid = 1 then
        { u with
          tracker := { u.tracker with
            segment := p
            watchdog := some s.now
            stale := false
            rows := opened.map fun r => if left r then { r with state := .closed } else r }
          engine := { u.engine with
            requests := u.engine.requests ++ (opened.filter left).map fun r => StationReq.closure r.segment } }
      else u))) ∧
  (∀ (s : State) (t : Time), s.startup.powered = true → s.engine.runState = some .running → s.tracker.watchdog = some t →
    s.settings.positionTimeout ≤ (s.now - t).toNat →
    exec .positionWatchdogExpiry s = .next (settle { s with
      tracker := { s.tracker with
        stale := true
        watchdog := none }
      startup := { s.startup with conds := { s.startup.conds with positionStale := true } } }))

/-- LIST_REVISIT and QUERY_CLEAR_CONDITIONS (8.9, 11.4): the one REVISIT reply pending, and the clear that puts its questions to the
blocks; counters stay as they are. A further LIST REVISIT replaces the start index of the reply that is pending. One that comes while the
reply's frame is on the bus, given by either row, leaves that frame and that reply as they are and waits; once the frame's outcome is
reported, sent or dropped, a new reply with its start index is pending, and no query waits. Where the outcome is still pending, after an
arbitration loss or a transmit error, the reply that is pending takes the start index under its old tag (the model's choice, log 34); a
later query replaces one that waits (the model's choice, log 34). A query waits only while a REVISIT frame is on the bus, after every
step. -/
def Obligations.QueriesAnswered : Prop :=
  (∀ (start : BitVec 16) (s : State), Hears s 10 → (∀ x, s.rack.sending = some x → x.frame.cls ≠ 9) →
    let u := s.received
    exec (.listRevisit start) s = .next (settle (match s.tracker.reply with
      | some r => { u with tracker := { u.tracker with
        reply := some ⟨r.tag, start⟩
        query := none } }
      | none => { u with
        tracker := { u.tracker with
          reply := some ⟨s.nextTag, start⟩
          query := none }
        nextTag := s.nextTag + 1 }))) ∧
  (∀ (start : BitVec 16) (s : State) (x : Sending), Hears s 10 → s.rack.sending = some x → x.frame.cls = 9 →
    let u := { s with
      startup := { s.startup with conds := { s.startup.conds with fresh := false } }
      tracker := { s.tracker with query := some start } }
    exec (.listRevisit start) s = .next (settle u) ∧
    (∀ f : RackFrame, f.src = 10 → readFrame s.slot f = .delivered (.listRevisit start) →
      exec (.rackFrameOther f) s = .next (settle u)) ∧
    (settle u).rack.sending = some x ∧ (settle u).rack.rx = s.rack.rx ∧ (settle u).tracker.reply = s.tracker.reply ∧
    (settle u).tracker.query = some start) ∧
  (∀ (start : BitVec 16) (s : State) (x : Sending), s.startup.powered = true → s.rack.sending = some x → x.frame.cls = 9 →
    s.isLive 9 x.tag = true → s.tracker.query = some start →
    (∃ t tag, exec .frameSent s = .next t ∧ s.nextTag ≤ tag ∧ t.tracker.reply = some ⟨tag, start⟩ ∧ t.tracker.query = none) ∧
    (∃ t, exec .arbitrationLoss s = .next t ∧ t.tracker.reply = some ⟨x.tag, start⟩ ∧ t.tracker.query = none) ∧
    (∀ atStart : Bool, ∃ t tag, exec (.transmitError atStart) s = .next t ∧ t.tracker.reply = some ⟨tag, start⟩ ∧
      t.tracker.query = none ∧
      (∀ n, s.rack.retry = some ⟨9, x.tag, n⟩ → 7 ≤ n → s.nextTag ≤ tag) ∧
      ((∀ n, s.rack.retry = some ⟨9, x.tag, n⟩ → n < 7) → tag = x.tag))) ∧
  (∀ s t : State, QueryLaw s → step s = .next t → QueryLaw t) ∧
  (∀ s : State, Hears s 10 → exec .queryClearConditions s = .next (settle (clearConditions s.received))) ∧
  (∀ s : State, clearConditions s = { s with startup := { s.startup with conds := { s.startup.conds with
    intakeOverrun := s.startup.conds.intakeOverrun && (decide (16 ≤ s.radio.queue.length) || decide (8 ≤ s.engine.relayQueue.length))
    positionStale := s.startup.conds.positionStale && (decide (s.engine.runState = some .running) && s.tracker.stale)
    storeFull := s.startup.conds.storeFull && !s.store.hasRoom
    storeFault := false
    txFault := false
    duplicateSlot := s.startup.conds.duplicateSlot && s.duplicateRecent } } }) ∧
  (∀ s : State, (clearConditions s).counters = s.counters)

/-- PRESENCE, PRESENCE_TIMER_EXPIRY, ABSENCE_EXPIRY and PRESUMPTION_EXPIRY (3.2, 3.3): the view entry of the slot, the presence item and
timer, and the recomputation of the map. That a PRESENCE recomputes twice, at its heard report with the contents that the slot's last
delivered PRESENCE left and again at its delivery, is the model's reading of the list of events in 3.3 (log 57); the worked example of 3.9
shows of such a frame, at 64,210 ms, only that nothing changes. -/
def Obligations.PresenceFollowed : Prop :=
  (∀ (src : BitVec 4) (payload : PresencePayload) (s : State), Hears s src.toNat → isCollector src.toNat = true →
    let u := recompute { s.received with presence := { s.presence with
      view := s.presence.view.map fun v => if v.slot = src.toNat then { v with lastHeard := s.now } else v } }
    exec (.presence src payload) s = .next (settle (recompute { u with presence := { u.presence with
      view := u.presence.view.map fun v => if v.slot = src.toNat then { v with
        contents := some ⟨payload.runState, payload.run, payload.plan⟩
        presumed := none } else v } }))) ∧
  (∀ (s : State) (d : Time), s.startup.powered = true → s.presence.timer = some d → 500 ≤ (s.now - (d - 500)).toNat →
    exec .presenceTimerExpiry s = .next (settle (match s.presence.item with
      | some _ => { s with presence := { s.presence with timer := some (d + 500) } }
      | none => { s with
        presence := { s.presence with
          timer := some (d + 500)
          item := some s.nextTag }
        nextTag := s.nextTag + 1 }))) ∧
  (∀ (slot : BitVec 4) (s : State) (v : ViewEntry), s.startup.powered = true → s.presence.entry slot.toNat = some v →
    2000 ≤ (s.now - v.lastHeard).toNat →
    exec (.absenceExpiry slot) s = .next (settle (recompute s)) ∧ s.participates slot.toNat = false) ∧
  (∀ (slot : BitVec 4) (s : State) (v : ViewEntry) (d : Time), s.startup.powered = true → s.presence.entry slot.toNat = some v →
    v.presumed = some d → 2000 ≤ (s.now - (d - 2000)).toNat →
    exec (.presumptionExpiry slot) s = .next (settle (recompute { s with presence := { s.presence with
      view := s.presence.view.map fun x => if x.slot = slot.toNat then { x with presumed := none } else x } })))

/-- HELD, RELAY, HANDOVER and RELAY_WAIT_EXPIRY (7.2 to 7.4): the three collections of the Relay Unit, so that after a HELD no RELAY of its
pair is pending, whatever its frame on the bus does (2.5); the admission to the relay intake queue, and the end of a wait: DUE after the
first and second send, self-stored and removed after the third, nothing while the share is held back. A packet operation that has not yet
asked the held memory asks it before a HELD or after it, which is free (5.3; the model's reading, log 26). -/
def Obligations.PeerReadingsTaken : Prop :=
  (∀ (src : BitVec 4) (m : MeterId) (c : BitVec 16) (s : State), Hears s src.toNat → isCollector src.toNat = true →
    let u := raceReading (heardReport s.received src.toNat)
    let pair : HeldPair := ⟨m, c⟩
    exec (.held src m c) s = .next (settle { u with relay := { u.relay with
      list := u.relay.list.filter fun e => e.packet.pair != pair
      confirmed := if ∃ e ∈ u.relay.list, e.packet.pair = pair then min (u.relay.confirmed + 1) 65535 else u.relay.confirmed
      heldPending := u.relay.heldPending.filter fun i => i.pair != pair
      heldMemory :=
        if pair ∈ u.relay.heldMemory then u.relay.heldMemory
        else if u.relay.heldMemory.length < 32 then u.relay.heldMemory ++ [pair]
        else u.relay.heldMemory.tail ++ [pair] } })) ∧
  (∀ (p : HeldPair) (u : State) (tag : Nat), (∀ e ∈ u.relay.list, e.tag = tag → e.packet.pair = p) →
    (deliverHeld p u).isLive 5 tag = false ∧ (deliverHeld p u).rack = u.rack) ∧
  (∀ (src : BitVec 4) (p : RelayPayload) (h : HandoverPayload) (s : State), Hears s src.toNat → isCollector src.toNat = true →
    let u := heardReport s.received src.toNat
    let join := fun (i : RelayItem) =>
      if u.engine.runState ≠ some .running then
        { u with engine := { u.engine with relayOutOfRun := min (u.engine.relayOutOfRun + 1) 65535 } }
      else if u.engine.relayQueue.length < 8 then { u with engine := { u.engine with relayQueue := u.engine.relayQueue ++ [i] } }
      else { u with
        engine := { u.engine with relayOverrun := min (u.engine.relayOverrun + 1) 65535 }
        startup := { u.startup with conds := { u.startup.conds with intakeOverrun := true } } }
    exec (.relay src p) s = .next (settle (join (.relay src.toNat p))) ∧
    exec (.handover src h) s = .next (settle (join (.handover h)))) ∧
  (∀ (s : State) (m : MeterId) (c : BitVec 16) (e : RelayEntry) (t : Time), s.startup.powered = true →
    s.relay.ofPair ⟨m, c⟩ = some e → e.phase = .waiting → e.lastSend = some t → 250 ≤ (s.now - t).toNat →
    exec (.relayWaitExpiry m c) s = .next (settle (
      if s.shareState e.share ≠ .notMine then s
      else if e.sends < 3 then { s with relay := { s.relay with list := s.relay.list.map fun x =>
        if x.tag = e.tag then { x with phase := .due } else x } }
      else
        let u := appendOrDrop s (unconfirmedRecord s e.packet e.segment e.stale e.target)
        { u with relay := { u.relay with
          list := u.relay.list.filter (·.tag != e.tag)
          unconfirmed := min (u.relay.unconfirmed + 1) 65535 } })))

/-! ## What each command does: engine operations -/

/-- PACKET_OPERATION, classification (5.2, 5.3, 7.1): drops in the held memory, records while a share is taken on, new relays, table misses,
relayed-in packets of another's share, malformed RELAY frames and the receipt of a HANDOVER (3.7), and the fields of an UNLISTED record (5.5).
The held memory and the share state are as the operation has read them, and where no event has made it read they are read now (the model's
reading, log 26). A new relay outside RUNNING is self-stored (7.1, 7.2), with the tracker's segment and stale state at the operation's end
(the model's choice, log 60). -/
def Obligations.PacketClassified : Prop :=
  (∀ (s : State) (item : Taken), s.startup.powered = true →
    (∀ r, s.engine.op = .packet item (some r) → exec .packetOperation s = .next (settle (endOperation (finishPacket s item r)))) ∧
    (s.engine.op = .packet item none → exec .packetOperation s = .next (settle (endOperation (finishPacket s item
      ⟨decide (item.pair ∈ s.relay.heldMemory), s.shareState (s.shareOf item.pair.meterId)⟩))))) ∧
  (∀ (p : Packet) (g : Nat) (b : Bool) (n : Nat) (q : RelayPayload) (h : HandoverPayload),
    (Taken.intake p).pair = ⟨p.meterId, p.counter⟩ ∧ (Taken.relayed (.moved p g b)).pair = ⟨p.meterId, p.counter⟩ ∧
    (Taken.relayed (.relay n q)).pair = ⟨q.meterId, q.counter⟩ ∧ (Taken.relayed (.handover h)).pair = ⟨h.meterId, h.counter⟩) ∧
  (∀ (s : State) (origin : Origin) (p : Packet), unlistedRecord s origin p = {
    kind := .unlisted
    origin := origin
    meterId := p.meterId
    counter := p.counter
    reading := p.reading
    digits := p.digits
    flags := p.flags
    run := s.engine.currentRun.getD 0
    segment := s.tracker.segment
    stale := s.tracker.stale
    late := false
    alarm := p.alarm
    active := 0
    raised := 0
    score := 0
    rssi := p.rssi
    channel := p.channel }) ∧
  (∀ (s : State) (p : Packet) (r : PacketReading),
    let pair : HeldPair := ⟨p.meterId, p.counter⟩
    let held := r.held = true
    let x := r.share
    let heldDrop := { s with engine := { s.engine with heldDrop := min (s.engine.heldDrop + 1) 65535 } }
    let unlistedDrop := { s with engine := { s.engine with unlistedDrop := min (s.engine.unlistedDrop + 1) 65535 } }
    let unlisted := fun o => if s.settings.storeUnlisted then appendOrDrop s (unlistedRecord s o p) else unlistedDrop
    let miss := ∀ e, s.engine.lookup p.meterId = some e → e.status = .handing
    (held → finishPacket s (.intake p) r = heldDrop) ∧
    (¬ held → x = .queued ∨ x = .loading →
      finishPacket s (.intake p) r = requestHeld (appendOrDrop s (unlistedRecord s .adopting p)) pair) ∧
    (¬ held → x = .notMine → finishPacket s (.intake p) r = newRelay s p) ∧
    (¬ held → x = .own → miss → finishPacket s (.intake p) r = unlisted .own) ∧
    (¬ held → x = .adopted → miss → finishPacket s (.intake p) r = unlisted (.adopted (s.shareOf p.meterId))) ∧
    (∀ (segment : Nat) (stale : Bool),
      finishPacket s (.relayed (.moved p segment stale)) r = classify s ⟨p, some s.slot⟩ r) ∧
    (∀ src : Nat,
      (held → classify s ⟨p, some src⟩ r = requestHeld heldDrop pair) ∧
      (¬ held → x = .queued ∨ x = .loading →
        classify s ⟨p, some src⟩ r = requestHeld (appendOrDrop s (unlistedRecord s .adopting p)) pair) ∧
      (¬ held → x = .notMine → classify s ⟨p, some src⟩ r = requestHeld (unlisted (.relayedIn src)) pair) ∧
      (¬ held → x = .own ∨ x = .adopted → miss → classify s ⟨p, some src⟩ r = requestHeld (unlisted (.relayedIn src)) pair))) ∧
  (∀ (s : State) (src : Nat) (p : RelayPayload) (r : PacketReading),
    let kind := p.digitsKind.toNat % 16
    (p.meterId = 0 ∨ p.meterId = 0xFFFFFFFF ∨ (kind ≠ 1 ∧ kind ≠ 2) →
      finishPacket s (.relayed (.relay src p)) r =
        { s with engine := { s.engine with relayReject := min (s.engine.relayReject + 1) 65535 } }) ∧
    (p.meterId ≠ 0 → p.meterId ≠ 0xFFFFFFFF → (kind = 1 ∨ kind = 2) →
      finishPacket s (.relayed (.relay src p)) r = classify s ⟨{
        meterId := p.meterId
        counter := p.counter
        reading := p.reading
        digits := BitVec.ofNat 4 (p.digitsKind.toNat / 16)
        alarm := kind == 2
        flags := p.flags &&& 0xFC
        rssi := p.rssi
        channel := p.channel }, some src⟩ r)) ∧
  (∀ (s : State) (p : HandoverPayload) (r : PacketReading),
    let dropped := { s with engine := { s.engine with handoverDrop := min (s.engine.handoverDrop + 1) 65535 } }
    finishPacket s (.relayed (.handover p)) r =
      if r.share = .queued ∨ r.share = .loading then dropped
      else match s.engine.lookup p.meterId with
        | none => dropped
        | some e =>
          if e.status = .unread ∨ e.status = .missed then
            changeEntry s e { e with
              status := .elsewhere
              lastHeard := some ⟨p.counter, p.reading, p.flags⟩ }
          else s) ∧
  (∀ (s : State) (p : Packet), s.isRunning = false →
    newRelay s p = selfStore s p s.tracker.segment s.tracker.stale none) ∧
  (∀ (s : State) (p : Packet) (segment : Nat) (stale : Bool) (target : Option Nat),
    let u := appendOrDrop s (unconfirmedRecord s p segment stale target)
    selfStore s p segment stale target = { u with relay := { s.relay with unconfirmed := min (s.relay.unconfirmed + 1) 65535 } }) ∧
  (∀ (s : State) (p : Packet), s.isRunning = true →
    newRelay s p =
      if ∃ e ∈ s.relay.list, e.packet.meterId = p.meterId ∧ e.packet.counter = p.counter then
        { s with relay := { s.relay with duplicates := min (s.relay.duplicates + 1) 65535 } }
      else
        let u := match s.relay.list with
          | e :: rest =>
            if s.relay.list.length < 32 then s
            else { selfStore s e.packet e.segment e.stale e.target with
              relay := { (selfStore s e.packet e.segment e.stale e.target).relay with list := rest } }
          | [] => s
        { u with
          relay := { u.relay with list := u.relay.list ++
            [⟨u.nextTag, p, s.shareOf p.meterId, s.tracker.segment, s.tracker.stale, 0, none, none, .unsent⟩] }
          nextTag := u.nextTag + 1 }) ∧
  (∀ (s : State) (pair : HeldPair),
    requestHeld s pair =
      if ∃ i ∈ s.relay.heldPending, i.pair = pair then s
      else if s.relay.heldPending.length < 16 then
        { s with
          relay := { s.relay with heldPending := s.relay.heldPending ++ [⟨s.nextTag, pair⟩] }
          nextTag := s.nextTag + 1 }
      else
        { s with
          relay := { s.relay with
            heldPending := s.relay.heldPending.tail ++ [⟨s.nextTag, pair⟩]
            heldDrop := min (s.relay.heldDrop + 1) 65535 }
          nextTag := s.nextTag + 1 })

/-- PACKET_OPERATION on a packet that hits a route entry (5.3 to 5.5, 6.2 to 6.5), heard here, moved from the relay list or relayed in: the
seven detectors each take their result, the score and the suspect mark follow, last-heard and status change, the records are handed on in
order with the origin of 5.3, and every other entry stays as it is. A suspect notice takes the place of one for the same meter at the end of
the list, and the oldest of 64 others is evicted and counted. A HELD is requested unless the packet is a repeat of this station's own
hearing. All else is as before. The held memory and the share state are as the operation has read them, whatever they are by now, as after a
RUN CLOSE (5.3, 8.4; the model's reading, log 26). The record of an evaluated packet has the fields of 5.5. -/
def Obligations.PacketEvaluated : Prop :=
  (∀ (s : State) (e : Entry) (p : Packet) (item : Taken) (reading : Option PacketReading) (src : Option Nat), s.startup.powered = true →
    s.engine.op = .packet item reading →
    let read := reading.getD ⟨decide (item.pair ∈ s.relay.heldMemory), s.shareState (s.shareOf item.pair.meterId)⟩
    (item = .intake p ∧ src = none) ∨ (∃ g b, item = .relayed (.moved p g b) ∧ src = some s.slot) ∨
      (∃ n q, item = .relayed (.relay n q) ∧ relayValid q = true ∧ p = relayPacket q ∧ src = some n) →
    read.held = false → read.share = .own ∨ read.share = .adopted →
    s.engine.lookup p.meterId = some e → e.status ≠ .handing →
    (s.engine.table.map (·.meterId)).Nodup →
    let st := s.settings
    let kind := packetKind e.lastHeard p.counter
    let results := packetResults st s.engine.runDay e p
    let origin : Origin := match src with
      | some n => .relayedIn n
      | none => if read.share = .adopted then .adopted (s.shareOf p.meterId) else .own
    let first := kind ≠ .repeated ∧ (e.status = .unread ∨ e.status = .missed ∨ e.status = .elsewhere)
    ∃ (t : State) (n : Entry), exec .packetOperation s = .next (settle t) ∧
      t = { s with
        engine := { s.engine with
          op := .idle
          table := t.engine.table
          notices := t.engine.notices
          suspectDrop := t.engine.suspectDrop }
        tracker := { s.tracker with
          rows := t.tracker.rows
          revisit := t.tracker.revisit }
        relay := { s.relay with
          heldPending := t.relay.heldPending
          heldDrop := t.relay.heldDrop }
        store := t.store
        startup := t.startup
        nextTag := t.nextTag } ∧
      OnlyAppends s t ∧
      t.engine.lookup p.meterId = some n ∧ (∀ m, m ≠ p.meterId → t.engine.lookup m = s.engine.lookup m) ∧
      n = { e with
        detectors := n.detectors
        score := scoreOf st n.detectors
        suspect := e.suspect || decide (st.threshold ≤ scoreOf st n.detectors)
        lastHeard := if kind = .repeated then e.lastHeard else some ⟨p.counter, p.reading, p.flags⟩
        status := if first then (if e.status = .missed then .late else .read) else e.status
        firstRead := n.firstRead
        kept := n.kept } ∧
      (∀ j, j < 7 → n.detectors[j]? = some (detectorStep (st.detector j) (p.alarm && j == 0) (results.getD j none)
        (e.detectors.getD j ⟨.idle, 0, 0, none⟩)).1) ∧
      (¬ first → n.firstRead = e.firstRead ∧ n.kept = e.kept) ∧
      (first →
        (s.store.accepts = true → n.firstRead = some s.store.seqCounter ∧ n.kept = none) ∧
        (s.store.accepts = false → n.firstRead = none ∧ n.kept = some (evaluatedRecord s .firstRead origin n p 0))) ∧
      (let raises := (List.range 7).filter fun j => (detectorStep (st.detector j) (p.alarm && j == 0) (results.getD j none)
        (e.detectors.getD j ⟨.idle, 0, 0, none⟩)).2
       let later := raises.map (fun j => evaluatedRecord s .exception origin n p (j + 1)) ++
        (if e.suspect = false ∧ n.suspect = true then [evaluatedRecord s .suspect origin n p 0] else [])
       t.store = (later.foldl appendOrDrop (if first then (append s (evaluatedRecord s .firstRead origin n p 0)).1 else s)).store) ∧
      (kind = .repeated → src = none → t.relay = s.relay) ∧
      (kind ≠ .repeated ∨ src ≠ none → 
        t.relay.heldPending.map (·.pair) = (requestHeld s ⟨p.meterId, p.counter⟩).relay.heldPending.map (·.pair) ∧
        t.relay.heldDrop = (requestHeld s ⟨p.meterId, p.counter⟩).relay.heldDrop) ∧
      (e.suspect = false → n.suspect = true →
        let others := s.engine.notices.filter fun c => decide (c.meterId ≠ p.meterId)
        t.engine.notices.map (fun c => (c.meterId, c.score, c.active, c.segment)) =
          (if others.length < 64 then others else others.tail).map (fun c => (c.meterId, c.score, c.active, c.segment)) ++
            [(p.meterId, n.score, activeSet n.detectors, s.tracker.segment)] ∧
        t.engine.suspectDrop = if others.length < 64 then s.engine.suspectDrop else min (s.engine.suspectDrop + 1) 65535) ∧
      (¬ (e.suspect = false ∧ n.suspect = true) → t.engine.notices = s.engine.notices ∧ t.engine.suspectDrop = s.engine.suspectDrop)) ∧
  (∀ (s : State) (kind : RecordKind) (origin : Origin) (e : Entry) (p : Packet) (raised : Nat),
    evaluatedRecord s kind origin e p raised = {
      kind := kind
      origin := origin
      meterId := p.meterId
      counter := p.counter
      reading := p.reading
      digits := p.digits
      flags := p.flags
      run := s.engine.currentRun.getD 0
      segment := s.tracker.segment
      stale := s.tracker.stale
      late := e.status == .late
      alarm := p.alarm
      active := activeSet e.detectors
      raised := raised
      score := e.score
      rssi := p.rssi
      channel := p.channel }) ∧
  (∀ (ds : List Detector) (j : Nat), j < 8 →
    (activeSet ds).getLsbD j = decide ((ds.getD j ⟨.idle, 0, 0, none⟩).state = .active))

/-- RELEASE, CLOSE_RELEASE and CLOSURE_MARKING (3.7, 8.4, 8.6, 8.7): what becomes of the route entries by status, HANDOVERs and tallies
queued, untracked counts removed; the kept records of the entries that leave or turn HANDING handed to the store in table order, as the only
appends (4.6); the HANDOVERs of the entries removed withdrawn, those of a release queued after the ones that stay (3.7; the order of a
release's own the model's choice, log 43); the close finish by the close work that ends last, which is the close release or a closure
marking, in progress or requested; and the end of the flush that makes the station READY. -/
def Obligations.ReleasesAndClosure : Prop :=
  (∀ (s : State) (n : Nat), s.startup.powered = true → s.engine.op = .release n →
    ∃ t, exec .release s = .next (settle t) ∧ OnlyAppends s t ∧
      t = { s with
        engine := { s.engine with
          op := .idle
          untracked := s.engine.untracked.filter (·.1 != n)
          table := t.engine.table
          handing := t.engine.handing }
        tracker := { s.tracker with
          rows := t.tracker.rows
          revisit := t.tracker.revisit }
        store := t.store
        startup := t.startup
        nextTag := t.nextTag } ∧
      (let kept := (s.engine.table.filter fun e => e.origin == .adopted n && e.status != .handing).filterMap (·.kept)
       t.store = (kept.foldl appendOrDrop s).store ∧ t.startup = (kept.foldl appendOrDrop s).startup) ∧
      ((s.engine.table.map (·.meterId)).Nodup →
        let removed := s.engine.table.filter fun e => e.origin == .adopted n &&
          (e.status == .unread || e.status == .elsewhere || e.status == .missed)
        let handed := s.engine.table.filter fun e => e.origin == .adopted n && (e.status == .read || e.status == .late)
        t.engine.handing = (s.engine.handing.filter fun i => !removed.any (·.meterId == i.meterId)) ++
          handed.zipIdx.map (fun x => ⟨s.nextTag + x.2, x.1.meterId, n⟩) ∧
        t.nextTag = s.nextTag + handed.length) ∧
      ((s.engine.table.map (·.meterId)).Nodup →
        t.engine.table = (s.engine.table.filter fun e => e.origin != .adopted n || e.status == .read || e.status == .late ||
          e.status == .handing).map (fun e =>
            if e.origin = .adopted n ∧ (e.status = .read ∨ e.status = .late) then { e with
              status := .handing
              kept := none } else e) ∧
        ∀ e ∈ s.engine.table, e.origin = .adopted n → (e.status = .read ∨ e.status = .late) →
          ∃ i ∈ t.engine.handing, i.meterId = e.meterId ∧ i.share = n)) ∧
  (∀ s : State, s.startup.powered = true → s.engine.op = .closeRelease →
    ∃ t, exec .closeRelease s = .next (settle (closeIfDone t)) ∧ OnlyAppends s t ∧
      t = { s with
        engine := { s.engine with
          op := .idle
          table := t.engine.table
          handing := t.engine.handing }
        tracker := { s.tracker with
          rows := t.tracker.rows
          revisit := t.tracker.revisit }
        store := t.store
        startup := t.startup } ∧
      (let removed := s.engine.table.filter fun e => e.origin != .own || e.status == .handing
       t.store = ((removed.filterMap (·.kept)).foldl appendOrDrop s).store ∧
       t.startup = ((removed.filterMap (·.kept)).foldl appendOrDrop s).startup ∧
       t.engine.handing = s.engine.handing.filter fun i => !removed.any (·.meterId == i.meterId)) ∧
      (∀ e ∈ t.engine.table, e.origin = .own ∧ e.status ≠ .handing) ∧
      ((s.engine.table.map (·.meterId)).Nodup →
        t.engine.table = s.engine.table.filter fun e => e.origin == .own && e.status != .handing)) ∧
  (∀ (s : State) (n : Nat), s.startup.powered = true → s.engine.op = .closure n →
    ∃ t, exec .closureMarking s = .next (settle (closeIfDone t)) ∧
      t = { s with
        engine := { s.engine with
          op := .idle
          table := t.engine.table }
        tracker := { s.tracker with
          rows := t.tracker.rows
          revisit := t.tracker.revisit
          tallies := s.tracker.tallies ++ [⟨s.nextTag, n⟩] }
        nextTag := s.nextTag + 1 } ∧
      ((s.engine.table.map (·.meterId)).Nodup →
        t.engine.table = s.engine.table.map fun e =>
          if e.segment = n ∧ e.status = .unread then { e with status := .missed } else e)) ∧
  (∀ g : Engine, g.closeWorkLeft = true ↔
    .close ∈ g.releases ∨ g.op = .closeRelease ∨ (∃ n, .closure n ∈ g.requests) ∨ ∃ n, g.op = .closure n) ∧
  (∀ u : State, closeIfDone u =
    if u.engine.runState = some .closing ∧ u.engine.closeWorkLeft = false ∧ u.engine.closeWaits = false then
      let v := appendOrDrop u {
        kind := .runMark
        origin := .own
        meterId := 0
        counter := 2
        reading := 0
        digits := 0
        flags := 0
        run := u.engine.currentRun.getD 0
        segment := u.tracker.segment
        stale := u.tracker.stale
        late := false
        alarm := false
        active := 0
        raised := 0
        score := 0
        rssi := 0
        channel := 0 }
      requestFlush { v with engine := { v.engine with closeWaits := true } }
    else u) ∧
  (∀ u : State, RunLaw u → u.engine.runState = some .closing → u.engine.closeWaits = true → u.dock.session.state ≠ .starting →
    let t := flushEnded u
    let v := raceReading u
    t = { v with
      store := { u.store with flushing := false }
      engine := { v.engine with
        closeWaits := false
        currentRun := none
        runState := some .ready }
      presence := { u.presence with owners := t.presence.owners } })

/-- RUN_RESET and REBUILD_READ (4.6, 8.2, 8.3): every entry reset, its kept record handed to the store, in table order (log 43), as the
only appends; a new run opened with its RUN MARK and the station RUNNING; a resume followed by the rebuild scan from its RUN MARK, or from
the tail where that has been erased, and without a tail ended at once (where RETIRED sectors alone hold records, the model's choice, log
65); each REBUILD_READ one slot, the next of the log after the last one read (9.3, 9.6; log 22), applied where the walk accepts it and else
passed over; and the effect of one log record on the entry of its meter. The end of the scan makes the station RUNNING with its current
run, every peer presumed, the watchdog armed and the stale state set, and the map recomputed; a scan that ends outside REBUILDING only ends
(the model's choice, log 38). An entry with a first-read reference has no kept record (the model's reading, log 39). -/
def Obligations.ResetAndRebuild : Prop :=
  (∀ s : State,
    let t := resetTable s
    OnlyAppends s t ∧
    t = { s with
      engine := { s.engine with table := t.engine.table }
      tracker := { s.tracker with
        rows := t.tracker.rows
        revisit := t.tracker.revisit }
      store := t.store
      startup := t.startup } ∧
    (let kept := s.engine.table.filterMap (·.kept)
     t.store = (kept.foldl appendOrDrop s).store ∧ t.startup = (kept.foldl appendOrDrop s).startup) ∧
    ((s.engine.table.map (·.meterId)).Nodup → t.engine.table = s.engine.table.map fun e => { e with
      status := .unread
      lastHeard := none
      firstRead := none
      kept := none })) ∧
  (∀ (s : State) (run : BitVec 16), RunLaw s → s.startup.powered = true → s.engine.op = .runReset →
    s.engine.runState = some .ready → s.engine.openingRun = some run →
    let r := resetTable s
    let u := appendOrDrop r {
      kind := .runMark
      origin := .own
      meterId := 0
      counter := 1
      reading := s.engine.runDay.setWidth 32
      digits := 0
      flags := 0
      run := run
      segment := s.tracker.segment
      stale := s.tracker.stale
      late := false
      alarm := false
      active := 0
      raised := 0
      score := 0
      rssi := 0
      channel := 0 }
    ∃ t, exec .runReset s = .next (settle t) ∧
      t = { u with
        engine := { u.engine with
          op := .idle
          runState := some .running
          currentRun := some run
          openingRun := none }
        tracker := { u.tracker with
          watchdog := some s.now
          stale := true }
        presence := { s.presence with
          view := s.presence.view.map fun v => { v with presumed := some (s.now + 2000) }
          owners := t.presence.owners
          shares := t.presence.shares
          adoptQueue := t.presence.adoptQueue } }) ∧
  (∀ (s : State) (m : Interrupted), s.startup.powered = true → s.engine.op = .resumeReset m →
    (s.engine.runState = some .rebuilding → exec .runReset s = .next (settle (rebuildBegins (resetTable s) m))) ∧
    (s.engine.runState ≠ some .rebuilding → exec .runReset s = .next (settle (endOperation (resetTable s))))) ∧
  (∀ (s : State) (pos : LogPos) (last : Nat), s.startup.powered = true → s.store.serving = some (.rebuildRead true) →
    s.engine.op = .rebuild pos last →
    let u := { s with store := { s.store with serving := none } }
    (∀ (p : LogPos) (n : Nat), s.store.nextSlot pos = some (p, n) →
      let bs := s.store.flash.readBytes (slotAddress n p.slot) 32
      let accepted := bs ≠ List.replicate 32 0xFF ∧ crc16 bs = 0 ∧ last < fieldOf bs 0 4
      (accepted → exec .rebuildRead s = .next (settle (rebuildFrom (applyRecord u (recordOf p bs)) p (fieldOf bs 0 4)))) ∧
      (¬ accepted → exec .rebuildRead s = .next (settle (rebuildFrom u p last)))) ∧
    (s.store.nextSlot pos = none → exec .rebuildRead s = .next (settle (rebuildEnds u)))) ∧
  (∀ (u : State) (pos : LogPos) (last : Nat),
    (u.store.nextSlot pos ≠ none → rebuildFrom u pos last = { u with engine := { u.engine with op := .rebuild pos last } }) ∧
    (u.store.nextSlot pos = none → rebuildFrom u pos last = rebuildEnds u)) ∧
  (∀ (u : State) (m : Interrupted),
    (u.store.holdsAt m.pos m.number = true → rebuildBegins u m = rebuildFrom u m.pos m.number) ∧
    (u.store.holdsAt m.pos m.number = false → u.store.tail = none → rebuildBegins u m = rebuildEnds u) ∧
    (∀ r, u.store.holdsAt m.pos m.number = false → u.store.tail = some r →
      rebuildBegins u m = rebuildFrom u ⟨r.pos.sector, r.pos.slot - 1⟩ 0)) ∧
  (∀ u : State,
    (u.engine.runState = some .rebuilding →
      let v := { u with
        engine := { u.engine with
          op := .idle
          runState := some .running
          currentRun := some (u.engine.currentRun.getD 0)
          openingRun := none }
        tracker := { u.tracker with
          watchdog := some u.now
          stale := true }
        presence := { u.presence with view := u.presence.view.map fun x => { x with presumed := some (u.now + 2000) } } }
      rebuildEnds u = recompute v ∧
      (RunLaw u → rebuildEnds u = { v with presence := (rebuildEnds u).presence })) ∧
    (u.engine.runState ≠ some .rebuilding → rebuildEnds u = { u with engine := { u.engine with op := .idle } })) ∧
  (∀ (st : Store) (pos : LogPos),
    let after := fun (q k : Nat) => pos.sector < q ∨ (q = pos.sector ∧ pos.slot < k)
    let inLog := fun (n q k : Nat) => (∃ r ∈ st.rows, r.sector = n ∧ r.seq = some q ∧ r.state.inLog = true) ∧ 1 ≤ k ∧
      k < (match st.head with
        | some (m, slot) => if m = n then slot else 128
        | none => 128)
    (∀ (p : LogPos) (n : Nat), st.nextSlot pos = some (p, n) →
      inLog n p.sector p.slot ∧ after p.sector p.slot ∧
      ∀ m q k, inLog m q k → after q k → p.sector < q ∨ (p.sector = q ∧ p.slot ≤ k)) ∧
    (st.nextSlot pos = none → ∀ m q k, inLog m q k → ¬ after q k)) ∧
  (∀ (s : State) (r : LogRecord) (e : Entry), s.engine.lookup r.meterId = some e → r.run = s.runNumber →
    (r.kind = 2 → applyRecord s r = changeEntry s e { e with
      status := if r.late then .late else .read
      lastHeard := some ⟨r.counter, r.reading, r.flags⟩
      firstRead := some r.number
      kept := none }) ∧
    (r.kind = 4 → applyRecord s r = changeEntry s e { e with suspect := true }) ∧
    (r.kind ≠ 2 → r.kind ≠ 4 → applyRecord s r = s)) ∧
  (∀ (s : State) (r : LogRecord), r.run ≠ s.runNumber ∨ s.engine.lookup r.meterId = none → applyRecord s r = s) ∧
  (∀ s : State, s.startup.powered = true → s.store.serving = some (.rebuildRead false) →
    exec .rebuildRead s = .next (settle { s with store := { s.store with serving := none } }))

/-- FINDINGS_CLEAR, ROUTE_TABLE_EMPTYING and KEPT_RECORD_RELEASE (6.6, 4.6, 10.2): the ACTIVE detectors whose last result is not shown
return to IDLE, scores and marks follow, with the three figures of the reply; the table emptied, its kept
records handed to the store in table order (log 43) as the only appends, no HANDOVER of an entry left, and the first erase requested; the
kept record of a pair released. -/
def Obligations.DepotEngineWork : Prop :=
  (∀ s : State, s.startup.powered = true → s.engine.op = .findingsClear →
    ∃ t, exec .findingsClear s = .next (settle t) ∧
      t = { s with
        engine := { s.engine with
          op := .idle
          table := t.engine.table }
        tracker := { s.tracker with
          rows := t.tracker.rows
          revisit := t.tracker.revisit }
        dock := { s.dock with
          replies := (if 8 ≤ s.dock.replies.length then s.dock.replies.tail else s.dock.replies) ++ [⟨s.nextTag, .fixed ([5, 1]
            ++ bytesOf 2 ((s.engine.table.map fun e => e.detectors.countP fun d => d.state == .active && d.last != some true).sum)
            ++ bytesOf 2 (s.engine.table.countP fun e => e.suspect && !(clearEntry s.settings e).suspect)
            ++ bytesOf 2 (s.engine.table.countP fun e => (clearEntry s.settings e).suspect))⟩]
          replyDrops := if 8 ≤ s.dock.replies.length then min (s.dock.replyDrops + 1) 65535 else s.dock.replyDrops }
        nextTag := s.nextTag + 1 } ∧
      ((s.engine.table.map (·.meterId)).Nodup → t.engine.table = s.engine.table.map (clearEntry s.settings))) ∧
  (∀ (st : Settings) (e : Entry),
    let n := clearEntry st e
    n = { e with
      detectors := e.detectors.map fun d => if d.state = .active ∧ d.last ≠ some true then { d with
        state := .idle
        consecutive := 0
        clean := 0 } else d
      score := scoreOf st n.detectors
      suspect := e.suspect && decide (st.threshold ≤ n.score) }) ∧
  (∀ s : State, s.startup.powered = true → s.engine.op = .emptying →
    ∃ t, exec .routeTableEmptying s = .next (settle t) ∧
      OnlyAppends { s with store := { s.store with planErase := some 0 } } t ∧
      (let kept := s.engine.table.filterMap (·.kept)
       t.store = { (kept.foldl appendOrDrop s).store with planErase := some 0 } ∧
       t.startup = (kept.foldl appendOrDrop s).startup) ∧
      t.engine.handing = s.engine.handing.filter (fun i => !s.engine.table.any (·.meterId == i.meterId)) ∧
      t = { s with
        engine := { s.engine with
          op := .idle
          table := []
          ownUntracked := 0
          duplicates := 0
          handing := t.engine.handing }
        tracker := { s.tracker with
          rows := t.tracker.rows
          revisit := t.tracker.revisit }
        store := t.store
        startup := t.startup }) ∧
  (∀ (s : State) (m : MeterId) (n : Nat), s.startup.powered = true → s.engine.op = .keptRelease m n →
    exec .keptRecordRelease s = .next (settle (match s.engine.lookup m with
      | some e =>
        if e.kept.isSome then { s with engine := { s.engine with
          op := .idle
          table := s.engine.table.map fun x => if x.meterId = e.meterId then { e with
            kept := none
            firstRead := some n } else x } }
        else { s with engine := { s.engine with op := .idle } }
      | none => { s with engine := { s.engine with op := .idle } })))

/-- PLAN_READ (4.1 to 4.4, 3.6, 10.4): one slot read, for the plan check, the own-share build, an adoption load or the check read at PLAN
END; the entry that a plan record makes, each field brought into its range in the order of the rule; the end of a build, with step 6 of the
start (11.1) and the presence item and timer that it brings (3.2), or after PLAN END with PLAN STATUS, result 0, and no plan load any more
(10.4); the end of a load, with the move of the share's relay entries, oldest
first, into the relay intake queue while it has room, each of the rest self-stored; and the end of the check read: the plan header is
programmed where nothing is missing or bad, or PLAN STATUS tells of the failure and the station is BLANK, with the contents of PLAN STATUS.
A load whose plan is not VALID, or whose share is not LOADING, is met in no run (log 38). -/
def Obligations.PlanReadUsed : Prop :=
  (∀ s : State, s.startup.powered = true → s.store.serving = some (.planRead true) →
    inFlash (planSlotAddress s.planReadIndex) 32 = true →
    let u := { s with store := { s.store with serving := none } }
    let bs := s.store.flash.readBytes (32 * s.planReadIndex) 32
    exec .planRead s = .next (settle (match s.engine.op, s.engine.plan with
      | .planCheckHeader, _ =>
        (match planHeaderOf bs with
          | some h => { u with engine := { u.engine with op := .planCheckRecord 0 h } }
          | none => checkFails u)
      | .planCheckRecord i h, _ =>
        if planRecordGood bs = false then checkFails u
        else if i + 1 < h.count then { u with engine := { u.engine with op := .planCheckRecord (i + 1) h } }
        else { u with
          engine := { u.engine with
            op := .idle
            plan := some h
            requests := u.engine.requests ++ [.ownBuild] }
          startup := { u.startup with step := .build } }
      | .ownBuild i, some h =>
        let v := buildRecord u h i bs
        if i + 1 < h.count then { v with engine := { v.engine with op := .ownBuild (i + 1) } } else buildEnds v h
      | .load n i, some h =>
        let v := loadRecord u h n i bs
        if i + 1 < h.count then { v with engine := { v.engine with op := .load n (i + 1) } } else loadEnds v n
      | .ownBuild _, none => { u with engine := { u.engine with op := .idle } }
      | .load n _, none => if u.shareState n = .loading then abandonLoad u n else stopLoad u n
      | _, _ => checkRead u bs))) ∧
  (∀ s : State, s.startup.powered = true → s.store.serving = some (.planRead false) →
    exec .planRead s = .next (settle { s with store := { s.store with serving := none } })) ∧
  (∀ (s : State) (h : Plan) (share i : Nat) (bs : List Byte),
    let m := planMeterId bs
    buildRecord s h i bs =
      (if s.shareOf m ≠ s.slot then s
      else if (s.engine.lookup m).isSome then { s with engine := { s.engine with duplicates := s.engine.duplicates + 1 } }
      else if 8192 ≤ s.engine.table.length then { s with engine := { s.engine with ownUntracked := s.engine.ownUntracked + 1 } }
      else { s with engine := { s.engine with table := insertEntry (entryOf h.segments i .own bs) s.engine.table } }) ∧
    loadRecord s h share i bs =
      (if s.shareOf m ≠ share ∨ (s.engine.lookup m).isSome then s
      else if 8192 ≤ s.engine.table.length then { s with engine := { s.engine with untracked := s.engine.untracked.map fun x =>
        if x.1 = share then (x.1, x.2 + 1) else x } }
      else { s with engine := { s.engine with table := insertEntry (entryOf h.segments i (.adopted share) bs) s.engine.table } })) ∧
  (∀ (segments i : Nat) (o : EntryOrigin) (bs : List Byte), 1 ≤ segments →
    let e := entryOf segments i o bs
    e.planIndex = i ∧ e.origin = o ∧ e.meterId = planMeterId bs ∧
    e.segment = (if segments ≤ fieldOf bs 4 2 then segments - 1 else fieldOf bs 4 2) ∧
    5 ≤ e.digits ∧ e.digits ≤ 9 ∧ (5 ≤ fieldOf bs 12 1 → fieldOf bs 12 1 ≤ 9 → e.digits = fieldOf bs 12 1) ∧
    (fieldOf bs 12 1 < 5 → e.digits = 5) ∧ (9 < fieldOf bs 12 1 → e.digits = 9) ∧
    e.billed = (if 10 ^ e.digits ≤ fieldOf bs 6 4 then 10 ^ e.digits - 1 else fieldOf bs 6 4) ∧
    e.billedDay = fieldOf bs 10 2 ∧ e.band = (if 3 < fieldOf bs 13 1 then 3 else fieldOf bs 13 1) ∧
    e.rate = (if 1048575 < fieldOf bs 14 3 then 1048575 else fieldOf bs 14 3) ∧
    e.status = .unread ∧ e.lastHeard = none ∧ e.firstRead = none ∧ e.kept = none ∧ e.score = 0 ∧ e.suspect = false ∧
    e.detectors = List.replicate 7 ⟨.idle, 0, 0, none⟩) ∧
  (∀ (s : State) (p : Plan),
    let t := buildEnds s p
    t.engine.runState = some .ready ∧ t.engine.op = .idle ∧ t.tracker.rows.map (·.segment) = List.range p.segments ∧
    (∀ r ∈ t.tracker.rows, r.state = .ahead ∧ r.expected = s.engine.table.countP (fun e => e.segment == r.segment && e.status != .handing)) ∧
    (s.startup.step = .build → t.startup.step = .up ∧ t.presence.item = some s.nextTag ∧ t.presence.timer = some (s.now + 500)) ∧
    (s.startup.step ≠ .build → s.dock.load.phase ≠ .ending → t.dock = s.dock ∧ t.startup.step = s.startup.step) ∧
    (s.startup.step ≠ .build → s.dock.load.phase = .ending → s.dock.load.ignored ≤ 65535 →
      let l := s.dock.load
      t.startup.step = s.startup.step ∧ t.engine.plan = s.engine.plan ∧ t.engine.duplicates = s.engine.duplicates ∧
      t.engine.ownUntracked = s.engine.ownUntracked ∧ (RunLaw s → s.isRunning = false → t.engine.table = s.engine.table) ∧
      t.dock = { s.dock with
        load := { l with phase := .none }
        replies := (if 8 ≤ s.dock.replies.length then s.dock.replies.tail else s.dock.replies) ++ [⟨s.nextTag, .fixed ([8, 1, 0] ++
          bytesOf 2 l.received.length ++ bytesOf 2 (l.count - l.received.length) ++ bytesOf 2 l.bad.length ++ bytesOf 2 l.ignored ++
          bytesOf 2 t.engine.duplicates ++ bytesOf 2 t.engine.table.length ++ bytesOf 2 t.engine.ownUntracked)⟩]
        replyDrops := if 8 ≤ s.dock.replies.length then min (s.dock.replyDrops + 1) 65535 else s.dock.replyDrops })) ∧
  (∀ s : State,
    let t := checkFails s
    t.engine.runState = some .blank ∧ t.engine.plan = none ∧ t.engine.op = .idle ∧ t.startup.step = .up ∧
    t.presence.item = some s.nextTag ∧ t.presence.timer = some (s.now + 500)) ∧
  (∀ (s : State) (n : Nat), s.shareState n = .loading →
    (s.engine.table.map (·.meterId)).Nodup →
    let t := loadEnds s n
    t.presence = { s.presence with shares := s.presence.shares.set (n - 1) .adopted } ∧ t.engine.op = .idle ∧
    t.engine.table = s.engine.table.map (fun e =>
      if e.origin = .adopted n ∧ s.tracker.segmentState e.segment = .closed then { e with status := .missed } else e) ∧
    t.relay.heldPending = s.relay.heldPending ∧
    ((s.relay.list.map (·.tag)).Nodup →
      let mine := s.relay.list.filter fun e => e.share == n
      let room := 8 - s.engine.relayQueue.length
      let stored := (mine.drop room).map fun e => unconfirmedRecord s e.packet e.segment e.stale e.target
      t.relay.list = s.relay.list.filter (fun e => e.share != n) ∧
      t.engine.relayQueue = s.engine.relayQueue ++ (mine.take room).map (fun e => .moved e.packet e.segment e.stale) ∧
      t.store = (stored.foldl appendOrDrop s).store ∧
      (s.relay.unconfirmed ≤ 65535 → t.relay.unconfirmed = min (s.relay.unconfirmed + stored.length) 65535))) ∧
  (∀ (s : State) (i : Nat) (rest : List Nat) (bs : List Byte), s.dock.load.check = some (i :: rest) → rest ≠ [] →
    checkRead s bs = { s with dock := { s.dock with load := { s.dock.load with
      bad := if planRecordGood bs = true ∨ i ∈ s.dock.load.bad then s.dock.load.bad else s.dock.load.bad ++ [i]
      check := some rest } } }) ∧
  (∀ (s : State) (i : Nat) (bs : List Byte), s.dock.load.check = some [i] →
    let bad := if planRecordGood bs = true ∨ i ∈ s.dock.load.bad then s.dock.load.bad else s.dock.load.bad ++ [i]
    let v := { s with dock := { s.dock with load := { s.dock.load with
      bad := bad
      check := none } } }
    (s.dock.load.received.length = s.dock.load.count → bad = [] →
      checkRead s bs = { v with store := { v.store with progs := v.store.progs ++ [.planHeader] } }) ∧
    (s.dock.load.received.length ≠ s.dock.load.count ∨ bad ≠ [] →
      checkRead s bs = planStatus (setRunState v .blank) 1)) ∧
  (∀ (s : State) (result : Byte),
    let l := s.dock.load
    let built := fun n : Nat => if result = 0 then n else 0
    l.ignored ≤ 65535 →
    planStatus s result = replyWith { s with dock := { s.dock with load := { l with phase := .none } } } 8 .done
      ([result] ++ bytesOf 2 l.received.length ++ bytesOf 2 (l.count - l.received.length) ++ bytesOf 2 l.bad.length ++
        bytesOf 2 l.ignored ++ bytesOf 2 (built s.engine.duplicates) ++ bytesOf 2 (built s.engine.table.length) ++
        bytesOf 2 (built s.engine.ownUntracked)))


/-! ## What each command does: depot, settings -/

/-- The judgement of a DOCK operation by the run state (10.1): the table of the rule; an operation that is ignored does nothing but its
heard report, and one that is refused makes one reply and nothing else. -/
def Obligations.DockOperationsJudged : Prop :=
  (∀ (s : State) (c : DockColumn),
    let busy := s.engine.runState = some .running ∨ s.engine.runState = some .closing ∨
      (s.engine.runState = some .ready ∧ s.engine.openingRun.isSome = true)
    let idle := s.engine.runState = some .blank ∨ (s.engine.runState = some .ready ∧ s.engine.openingRun = none)
    (busy → judgeDock s c = .refuse .refusedRunning) ∧
    (s.engine.runState = some .rebuilding → judgeDock s c = .refuse .refusedState) ∧
    (idle → judgeDock s c = if c = .general ∨ c = .settings then .pass else .refuse .refusedState) ∧
    (s.engine.runState = some .loadingErase →
      judgeDock s c = if c = .settings then .pass else if c = .planData then .ignore else .refuse .refusedState) ∧
    (s.engine.runState = some .loadingData → judgeDock s c = if c = .general then .refuse .refusedState else .pass)) ∧
  (∀ (c : Instr) (column : DockColumn) (echo : Byte) (s : State), dockColumn c = some (column, echo) → Hears s 11 →
    (judgeDock s column = .ignore → exec c s = .next (settle s.received)) ∧
    (∀ x : DockStatus, judgeDock s column = .refuse x → exec c s = .next (settle (replyWith s.received echo x [])))) ∧
  (∀ (s : State) (echo : Byte) (x : DockStatus) (operands : List Byte),
    replyWith s echo x operands = { s with
      dock := { s.dock with
        replies := (if 8 ≤ s.dock.replies.length then s.dock.replies.tail else s.dock.replies) ++
          [⟨s.nextTag, .fixed ([echo, match x with
            | .accepted => 0
            | .done => 1
            | .refusedState => 2
            | .refusedRunning => 3
            | .refusedNotUploaded => 4] ++ operands)⟩]
        replyDrops := if 8 ≤ s.dock.replies.length then min (s.dock.replyDrops + 1) 65535 else s.dock.replyDrops }
      nextTag := s.nextTag + 1 })

/-- UPLOAD_OPEN, UPLOAD_READ and UPLOAD_CLOSE (10.2): a fresh session and its flush; each UPLOAD_READ one slot of the log (9.3, 9.6; log
22), in the search for the start number or for the next record, or the tail; the record that the walk accepts as the pending UPLOAD DATA,
or the head reached with the kept records to synthesize; the next synthesized record or the end of the upload; and the end of the session:
its UPLOAD DATA is pending no longer, and the frame of it on the bus completes (2.5). A number for a synthesized record is given below the
durable bound, and none while the counter holds 4,294,967,295: there the answer is no number at once and no reserve entry is requested (the
model's reading, log 30). Else the next unused reserve entry of the newest sector is requested with the bound it is to hold, or the
candidate is opened first, and without either there is no number and the entries left are counted as unsynthesized (9.8, 10.2). An entry is
unused while its six bytes are ones, and a mark that waits is not requested twice (the model's choices, logs 46 and 29). The search goes
from the beginning of the log, and a start number that it does not meet is answered by the tail (log 22); a log whose records stand in
RETIRED sectors alone has no tail, and the head is reached (the model's choice, log 65). The read position moves at the read; at the
session's end its figures stay, and a request for a number that waits is dropped (the model's choices, logs 37, 59 and 54). -/
def Obligations.UploadOpensAndCloses : Prop :=
  (∀ (start : BitVec 32) (s : State), Hears s 11 → judgeDock s .general = .pass →
    exec (.uploadOpen start) s = .next (settle (uploadOpen start.toNat s.received)) ∧
    exec .uploadClose s = .next (settle (uploadClose s.received))) ∧
  (∀ (start : Nat) (u : State),
    ((u.dock.session.state = .starting ∨ u.dock.session.state = .streaming ∨ u.dock.session.state = .paused) →
      uploadOpen start u = replyWith u 1 .refusedState []) ∧
    ((u.dock.session.state = .none ∨ u.dock.session.state = .stalled ∨ u.dock.session.state = .done) →
      uploadOpen start u = requestFlush (replyWith { u with dock := { u.dock with session := { Session.afterStart with
        state := .starting
        start := start } } } 1 .accepted [])) ∧
    ∃ v, uploadClose u = replyWith v 3 .done [] ∧ v = { u with
      dock := { u.dock with session := { u.dock.session with
        state := .none
        readPos := none
        synthList := []
        toSynth := []
        pauseSince := none
        data := none
        ask := none
        numberWait := false } }
      store := { u.store with serving := v.store.serving } } ∧
      (u.store.serving ≠ some (.uploadRead true) → v.store.serving = u.store.serving) ∧
      v.store.serving ≠ some (.uploadRead true)) ∧
  (∀ (u : State) (tag : Nat), (∀ r ∈ u.dock.replies, r.tag ≠ tag) → tag < u.nextTag →
    (uploadClose u).isLive 11 tag = false ∧ (uploadClose u).rack = u.rack) ∧
  (∀ u : State,
    (u.store.pageBuf = [] → u.store.second = [] → u.engine.closeWaits = false → u.dock.session.state = .starting →
      requestFlush u = { u with
        store := { u.store with flushing := false }
        dock := { u.dock with session := { u.dock.session with
          ask := some (if u.dock.session.start = 0 then .tail else .search ⟨0, 0⟩ 0) } } }) ∧
    (u.store.pageBuf ≠ [] ∨ u.store.second ≠ [] →
      let t := requestFlush u
      t = { u with store := { u.store with
        flushing := true
        programming := t.store.programming
        progs := t.store.progs } } ∧
      (u.store.pageBuf ≠ [] → u.store.programming = false → t.store.programming = true ∧ t.store.progs = u.store.progs ++ [.logPage]))) ∧
  (∀ s : State, s.startup.powered = true → s.store.serving = some (.uploadRead true) →
    let u := { s with store := { s.store with serving := none } }
    let ask := fun a => { u with dock := { u.dock with session := { u.dock.session with ask := some a } } }
    let hold := fun (r : LogRecord) => { u with
      nextTag := s.nextTag + 1
      dock := { u.dock with session := { u.dock.session with
        state := .streaming
        phase := .log
        ask := none
        readPos := some (r.pos, r.number)
        data := some ⟨s.nextTag, r.number, r.bytes⟩ } } }
    let atHead := synthesizeNext { u with dock := { u.dock with session := { u.dock.session with
      state := .streaming
      phase := .synthesized
      ask := none
      toSynth := s.engine.table.filterMap (·.kept) } } }
    let after := fun (p : LogPos) (a b : State) => if s.store.nextSlot p = none then a else b
    (∀ (pos : LogPos) (last : Nat),
      (s.dock.session.ask = some (.next pos last) ∨ s.dock.session.ask = some (.search pos last)) →
      ∀ (p : LogPos) (n : Nat), s.store.nextSlot pos = some (p, n) →
      let bs := s.store.flash.readBytes (slotAddress n p.slot) 32
      let accepted := bs ≠ List.replicate 32 0xFF ∧ crc16 bs = 0 ∧ last < fieldOf bs 0 4
      (s.dock.session.ask = some (.next pos last) →
        (accepted → exec .uploadRead s = .next (settle (hold (recordOf p bs)))) ∧
        (¬ accepted → exec .uploadRead s = .next (settle (after p atHead (ask (.next p last)))))) ∧
      (s.dock.session.ask = some (.search pos last) →
        (accepted → fieldOf bs 0 4 = s.dock.session.start → exec .uploadRead s = .next (settle (hold (recordOf p bs)))) ∧
        (accepted → fieldOf bs 0 4 ≠ s.dock.session.start →
          exec .uploadRead s = .next (settle (after p (ask .tail) (ask (.search p (fieldOf bs 0 4)))))) ∧
        (¬ accepted → exec .uploadRead s = .next (settle (after p (ask .tail) (ask (.search p last))))))) ∧
    (∀ (pos : LogPos) (last : Nat), s.store.nextSlot pos = none →
      (s.dock.session.ask = some (.next pos last) → exec .uploadRead s = .next (settle atHead)) ∧
      (s.dock.session.ask = some (.search pos last) → exec .uploadRead s = .next (settle (ask .tail)))) ∧
    (s.dock.session.ask = some .tail →
      (∀ r, s.store.tail = some r → exec .uploadRead s = .next (settle (hold r))) ∧
      (s.store.tail = none → exec .uploadRead s = .next (settle atHead)))) ∧
  (∀ u : State, u.dock.session.toSynth = [] →
    let t := synthesizeNext u
    t = { u with
      dock := { u.dock with
        session := { u.dock.session with state := .done }
        replies := t.dock.replies
        replyDrops := t.dock.replyDrops }
      nextTag := u.nextTag + 3 } ∧
    (u.dock.replies.length ≤ 5 → t.dock.replies = u.dock.replies ++
      [⟨u.nextTag, .uploadEnd 1⟩, ⟨u.nextTag + 1, .uploadEnd 2⟩, ⟨u.nextTag + 2, .uploadEnd 3⟩])) ∧
  (∀ (u : State) (k : RecordBody) (rest : List RecordBody), u.dock.session.toSynth = k :: rest →
    u.store.seqCounter < u.store.durableBound → u.store.seqCounter < 4294967295 →
    synthesizeNext u = { u with
      store := { u.store with
        seqCounter := u.store.seqCounter + 1
        lastGiven := u.store.seqCounter }
      dock := { u.dock with session := { u.dock.session with
        toSynth := rest
        numberWait := false
        synthList := u.dock.session.synthList ++ [(k.meterId, u.store.seqCounter)]
        data := some ⟨u.nextTag, u.store.seqCounter, recordBytes u.store.seqCounter { k with kind := .unstored }⟩ } }
      nextTag := u.nextTag + 1 }) ∧
  (∀ (u : State) (k : RecordBody) (rest : List RecordBody), u.dock.session.toSynth = k :: rest →
    u.store.durableBound ≤ u.store.seqCounter ∨ 4294967295 ≤ u.store.seqCounter →
    let t := synthesizeNext u
    let waits := fun (st : Store) => { u with
      store := st
      dock := { u.dock with session := { u.dock.session with numberWait := true } } }
    let noNumber := t = { u with
        dock := { u.dock with
          session := { u.dock.session with
            state := .done
            unsynthesized := rest.length + 1
            toSynth := []
            numberWait := false }
          replies := t.dock.replies
          replyDrops := t.dock.replyDrops }
        nextTag := u.nextTag + 3 } ∧
      (u.dock.replies.length ≤ 5 → t.dock.replies = u.dock.replies ++
        [⟨u.nextTag, .uploadEnd 1⟩, ⟨u.nextTag + 1, .uploadEnd 2⟩, ⟨u.nextTag + 2, .uploadEnd 3⟩])
    (4294967295 ≤ u.store.seqCounter → noNumber) ∧
    (u.store.seqCounter < 4294967295 →
      (∀ (r : SectorRow) (q : Nat), r ∈ u.store.rows → r.state ≠ .retired → r.seq = some q →
        (∀ x ∈ u.store.rows, ∀ y, x ≠ r → x.state ≠ .retired → x.seq = some y → y < q) →
        let unused := fun offset =>
          ((u.store.flash.readBytes (slotAddress r.sector 0) 32).drop offset).take 6 = List.replicate 6 0xFF
        let reserves := fun entry =>
          let m := MarkReq.reserve r.sector entry (min (u.store.seqCounter + 8192) 4294967295)
          waits { u.store with marks :=
            if m ∈ u.store.marks ∨ u.store.serving = some (.mark m) then u.store.marks else u.store.marks ++ [m] }
        (unused 18 → t = reserves 2) ∧ (¬ unused 18 → unused 24 → t = reserves 3) ∧ (¬ unused 18 → ¬ unused 24 → noNumber)) ∧
      ((∀ r ∈ u.store.rows, r.state ≠ .retired → r.seq = none) →
        (u.store.opening.isSome = true → t = waits u.store) ∧
        (u.store.opening = none → ∀ c, u.store.candidate = some c → c.state = .erased →
          t = waits { u.store with
            opening := some ⟨c.sector, u.store.sectorSeq, c.eraseCount, u.store.seqCounter⟩
            head := some (c.sector, 1)
            progs := u.store.progs ++ [.opening] }) ∧
        (u.store.opening = none → (∀ c, u.store.candidate = some c → c.state ≠ .erased) → noNumber))))

/-- UPLOAD_MARK and UPLOAD_PAUSE_TIMEOUT (10.2): the raise of the mark with its three effects, the pause timer, the session that goes on,
and the session that stalls; and what the end of an UPLOAD DATA counts before it pauses or streams on. The model's choices: a streamed
count at 65,535 stays there (log 31), a pair leaves the synthesis list at the raise (log 23), an UPLOADED mark that waits or is being
programmed is not requested twice (log 29), the marks of one raise are requested in row order (log 53), and the session pauses at 32 after
the last synthesized record too (log 48). -/
def Obligations.UploadMarksAndPauses : Prop :=
  (∀ (m : BitVec 32) (s : State), Hears s 11 → judgeDock s .general = .pass →
    exec (.uploadMark m) s = .next (settle (uploadMark m.toNat s.received))) ∧
  (∀ (m : Nat) (u : State),
    let x := u.dock.session
    let v := if u.store.uploadMark < m ∧ m ≤ x.highest then raiseMark u m else u
    (x.state = .none ∨ x.state = .starting → uploadMark m u = replyWith u 2 .refusedState []) ∧
    (x.state = .streaming ∨ x.state = .stalled ∨ x.state = .done → uploadMark m u = v) ∧
    (x.state = .paused →
      (32 ≤ v.dock.session.outstanding.length →
        uploadMark m u = { v with dock := { v.dock with session := { v.dock.session with pauseSince := some u.now } } }) ∧
      (v.dock.session.outstanding.length < 32 →
        uploadMark m u = streamOn { v with dock := { v.dock with session := { v.dock.session with
          state := .streaming
          pauseSince := none } } }))) ∧
  (∀ (m : Nat) (u : State),
    let t := raiseMark u m
    t = { u with
      store := { u.store with
        uploadMark := m
        marks := t.store.marks }
      dock := { u.dock with session := { u.dock.session with
        outstanding := u.dock.session.outstanding.filter fun n => decide (m < n)
        synthList := u.dock.session.synthList.filter fun x => decide (m < x.2) } }
      engine := { u.engine with requests := u.engine.requests ++
        (u.dock.session.synthList.filter fun x => decide (x.2 ≤ m)).map fun x => StationReq.keptRelease x.1 x.2 } } ∧
    (∀ r ∈ u.store.rows, r.state = .full → (∀ n, r.last = some n → n ≤ m) →
      .uploaded r.sector ∈ t.store.marks ∨ t.store.serving = some (.mark (.uploaded r.sector))) ∧
    (∀ x ∈ t.store.marks, x ∈ u.store.marks ∨
      ∃ r ∈ u.store.rows, x = .uploaded r.sector ∧ r.state = .full ∧ ∀ k, r.last = some k → k ≤ m) ∧
    (let due := (u.store.rows.filter fun r => decide (r.state = .full ∧ ∀ k, r.last = some k → k ≤ m)).map fun r => MarkReq.uploaded r.sector
     t.store.marks = due.foldl (fun l x => if x ∈ l ∨ u.store.serving = some (.mark x) then l else l ++ [x]) u.store.marks)) ∧
  (∀ (s : State) (t : Time), s.startup.powered = true → s.dock.session.state = .paused → s.dock.session.pauseSince = some t →
    3000 ≤ (s.now - t).toNat →
    exec .uploadPauseTimeout s = .next (settle { s with dock := { s.dock with session := { s.dock.session with
      state := .stalled
      pauseSince := none } } })) ∧
  (∀ (s : State) (n : Nat),
    let x := s.dock.session
    let u := { s with dock := { s.dock with session := { x with
      data := none
      streamed := min (x.streamed + 1) 65535
      synthCount := if x.phase = .synthesized then x.synthCount + 1 else x.synthCount
      highest := max x.highest n
      outstanding := if s.store.uploadMark < n then x.outstanding ++ [n] else x.outstanding } } }
    (32 ≤ u.dock.session.outstanding.length → finishUpload s n = { u with dock := { u.dock with session := { u.dock.session with
      state := .paused
      pauseSince := some s.now } } }) ∧
    (u.dock.session.outstanding.length < 32 → finishUpload s n = streamOn u)) ∧
  (∀ u : State, u.dock.session.phase = .log →
    streamOn u = { u with dock := { u.dock with session := { u.dock.session with ask := match u.dock.session.readPos with
      | some (pos, last) => some (.next pos last)
      | none => some .tail } } }) ∧
  (∀ u : State, u.dock.session.phase = .synthesized → streamOn u = synthesizeNext u)

/-- ERASE_UPLOADED and CLEAR_FINDINGS (10.3): the UPLOADED sectors join the erase list, which keeps its order by sector sequence (9.7), with
their number in the reply; and the clear refused while a number given out is above the upload mark. A sector joins the list at its place
in the order, after those of its own sequence, and a sector already in it does not join again (log 20). -/
def Obligations.DepotErasesAndClears : Prop :=
  (∀ s : State, Hears s 11 → judgeDock s .general = .pass →
    exec .eraseUploaded s = .next (settle (eraseUploaded s.received)) ∧
    exec .clearFindings s = .next (settle (clearFindings s.received))) ∧
  (∀ u : State,
    let listed := u.store.uploadedSectors
    let key := fun n => ((u.store.rows.find? fun r => r.sector == n).bind (·.seq)).getD 0
    ∃ list : List EraseItem,
    eraseUploaded u = replyWith { u with store := { u.store with
      eraseList := list
      rows := u.store.rows.map fun r => if r.state = .uploaded then { r with state := .eraseListed } else r } }
      4 .done (bytesOf 2 listed.length) ∧
    u.store.eraseList.Sublist list ∧
    (∀ n ∈ listed, n ∈ list.map (·.sector)) ∧
    (∀ i ∈ list, i ∈ u.store.eraseList ∨ (i.sector ∈ listed ∧ i.scanPlaced = false ∧ i.phase = .listed)) ∧
    ((u.store.eraseList.map (·.sector)).Nodup → (list.map (·.sector)).Nodup) ∧
    (u.store.eraseList.Pairwise (fun a b => key a.sector ≤ key b.sector) → list.Pairwise (fun a b => key a.sector ≤ key b.sector)) ∧
    listed.length = (u.store.rows.filter fun r => r.state == .uploaded && r.seq.isSome).length ∧
    (∀ n ∈ listed, ∃ r ∈ u.store.rows, r.sector = n ∧ r.state = .uploaded) ∧
    (∀ r ∈ u.store.rows, r.state = .uploaded → r.seq.isSome = true → r.sector ∈ listed)) ∧
  (∀ u : State, clearFindings u =
    if u.store.lastGiven ≤ u.store.uploadMark then { u with engine := { u.engine with requests := u.engine.requests ++ [.findingsClear] } }
    else replyWith u 5 .refusedNotUploaded [])

/-- PLAN_BEGIN, PLAN_DATA and PLAN_END (10.4): counts brought into range and the load begun; a record taken into the write queue or
ignored and counted; the load ended, and the check read over the marked indexes begun once the queue is drained. -/
def Obligations.PlanLoadOrdered : Prop :=
  (∀ (ident : BitVec 32) (count segments index : BitVec 16) (record : List Byte) (s : State), Hears s 11 →
    (judgeDock s .general = .pass →
      exec (.planBegin ident count segments) s = .next (settle (planBegin ident count.toNat segments.toNat s.received))) ∧
    (judgeDock s .planData = .pass → exec (.planData index record) s = .next (settle (planData index.toNat record s.received))) ∧
    (judgeDock s .planEnd = .pass → exec .planEnd s = .next (settle (planEnd s.received)))) ∧
  (∀ (ident : BitVec 32) (count segments : Nat) (u : State),
    ((u.dock.session.state = .starting ∨ u.dock.session.state = .streaming ∨ u.dock.session.state = .paused) →
      planBegin ident count segments u = replyWith u 6 .refusedState []) ∧
    ((u.dock.session.state = .none ∨ u.dock.session.state = .stalled ∨ u.dock.session.state = .done) → RunLaw u → u.isRunning = false →
      let w := raceReading u
      ∃ v, planBegin ident count segments u = { replyWith v 6 .accepted [] with
          engine := { v.engine with requests := v.engine.requests ++ [.emptying] }
          tracker := { v.tracker with
            rows := []
            tallies := [] } } ∧
        v = { w with
          engine := { w.engine with
            plan := none
            interrupted := none
            runState := some .loadingErase }
          presence := { u.presence with owners := v.presence.owners }
          dock := { u.dock with load := { PlanLoad.afterStart with
            phase := .erasing
            ident := ident
            count := if count = 0 then 1 else if 16384 < count then 16384 else count
            segments := if segments = 0 then 1 else if 512 < segments then 512 else segments } } })) ∧
  (∀ (index : Nat) (record : List Byte) (u : State),
    let l := u.dock.load
    planData index record u =
      if l.phase = .receiving ∧ index < l.count ∧ index ∉ l.received ∧ l.queue.length < 64 then
        { u with dock := { u.dock with load := { l with
          received := l.received ++ [index]
          queue := l.queue ++ [(index, record.take 19)] } } }
      else { u with dock := { u.dock with load := { l with ignored := l.ignored + 1 } } }) ∧
  (∀ u : State, (u.dock.load.phase ≠ .receiving → planEnd u = replyWith u 8 .refusedState []) ∧
    (u.dock.load.phase = .receiving →
      planEnd u = planEndIfDrained (replyWith { u with dock := { u.dock with load := { u.dock.load with phase := .ending } } } 8 .accepted []))) ∧
  (∀ u : State, u.dock.load.phase = .ending →
    let marked := (List.range u.dock.load.count).filter u.dock.load.received.contains
    (u.planWriting = true → planEndIfDrained u = u) ∧
    (u.planWriting = false → marked ≠ [] →
      planEndIfDrained u = { u with dock := { u.dock with load := { u.dock.load with check := some marked } } }) ∧
    (u.planWriting = false → marked = [] → u.dock.load.count ≠ u.dock.load.received.length →
      (planEndIfDrained u).engine.runState = some .blank ∧ (planEndIfDrained u).dock.load.phase = .none))

/-- SETTING_WRITE, SETTING_SAVE, SAVE_COMPLETION and DOCK_CLEAR_CONDITIONS (11.3, 11.4): bytes placed in the image, the save begun or
waiting, its end with one reply for each SAVE served, and the clear with its reply. -/
def Obligations.SettingsWrittenAndSaved : Prop :=
  (∀ (offset : Byte) (data : List Byte) (s : State), Hears s 11 → judgeDock s .settings = .pass →
    exec (.settingWrite offset data) s = .next (settle (settingWrite offset.toNat data s.received)) ∧
    exec .settingSave s = .next (settle (settingSave s.received)) ∧
    exec .dockClearConditions s = .next (settle (dockClear s.received))) ∧
  (∀ (offset : Nat) (data : List Byte) (u : State), u.startup.image.length = 96 → 1 ≤ data.length → data.length ≤ 16 →
    ∃ image : List Byte, settingWrite offset data u =
        replyWith { u with startup := { u.startup with image := image } } 9 .done [BitVec.ofNat 8 (min data.length (96 - offset))] ∧
      image.length = 96 ∧
      ∀ i, i < 96 → image.getD i 0 =
        if offset ≤ i ∧ i < offset + data.length then data.getD (i - offset) 0 else u.startup.image.getD i 0) ∧
  (∀ u : State,
    (u.startup.save = none →
      settingSave u = { u with startup := { u.startup with save := some ⟨u.startup.image ++ crcBytes u.startup.image, 1⟩ } }) ∧
    (u.startup.save ≠ none →
      settingSave u = { u with startup := { u.startup with waitingSaves := u.startup.waitingSaves + 1 } })) ∧
  (∀ (s : State) (job : SaveJob) (ok : Bool), s.startup.powered = true → s.startup.save = some job → 1 ≤ job.serves → job.serves ≤ 8 →
    s.startup.cfg.wf = true →
    ∃ t, exec (.saveCompletion ok) s = .next (settle t) ∧
      t = { s with
        startup := { s.startup with
          cfg := t.startup.cfg
          conds := { s.startup.conds with configDefaulted := s.startup.conds.configDefaulted && !ok }
          save := if s.startup.waitingSaves = 0 then none
            else some ⟨s.startup.image ++ crcBytes s.startup.image, s.startup.waitingSaves⟩
          waitingSaves := 0 }
        dock := { s.dock with
          replies := t.dock.replies
          replyDrops := t.dock.replyDrops }
        nextTag := s.nextTag + job.serves
        freeIndex := if ok then s.freeIndex else s.freeIndex + 1 } ∧
      ((t.dock.replies.map (·.body)).drop (t.dock.replies.length - job.serves)) =
        List.replicate job.serves (.fixed [10, 1, if ok then 0 else 1]) ∧
      (ok = true → t.startup.cfg.readBytes 0 job.bytes.length = job.bytes ∧
        ∀ a, job.bytes.length ≤ a → t.startup.cfg.read a = s.startup.cfg.read a) ∧
      (ok = false → ∀ a, 98 ≤ a → t.startup.cfg.read a = s.startup.cfg.read a)) ∧
  (∀ u : State, dockClear u = replyWith (clearConditions u) 11 .done (bytesOf 2 (clearConditions u).conditionsField.toNat))

/-! ## What each command does: flash -/

/-- PAGE_BUFFER_TIMEOUT, PAGE_PROGRAM and SECTOR_OPENING (9.4, 9.5): the page buffer programmed, its records in flash and the head past
them, the page buffer refilled from the second buffer, its next program begun at its target, past 500 ms or in a flush; a sector that is
full left for the candidate, opened at once where it is ERASED, and else no head; or the page abandoned with a fault, the sector with it at
its fourth or at its last page (log 15); the opening made, or its sector retired. During a flush what is left is programmed at once, and
the flush ends when both buffers are empty. After a fault the page buffer takes the new target, what is beyond it goes ahead of the second
buffer, and the records without a place are removed: a FIRST READ goes back to its entry, any other is dropped and counted. The bytes of a
failed program are free (log 7); the abandoned-page count is 0 again at an opening (log 18); a failed opening uses up its sector sequence,
retires its sector and opens the next candidate if that is ERASED, as 9.5 says, and the sequence stays in the row (log 19); the sector
sequence goes on past 4,294,967,294 (log 64); a program of the last page that does not reach slot 127 leaves the sector OPENED (log 44);
the second buffer takes what returns to it whatever it holds (log 45); a page buffer left empty after a fault is FILLING (log 62); the FULL
mark is requested at a sector's end whether or not it is set (log 63); and a FULL or RETIRED mark that already waits is not requested
again, so that the list of marks stays as it is (DEDUCED, log 29). -/
def Obligations.LogPrograms : Prop :=
  (∀ (s : State) (b : Buffered) (rest : List Buffered), s.startup.powered = true → s.store.programming = false →
    s.store.pageBuf = b :: rest → 500 ≤ (s.now - b.entered).toNat →
    exec .pageBufferTimeout s = .next (settle { s with store := { s.store with
      programming := true
      progs := s.store.progs ++ [.logPage] } })) ∧
  (∀ (s : State) (n slot : Nat), s.startup.powered = true → s.store.serving = some .logPage → s.store.head = some (n, slot) →
    inFlash (slotAddress n slot) s.store.pageBytes.length = true →
    let bytes := s.store.pageBuf.flatMap fun b => recordBytes b.number b.body
    let next := slot + s.store.pageBuf.length
    (∃ t, exec (.pageProgram true) s = .next (settle (checkFlush t)) ∧
      t = { s with
        store := { s.store with
          serving := none
          flash := s.store.flash.program (slotAddress n slot) bytes
          head := t.store.head
          pageBuf := t.store.pageBuf
          second := t.store.second
          programming := t.store.programming
          progs := t.store.progs
          rows := t.store.rows
          marks := t.store.marks
          opening := t.store.opening }
        startup := { s.startup with conds := { s.startup.conds with storeFull := t.startup.conds.storeFull } } } ∧
      let refilled := fun (target : Nat) (before : List ProgramReq) =>
        t.store.pageBuf = s.store.second.take target ∧ t.store.second = s.store.second.drop target ∧
        (t.store.programming = true ↔ ∃ b, (s.store.second.take target).head? = some b ∧
          (target ≤ s.store.second.length ∨ 500 < (s.now - b.entered).toNat ∨ s.store.flushing = true)) ∧
        t.store.progs = before ++ if t.store.programming then [.logPage] else []
      (next < 128 →
        t.store.head = some (n, next) ∧ t.store.marks = s.store.marks ∧ t.store.opening = s.store.opening ∧
        refilled (8 - next % 8) s.store.progs ∧
        t.store.rows = s.store.rows.map fun r => if r.sector = n then { r with
          first := r.first.or (s.store.pageBuf.head?.map (·.number))
          last := (s.store.pageBuf.getLast?.map (·.number)).or r.last } else r) ∧
      (128 ≤ next →
        t.store.rows = (s.store.rows.map fun r => if r.sector = n then { r with
          state := .full
          first := r.first.or (s.store.pageBuf.head?.map (·.number))
          last := (s.store.pageBuf.getLast?.map (·.number)).or r.last } else r) ∧
        t.store.marks = (if .full n ∈ s.store.marks then s.store.marks else s.store.marks ++ [.full n]) ∧
        (∀ c, t.store.candidate = some c → c.state = .erased →
          t.store.head = some (c.sector, 1) ∧
          t.store.opening = some ⟨c.sector, s.store.sectorSeq, c.eraseCount, s.store.seqCounter⟩ ∧
          refilled 7 (s.store.progs ++ [.opening])) ∧
        ((∀ c, t.store.candidate = some c → c.state ≠ .erased) →
          t.store.head = none ∧ t.store.opening = s.store.opening ∧ refilled 0 s.store.progs))) ∧
    (∃ t gone, exec (.pageProgram false) s = .next (settle (checkFlush t)) ∧
      t = { s with
        store := { t.store with
          flash := s.store.flash.tornProgram s.freeIndex (slotAddress n slot) bytes
          faults := min (s.store.faults + 1) 65535
          seqCounter := s.store.seqCounter
          sectorSeq := s.store.sectorSeq
          uploadMark := s.store.uploadMark
          eraseList := s.store.eraseList
          planErase := s.store.planErase
          serving := none
          erase := s.store.erase }
        engine := { s.engine with table := t.engine.table }
        startup := { s.startup with conds := { s.startup.conds with
          storeFull := t.startup.conds.storeFull
          storeFault := true } }
        freeIndex := s.freeIndex + 1 } ∧
      let leaves := fun (mark : MarkReq) (after : SectorState) =>
        t.store.rows = (s.store.rows.map fun x => if x.sector = n then { x with
          state := after
          abandoned := x.abandoned + 1 } else x) ∧
        t.store.marks = (if mark ∈ s.store.marks then s.store.marks else s.store.marks ++ [mark]) ∧
        (∀ c, t.store.candidate = some c → c.state = .erased →
          t.store.head = some (c.sector, 1) ∧
          t.store.opening = some ⟨c.sector, s.store.sectorSeq, c.eraseCount, s.store.seqCounter⟩ ∧ .opening ∈ t.store.progs) ∧
        ((∀ c, t.store.candidate = some c → c.state ≠ .erased) → t.store.head = none ∧ t.store.opening = s.store.opening)
      (∀ r, s.store.row n = some r → 4 ≤ r.abandoned + 1 → leaves (.retired n) .retired) ∧
      (∀ r, s.store.row n = some r → r.abandoned + 1 < 4 → 120 ≤ slot → leaves (.full n) .full) ∧
      (∀ r, s.store.row n = some r → r.abandoned + 1 < 4 → slot < 120 →
        t.store.head = some (n, (slot / 8 + 1) * 8) ∧ t.store.marks = s.store.marks ∧ t.store.opening = s.store.opening ∧
        t.store.rows = s.store.rows.map fun x =>
          if x.sector = n then { x with abandoned := x.abandoned + 1 } else x) ∧
      Resplit s t gone)) ∧
  (∀ (s : State) (o : Opening), s.startup.powered = true → s.store.serving = some .opening → s.store.opening = some o →
    inFlash (slotAddress o.sector 0) (openingBytes o).length = true →
    (∃ t, exec (.sectorOpening true) s = .next (settle (numberAfterOpening (checkFlush t))) ∧
      t = { s with
        store := { s.store with
          serving := none
          flash := s.store.flash.program (slotAddress o.sector 0) (openingBytes o)
          opening := none
          sectorSeq := s.store.sectorSeq + 1
          rows := s.store.rows.map fun r => if r.sector = o.sector then { r with
            state := .opened
            seq := some o.seq
            abandoned := 0
            first := none
            last := none } else r }
        startup := { s.startup with conds := { s.startup.conds with storeFull := t.startup.conds.storeFull } } }) ∧
    (∃ t gone, exec (.sectorOpening false) s = .next (settle (numberAfterOpening (checkFlush t))) ∧
      t = { s with
        store := { t.store with
          flash := s.store.flash.tornProgram s.freeIndex (slotAddress o.sector 0) (openingBytes o)
          sectorSeq := s.store.sectorSeq + 1
          faults := min (s.store.faults + 1) 65535
          seqCounter := s.store.seqCounter }
        engine := { s.engine with table := t.engine.table }
        startup := { s.startup with conds := { s.startup.conds with
          storeFull := t.startup.conds.storeFull
          storeFault := true } }
        freeIndex := s.freeIndex + 1 } ∧
      (∀ r ∈ t.store.rows, r.sector = o.sector → r.state = .retired ∧ r.seq = some o.seq) ∧
      .retired o.sector ∈ t.store.marks ∧
      (∀ c, t.store.candidate = some c → c.state = .erased →
        t.store.head = some (c.sector, 1) ∧
        t.store.opening = some ⟨c.sector, s.store.sectorSeq + 1, c.eraseCount, s.store.seqCounter⟩ ∧
        .opening ∈ t.store.progs) ∧
      ((∀ c, t.store.candidate = some c → c.state ≠ .erased) → t.store.head = none ∧ t.store.opening = none) ∧
      Resplit s t gone)) ∧
  (∀ st : Store,
    ((∀ r ∈ st.rows, r.seq = none) → st.candidate = st.rows.find? fun x => x.sector == 128) ∧
    (∀ (r : SectorRow) (q : Nat), r ∈ st.rows → r.seq = some q → (∀ x ∈ st.rows, ∀ y, x ≠ r → x.seq = some y → y < q) →
      st.candidate = ((st.rows.filter fun x => decide (r.sector < x.sector)) ++
        (st.rows.filter fun x => decide (x.sector ≤ r.sector))).find? fun x => x.state != .retired)) ∧
  (∀ u : State,
    (u.store.flushing = true → u.store.pageBuf = [] → u.store.second = [] → checkFlush u = flushEnded u) ∧
    (u.store.flushing = false ∨ u.store.pageBuf ≠ [] ∨ u.store.second ≠ [] → checkFlush u = u) ∧
    (u.dock.session.numberWait = false → numberAfterOpening u = u) ∧
    (u.dock.session.numberWait = true → u.store.reservePending = false → numberAfterOpening u = synthesizeNext u)) ∧
  (∀ (u : State) (b : Buffered),
    (∀ e, b.body.kind = .firstRead → u.engine.lookup b.body.meterId = some e → (e.status = .read ∨ e.status = .late) →
      e.firstRead = some b.number →
      disposeRemoved u b = { u with engine := { u.engine with table := u.engine.table.map fun x =>
        if x.meterId = e.meterId then { e with
          firstRead := none
          kept := some b.body } else x } }) ∧
    ((b.body.kind ≠ .firstRead ∨ ∀ e, u.engine.lookup b.body.meterId = some e →
        ¬ ((e.status = .read ∨ e.status = .late) ∧ e.firstRead = some b.number)) →
      disposeRemoved u b = { u with store := { u.store with dropped := min (u.store.dropped + 1) 65535 } }))

/-- HEADER_MARK_PROGRAM, PLAN_RECORD_PROGRAM and PLAN_HEADER_PROGRAM (9.2, 9.7, 9.8, 10.4): the bytes written, the state that a verified
mark gives its sector (of an UPLOADED mark by 10.2), the plan made VALID, and the fault of a program that does not verify (9.5), whose bytes
lie anywhere between old and intended (9.1; log 7). A plan header that does not verify is answered by PLAN STATUS with result 2, its three
figures of the build 0, and the station is BLANK (10.4). A plan record's end lets a PLAN END that waits for it go on (10.4). That a reserve entry
still raises the durable bound after the session that asked for it has ended, and gives no number, is the model's choice (log 54). -/
def Obligations.MarkAndPlanPrograms : Prop :=
  (∀ (s : State) (m : MarkReq) (ok : Bool), s.startup.powered = true → s.store.serving = some (.mark m) →
    inFlash (slotAddress m.sector 0 + m.offset) m.pattern.length = true →
    let a := slotAddress m.sector 0 + m.offset
    let u := if ok then { s with store := { s.store with
        serving := none
        flash := s.store.flash.program a m.pattern } }
      else { s with
        store := { s.store with
          serving := none
          flash := s.store.flash.tornProgram s.freeIndex a m.pattern
          faults := min (s.store.faults + 1) 65535 }
        startup := { s.startup with conds := { s.startup.conds with storeFault := true } }
        freeIndex := s.freeIndex + 1 }
    exec (.headerMarkProgram ok) s = .next (settle (markEnds m ok u)) ∧
    (∀ n, (m = .full n ∨ m = .retired n ∨ (m = .uploaded n ∧ ok = false)) → markEnds m ok u = u) ∧
    (∀ n, m = .uploaded n → ok = true → markEnds m ok u = { u with store := { u.store with rows := u.store.rows.map fun r =>
      if r.sector = n ∧ r.state = .full then { r with state := .uploaded } else r } }) ∧
    (∀ n, m = .eraseBegun n → markEnds m ok u = { u with store := { u.store with
      rows := u.store.rows.map fun r => if r.sector = n then { r with state := .erasing } else r
      eraseList := u.store.eraseList.map fun x => if x.sector = n then { x with phase := .ready } else x } }) ∧
    (∀ n k b, m = .reserve n k b → s.dock.session.numberWait = false →
      markEnds m ok u = if ok then { u with store := { u.store with durableBound := b } } else u) ∧
    (∀ n k b x rest, m = .reserve n k b → s.dock.session.numberWait = true → s.dock.session.toSynth = x :: rest →
      markEnds m ok u = if ok then synthesize { u with store := { u.store with durableBound := b } } x rest else endSynthesis u)) ∧
  (∀ (s : State) (i : Nat) (bs : List Byte) (ok : Bool), s.startup.powered = true → s.store.serving = some (.planRecord i bs) →
    inFlash (planSlotAddress i) bs.length = true →
    exec (.planRecordProgram ok) s = .next (settle (planEndIfDrained (
      if ok then { s with store := { s.store with
        serving := none
        flash := s.store.flash.program (32 * i) bs } }
      else { s with
        store := { s.store with
          serving := none
          flash := s.store.flash.tornProgram s.freeIndex (32 * i) bs
          faults := min (s.store.faults + 1) 65535 }
        dock := { s.dock with load := { s.dock.load with bad := s.dock.load.bad ++ [i] } }
        startup := { s.startup with conds := { s.startup.conds with storeFault := true } }
        freeIndex := s.freeIndex + 1 })))) ∧
  (∀ u : State, (u.dock.load.phase ≠ .ending ∨ u.planWriting = true → planEndIfDrained u = u) ∧
    (u.dock.load.phase = .ending → u.planWriting = false →
      let marked := (List.range u.dock.load.count).filter u.dock.load.received.contains
      marked ≠ [] →
        planEndIfDrained u = { u with dock := { u.dock with load := { u.dock.load with check := some marked } } })) ∧
  (∀ (s : State) (p : Plan), s.startup.powered = true → s.store.serving = some .planHeader →
    p = ⟨s.dock.load.ident, s.dock.load.count, s.dock.load.segments⟩ →
    exec (.planHeaderProgram true) s = .next (settle { s with
      store := { s.store with
        serving := none
        flash := s.store.flash.program 19 (planHeaderBytes p) }
      engine := { s.engine with
        plan := some p
        requests := s.engine.requests ++ [.ownBuild] } }) ∧
    ∃ t, exec (.planHeaderProgram false) s = .next (settle t) ∧ t.engine.runState = some .blank ∧ t.engine.plan = s.engine.plan ∧
      (s.dock.load.ignored ≤ 65535 →
        let l := s.dock.load
        t.dock = { s.dock with
          load := { l with phase := .none }
          replies := (if 8 ≤ s.dock.replies.length then s.dock.replies.tail else s.dock.replies) ++ [⟨s.nextTag, .fixed ([8, 1, 2] ++
            bytesOf 2 l.received.length ++ bytesOf 2 (l.count - l.received.length) ++ bytesOf 2 l.bad.length ++ bytesOf 2 l.ignored ++
            [0, 0, 0, 0, 0, 0])⟩]
          replyDrops := if 8 ≤ s.dock.replies.length then min (s.dock.replyDrops + 1) 65535 else s.dock.replyDrops }) ∧
      t.dock.load = { s.dock.load with phase := .none } ∧ t.store.faults = min (s.store.faults + 1) 65535 ∧
      t.startup.conds.storeFault = true ∧ t.store.flash = s.store.flash.tornProgram s.freeIndex 19 (planHeaderBytes p))

/-- SECTOR_ERASE and PLAN_SECTOR_ERASE (9.6, 9.7, 10.4): after 40 ms of erase time every byte of the sector reads 0xFF and every other byte
as before; a log sector is ERASED, its erase count up, out of the erase list, and where no sector is OPENED the candidate is opened at once
if it is ERASED (9.4); the plan region goes on to the next sector, or after the last one, with no erase requested any more, to LOADING-DATA
with PLAN STATUS (ready) and the map computed afresh (3.4), all else as before. An erase is suspended while
the flash serves anything else (9.6). That erase time is counted in idle steps and its end awaits a command (logs 1 and 14), and that the
abandoned-page count is 0 again at an erase (log 18), are the model's choices. -/
def Obligations.FlashErases : Prop :=
  (∀ (s : State) (e : EraseRun), s.startup.powered = true → s.store.erase = some e → s.store.serving = none → 40 ≤ e.spent →
    128 ≤ e.sector → inFlash (slotAddress e.sector 0) 4096 = true →
    ∃ t, exec .sectorErase s = .next (settle t) ∧
      t = { s with store := { s.store with
        flash := t.store.flash
        erase := none
        eraseList := s.store.eraseList.filter (·.sector != e.sector)
        rows := s.store.rows.map fun r => if r.sector = e.sector then { r with
          state := .erased
          seq := none
          eraseCount := min (r.eraseCount + 1) 16777214
          abandoned := 0
          first := none
          last := none } else r
        head := t.store.head
        opening := t.store.opening
        progs := t.store.progs } } ∧
      (s.store.head.isSome = true → t.store.head = s.store.head ∧ t.store.opening = s.store.opening ∧ t.store.progs = s.store.progs) ∧
      (s.store.head = none →
        (t.store.candidateErased = false → t.store.head = none ∧ t.store.opening = s.store.opening ∧ t.store.progs = s.store.progs) ∧
        (∀ r, t.store.candidate = some r → r.state = .erased → t.store.head = some (r.sector, 1) ∧
          t.store.opening = some ⟨r.sector, s.store.sectorSeq, r.eraseCount, s.store.seqCounter⟩ ∧
          t.store.progs = s.store.progs ++ [.opening])) ∧
      ∀ a, t.store.flash.read a = if a / 4096 = e.sector then 0xFF else s.store.flash.read a) ∧
  (∀ (s : State) (e : EraseRun), s.store.erase = some e → s.store.serving.isSome = true ∨ e.spent < 40 →
    exec .sectorErase s = .next s ∧ exec .planSectorErase s = .next s) ∧
  (∀ (s : State) (e : EraseRun), s.startup.powered = true → s.store.erase = some e → s.store.serving = none → 40 ≤ e.spent →
    e.sector < 128 →
    ∃ t, exec .planSectorErase s = .next (settle t) ∧
      (∀ a, t.store.flash.read a = if a / 4096 = e.sector then 0xFF else s.store.flash.read a) ∧
      (e.sector < 127 → t = { s with store := { s.store with
        flash := t.store.flash
        erase := none
        planErase := some (e.sector + 1) } }) ∧
      (e.sector = 127 → t.engine.runState = some .loadingData ∧ t.store.erase = none ∧ t.store.planErase = none ∧
        t.dock = { s.dock with
          load := { s.dock.load with phase := .receiving }
          replies := (if 8 ≤ s.dock.replies.length then s.dock.replies.tail else s.dock.replies) ++
            [⟨s.nextTag, .fixed ([6, 1] ++ bytesOf 2 s.dock.load.count ++ bytesOf 2 s.dock.load.segments)⟩]
          replyDrops := if 8 ≤ s.dock.replies.length then min (s.dock.replyDrops + 1) 65535 else s.dock.replyDrops } ∧
        (RunLaw s → s.isRunning = false →
          let v := raceReading s
          t = { v with
            store := { s.store with
              flash := t.store.flash
              erase := none
              planErase := none }
            engine := { v.engine with runState := some .loadingData }
            presence := { s.presence with owners := (List.range s.settings.collectors).map fun i => s.effectiveOwner (i + 1) }
            dock := t.dock
            nextTag := s.nextTag + 1 })))
end

