-- ==== Sys2Proof/Laws/State.lean ====
section
/-!
SUPPORT. What each named update does to each block of the state: one lemma for each block and update, so that no proof unfolds an update.
-/

namespace Sys2Proof.Machine

/-! ### endOperation -/

@[simp] theorem endOperation_radio (s : State) : (endOperation s).radio = s.radio := rfl
@[simp] theorem endOperation_rack (s : State) : (endOperation s).rack = s.rack := rfl
@[simp] theorem endOperation_presence (s : State) : (endOperation s).presence = s.presence := rfl
@[simp] theorem endOperation_engine (s : State) : (endOperation s).engine = { s.engine with op := .idle } := rfl
@[simp] theorem endOperation_tracker (s : State) : (endOperation s).tracker = s.tracker := rfl
@[simp] theorem endOperation_relay (s : State) : (endOperation s).relay = s.relay := rfl
@[simp] theorem endOperation_store (s : State) : (endOperation s).store = s.store := rfl
@[simp] theorem endOperation_dock (s : State) : (endOperation s).dock = s.dock := rfl
@[simp] theorem endOperation_startup (s : State) : (endOperation s).startup = s.startup := rfl
@[simp] theorem endOperation_nextTag (s : State) : (endOperation s).nextTag = s.nextTag := rfl
@[simp] theorem endOperation_freeIndex (s : State) : (endOperation s).freeIndex = s.freeIndex := rfl
@[simp] theorem endOperation_pending (s : State) : (endOperation s).pending = s.pending := rfl

/-! ### countFault -/

@[simp] theorem countFault_radio (s : State) : s.countFault.radio = s.radio := rfl
@[simp] theorem countFault_rack (s : State) : s.countFault.rack = s.rack := rfl
@[simp] theorem countFault_presence (s : State) : s.countFault.presence = s.presence := rfl
@[simp] theorem countFault_engine (s : State) : s.countFault.engine = s.engine := rfl
@[simp] theorem countFault_tracker (s : State) : s.countFault.tracker = s.tracker := rfl
@[simp] theorem countFault_relay (s : State) : s.countFault.relay = s.relay := rfl
@[simp] theorem countFault_store (s : State) : s.countFault.store = { s.store with faults := countUp s.store.faults } := rfl
@[simp] theorem countFault_dock (s : State) : s.countFault.dock = s.dock := rfl
@[simp] theorem countFault_startup (s : State) : s.countFault.startup = { s.startup with conds := { s.startup.conds with storeFault := true } } := rfl
@[simp] theorem countFault_nextTag (s : State) : s.countFault.nextTag = s.nextTag := rfl
@[simp] theorem countFault_freeIndex (s : State) : s.countFault.freeIndex = s.freeIndex := rfl
@[simp] theorem countFault_pending (s : State) : s.countFault.pending = s.pending := rfl

/-! ### countDropped -/

@[simp] theorem countDropped_radio (s : State) : s.countDropped.radio = s.radio := rfl
@[simp] theorem countDropped_rack (s : State) : s.countDropped.rack = s.rack := rfl
@[simp] theorem countDropped_presence (s : State) : s.countDropped.presence = s.presence := rfl
@[simp] theorem countDropped_engine (s : State) : s.countDropped.engine = s.engine := rfl
@[simp] theorem countDropped_tracker (s : State) : s.countDropped.tracker = s.tracker := rfl
@[simp] theorem countDropped_relay (s : State) : s.countDropped.relay = s.relay := rfl
@[simp] theorem countDropped_store (s : State) : s.countDropped.store = { s.store with dropped := countUp s.store.dropped } := rfl
@[simp] theorem countDropped_dock (s : State) : s.countDropped.dock = s.dock := rfl
@[simp] theorem countDropped_startup (s : State) : s.countDropped.startup = s.startup := rfl
@[simp] theorem countDropped_nextTag (s : State) : s.countDropped.nextTag = s.nextTag := rfl
@[simp] theorem countDropped_freeIndex (s : State) : s.countDropped.freeIndex = s.freeIndex := rfl
@[simp] theorem countDropped_pending (s : State) : s.countDropped.pending = s.pending := rfl

/-! ### useFree -/

@[simp] theorem useFree_radio (s : State) : (useFree s).radio = s.radio := rfl
@[simp] theorem useFree_rack (s : State) : (useFree s).rack = s.rack := rfl
@[simp] theorem useFree_presence (s : State) : (useFree s).presence = s.presence := rfl
@[simp] theorem useFree_engine (s : State) : (useFree s).engine = s.engine := rfl
@[simp] theorem useFree_tracker (s : State) : (useFree s).tracker = s.tracker := rfl
@[simp] theorem useFree_relay (s : State) : (useFree s).relay = s.relay := rfl
@[simp] theorem useFree_store (s : State) : (useFree s).store = s.store := rfl
@[simp] theorem useFree_dock (s : State) : (useFree s).dock = s.dock := rfl
@[simp] theorem useFree_startup (s : State) : (useFree s).startup = s.startup := rfl
@[simp] theorem useFree_nextTag (s : State) : (useFree s).nextTag = s.nextTag := rfl
@[simp] theorem useFree_freeIndex (s : State) : (useFree s).freeIndex = s.freeIndex + 1 := rfl
@[simp] theorem useFree_pending (s : State) : (useFree s).pending = s.pending := rfl

/-! ### requestStation -/

@[simp] theorem requestStation_radio (s : State) (r : StationReq) : (requestStation s r).radio = s.radio := rfl
@[simp] theorem requestStation_rack (s : State) (r : StationReq) : (requestStation s r).rack = s.rack := rfl
@[simp] theorem requestStation_presence (s : State) (r : StationReq) : (requestStation s r).presence = s.presence := rfl
@[simp] theorem requestStation_engine (s : State) (r : StationReq) : (requestStation s r).engine = { s.engine with requests := s.engine.requests ++ [r] } := rfl
@[simp] theorem requestStation_tracker (s : State) (r : StationReq) : (requestStation s r).tracker = s.tracker := rfl
@[simp] theorem requestStation_relay (s : State) (r : StationReq) : (requestStation s r).relay = s.relay := rfl
@[simp] theorem requestStation_store (s : State) (r : StationReq) : (requestStation s r).store = s.store := rfl
@[simp] theorem requestStation_dock (s : State) (r : StationReq) : (requestStation s r).dock = s.dock := rfl
@[simp] theorem requestStation_startup (s : State) (r : StationReq) : (requestStation s r).startup = s.startup := rfl
@[simp] theorem requestStation_nextTag (s : State) (r : StationReq) : (requestStation s r).nextTag = s.nextTag := rfl
@[simp] theorem requestStation_freeIndex (s : State) (r : StationReq) : (requestStation s r).freeIndex = s.freeIndex := rfl
@[simp] theorem requestStation_pending (s : State) (r : StationReq) : (requestStation s r).pending = s.pending := rfl

/-! ### requestClosures -/

@[simp] theorem requestClosures_radio (s : State) (l : List Nat) : (requestClosures s l).radio = s.radio := rfl
@[simp] theorem requestClosures_rack (s : State) (l : List Nat) : (requestClosures s l).rack = s.rack := rfl
@[simp] theorem requestClosures_presence (s : State) (l : List Nat) : (requestClosures s l).presence = s.presence := rfl
@[simp] theorem requestClosures_engine (s : State) (l : List Nat) : (requestClosures s l).engine = { s.engine with requests := s.engine.requests ++ l.map StationReq.closure } := rfl
@[simp] theorem requestClosures_tracker (s : State) (l : List Nat) : (requestClosures s l).tracker = s.tracker := rfl
@[simp] theorem requestClosures_relay (s : State) (l : List Nat) : (requestClosures s l).relay = s.relay := rfl
@[simp] theorem requestClosures_store (s : State) (l : List Nat) : (requestClosures s l).store = s.store := rfl
@[simp] theorem requestClosures_dock (s : State) (l : List Nat) : (requestClosures s l).dock = s.dock := rfl
@[simp] theorem requestClosures_startup (s : State) (l : List Nat) : (requestClosures s l).startup = s.startup := rfl
@[simp] theorem requestClosures_nextTag (s : State) (l : List Nat) : (requestClosures s l).nextTag = s.nextTag := rfl
@[simp] theorem requestClosures_freeIndex (s : State) (l : List Nat) : (requestClosures s l).freeIndex = s.freeIndex := rfl
@[simp] theorem requestClosures_pending (s : State) (l : List Nat) : (requestClosures s l).pending = s.pending := rfl

/-! ### Rack.afterFrame -/

@[simp] theorem afterFrame_sending (r : Rack) : r.afterFrame.sending = r.sending := by unfold Rack.afterFrame; split <;> simp_all
@[simp] theorem afterFrame_retry (r : Rack) : r.afterFrame.retry = r.retry := by unfold Rack.afterFrame; split <;> rfl
@[simp] theorem afterFrame_lastDuplicate (r : Rack) : r.afterFrame.lastDuplicate = r.lastDuplicate := by
  unfold Rack.afterFrame; split <;> rfl
@[simp] theorem afterFrame_rxCrc (r : Rack) : r.afterFrame.rxCrc = r.rxCrc := by unfold Rack.afterFrame; split <;> rfl
@[simp] theorem afterFrame_rxFormat (r : Rack) : r.afterFrame.rxFormat = r.rxFormat := by unfold Rack.afterFrame; split <;> rfl
@[simp] theorem afterFrame_txErrors (r : Rack) : r.afterFrame.txErrors = r.txErrors := by unfold Rack.afterFrame; split <;> rfl
@[simp] theorem afterFrame_txDrops (r : Rack) : r.afterFrame.txDrops = r.txDrops := by unfold Rack.afterFrame; split <;> rfl
@[simp] theorem afterFrame_sendsRevisit (r : Rack) : r.afterFrame.sendsRevisit = r.sendsRevisit := by simp [Rack.sendsRevisit]

/-- A frame of this station's own on the bus stays there, and the receiver follows it on. -/
theorem afterFrame_of_sending {r : Rack} {x : Sending} (h : r.sending = some x) : r.afterFrame = r := by simp [Rack.afterFrame, h]

/-- With nothing of its own on the bus the receiver is IDLE. -/
theorem afterFrame_of_silent {r : Rack} (h : r.sending = none) : r.afterFrame = { r with rx := .idle } := by simp [Rack.afterFrame, h]

/-! ### receiveTo -/

@[simp] theorem receiveTo_radio (s : State) (x : RxState) : (receiveTo s x).radio = s.radio := rfl
@[simp] theorem receiveTo_rack (s : State) (x : RxState) : (receiveTo s x).rack = { s.rack with rx := x, sending := none } := rfl
@[simp] theorem receiveTo_presence (s : State) (x : RxState) : (receiveTo s x).presence = s.presence := rfl
@[simp] theorem receiveTo_engine (s : State) (x : RxState) : (receiveTo s x).engine = s.engine := rfl
@[simp] theorem receiveTo_tracker (s : State) (x : RxState) : (receiveTo s x).tracker = s.tracker := rfl
@[simp] theorem receiveTo_relay (s : State) (x : RxState) : (receiveTo s x).relay = s.relay := rfl
@[simp] theorem receiveTo_store (s : State) (x : RxState) : (receiveTo s x).store = s.store := rfl
@[simp] theorem receiveTo_dock (s : State) (x : RxState) : (receiveTo s x).dock = s.dock := rfl
@[simp] theorem receiveTo_startup (s : State) (x : RxState) : (receiveTo s x).startup = s.startup := rfl
@[simp] theorem receiveTo_nextTag (s : State) (x : RxState) : (receiveTo s x).nextTag = s.nextTag := rfl
@[simp] theorem receiveTo_freeIndex (s : State) (x : RxState) : (receiveTo s x).freeIndex = s.freeIndex := rfl
@[simp] theorem receiveTo_pending (s : State) (x : RxState) : (receiveTo s x).pending = s.pending := rfl

/-! ### duplicateFrame -/

@[simp] theorem duplicateFrame_radio (s : State) : (duplicateFrame s).radio = s.radio := rfl
@[simp] theorem duplicateFrame_rack (s : State) : (duplicateFrame s).rack = { s.rack with rx := .idle, sending := none, lastDuplicate := some s.now } := rfl
@[simp] theorem duplicateFrame_presence (s : State) : (duplicateFrame s).presence = s.presence := rfl
@[simp] theorem duplicateFrame_engine (s : State) : (duplicateFrame s).engine = s.engine := rfl
@[simp] theorem duplicateFrame_tracker (s : State) : (duplicateFrame s).tracker = s.tracker := rfl
@[simp] theorem duplicateFrame_relay (s : State) : (duplicateFrame s).relay = s.relay := rfl
@[simp] theorem duplicateFrame_store (s : State) : (duplicateFrame s).store = s.store := rfl
@[simp] theorem duplicateFrame_dock (s : State) : (duplicateFrame s).dock = s.dock := rfl
@[simp] theorem duplicateFrame_startup (s : State) : (duplicateFrame s).startup = { s.startup with conds := { s.startup.conds with duplicateSlot := true } } := rfl
@[simp] theorem duplicateFrame_nextTag (s : State) : (duplicateFrame s).nextTag = s.nextTag := rfl
@[simp] theorem duplicateFrame_freeIndex (s : State) : (duplicateFrame s).freeIndex = s.freeIndex := rfl
@[simp] theorem duplicateFrame_pending (s : State) : (duplicateFrame s).pending = s.pending := rfl

/-! ### remap -/

@[simp] theorem remap_radio (s : State) : (remap s).radio = s.radio := rfl
@[simp] theorem remap_rack (s : State) : (remap s).rack = s.rack := rfl
@[simp] theorem remap_presence (s : State) : (remap s).presence = { s.presence with owners := s.allShares.map s.effectiveOwner } := rfl
@[simp] theorem remap_engine (s : State) : (remap s).engine = s.engine := rfl
@[simp] theorem remap_tracker (s : State) : (remap s).tracker = s.tracker := rfl
@[simp] theorem remap_relay (s : State) : (remap s).relay = s.relay := rfl
@[simp] theorem remap_store (s : State) : (remap s).store = s.store := rfl
@[simp] theorem remap_dock (s : State) : (remap s).dock = s.dock := rfl
@[simp] theorem remap_startup (s : State) : (remap s).startup = s.startup := rfl
@[simp] theorem remap_nextTag (s : State) : (remap s).nextTag = s.nextTag := rfl
@[simp] theorem remap_freeIndex (s : State) : (remap s).freeIndex = s.freeIndex := rfl
@[simp] theorem remap_pending (s : State) : (remap s).pending = s.pending := rfl

/-! ### presumeAll -/

@[simp] theorem presumeAll_radio (s : State) : (presumeAll s).radio = s.radio := rfl
@[simp] theorem presumeAll_rack (s : State) : (presumeAll s).rack = s.rack := rfl
@[simp] theorem presumeAll_engine (s : State) : (presumeAll s).engine = s.engine := rfl
@[simp] theorem presumeAll_tracker (s : State) : (presumeAll s).tracker = s.tracker := rfl
@[simp] theorem presumeAll_relay (s : State) : (presumeAll s).relay = s.relay := rfl
@[simp] theorem presumeAll_store (s : State) : (presumeAll s).store = s.store := rfl
@[simp] theorem presumeAll_dock (s : State) : (presumeAll s).dock = s.dock := rfl
@[simp] theorem presumeAll_startup (s : State) : (presumeAll s).startup = s.startup := rfl
@[simp] theorem presumeAll_nextTag (s : State) : (presumeAll s).nextTag = s.nextTag := rfl
@[simp] theorem presumeAll_freeIndex (s : State) : (presumeAll s).freeIndex = s.freeIndex := rfl
@[simp] theorem presumeAll_pending (s : State) : (presumeAll s).pending = s.pending := rfl

/-! ### changeEntry -/

@[simp] theorem changeEntry_radio (s : State) (a b : Entry) : (changeEntry s a b).radio = s.radio := rfl
@[simp] theorem changeEntry_rack (s : State) (a b : Entry) : (changeEntry s a b).rack = s.rack := rfl
@[simp] theorem changeEntry_presence (s : State) (a b : Entry) : (changeEntry s a b).presence = s.presence := rfl
@[simp] theorem changeEntry_engine (s : State) (a b : Entry) : (changeEntry s a b).engine = s.engine.replaceEntry a b := rfl
@[simp] theorem changeEntry_tracker (s : State) (a b : Entry) : (changeEntry s a b).tracker = (s.tracker.forget a).learn b := rfl
@[simp] theorem changeEntry_relay (s : State) (a b : Entry) : (changeEntry s a b).relay = s.relay := rfl
@[simp] theorem changeEntry_store (s : State) (a b : Entry) : (changeEntry s a b).store = s.store := rfl
@[simp] theorem changeEntry_dock (s : State) (a b : Entry) : (changeEntry s a b).dock = s.dock := rfl
@[simp] theorem changeEntry_startup (s : State) (a b : Entry) : (changeEntry s a b).startup = s.startup := rfl
@[simp] theorem changeEntry_nextTag (s : State) (a b : Entry) : (changeEntry s a b).nextTag = s.nextTag := rfl
@[simp] theorem changeEntry_freeIndex (s : State) (a b : Entry) : (changeEntry s a b).freeIndex = s.freeIndex := rfl
@[simp] theorem changeEntry_pending (s : State) (a b : Entry) : (changeEntry s a b).pending = s.pending := rfl

/-! ### makeReply -/

@[simp] theorem makeReply_radio (s : State) (b : ReplyBody) : (makeReply s b).radio = s.radio := rfl
@[simp] theorem makeReply_rack (s : State) (b : ReplyBody) : (makeReply s b).rack = s.rack := rfl
@[simp] theorem makeReply_presence (s : State) (b : ReplyBody) : (makeReply s b).presence = s.presence := rfl
@[simp] theorem makeReply_engine (s : State) (b : ReplyBody) : (makeReply s b).engine = s.engine := rfl
@[simp] theorem makeReply_tracker (s : State) (b : ReplyBody) : (makeReply s b).tracker = s.tracker := rfl
@[simp] theorem makeReply_relay (s : State) (b : ReplyBody) : (makeReply s b).relay = s.relay := rfl
@[simp] theorem makeReply_store (s : State) (b : ReplyBody) : (makeReply s b).store = s.store := rfl
@[simp] theorem makeReply_startup (s : State) (b : ReplyBody) : (makeReply s b).startup = s.startup := rfl
@[simp] theorem makeReply_nextTag (s : State) (b : ReplyBody) : (makeReply s b).nextTag = s.nextTag + 1 := rfl
@[simp] theorem makeReply_freeIndex (s : State) (b : ReplyBody) : (makeReply s b).freeIndex = s.freeIndex := rfl
@[simp] theorem makeReply_pending (s : State) (b : ReplyBody) : (makeReply s b).pending = s.pending := rfl

/-! ### replyWith -/

@[simp] theorem replyWith_radio (s : State) (e : Byte) (x : DockStatus) (o : List Byte) : (replyWith s e x o).radio = s.radio := rfl
@[simp] theorem replyWith_rack (s : State) (e : Byte) (x : DockStatus) (o : List Byte) : (replyWith s e x o).rack = s.rack := rfl
@[simp] theorem replyWith_presence (s : State) (e : Byte) (x : DockStatus) (o : List Byte) : (replyWith s e x o).presence = s.presence := rfl
@[simp] theorem replyWith_engine (s : State) (e : Byte) (x : DockStatus) (o : List Byte) : (replyWith s e x o).engine = s.engine := rfl
@[simp] theorem replyWith_tracker (s : State) (e : Byte) (x : DockStatus) (o : List Byte) : (replyWith s e x o).tracker = s.tracker := rfl
@[simp] theorem replyWith_relay (s : State) (e : Byte) (x : DockStatus) (o : List Byte) : (replyWith s e x o).relay = s.relay := rfl
@[simp] theorem replyWith_store (s : State) (e : Byte) (x : DockStatus) (o : List Byte) : (replyWith s e x o).store = s.store := rfl
@[simp] theorem replyWith_startup (s : State) (e : Byte) (x : DockStatus) (o : List Byte) : (replyWith s e x o).startup = s.startup := rfl
@[simp] theorem replyWith_nextTag (s : State) (e : Byte) (x : DockStatus) (o : List Byte) : (replyWith s e x o).nextTag = s.nextTag + 1 := rfl
@[simp] theorem replyWith_freeIndex (s : State) (e : Byte) (x : DockStatus) (o : List Byte) : (replyWith s e x o).freeIndex = s.freeIndex := rfl
@[simp] theorem replyWith_pending (s : State) (e : Byte) (x : DockStatus) (o : List Byte) : (replyWith s e x o).pending = s.pending := rfl

/-! ### rejectRun -/

@[simp] theorem rejectRun_radio (s : State) : (rejectRun s).radio = s.radio := rfl
@[simp] theorem rejectRun_rack (s : State) : (rejectRun s).rack = s.rack := rfl
@[simp] theorem rejectRun_presence (s : State) : (rejectRun s).presence = s.presence := rfl
@[simp] theorem rejectRun_engine (s : State) : (rejectRun s).engine = { s.engine with runReject := countUp s.engine.runReject } := rfl
@[simp] theorem rejectRun_tracker (s : State) : (rejectRun s).tracker = s.tracker := rfl
@[simp] theorem rejectRun_relay (s : State) : (rejectRun s).relay = s.relay := rfl
@[simp] theorem rejectRun_store (s : State) : (rejectRun s).store = s.store := rfl
@[simp] theorem rejectRun_dock (s : State) : (rejectRun s).dock = s.dock := rfl
@[simp] theorem rejectRun_startup (s : State) : (rejectRun s).startup = s.startup := rfl
@[simp] theorem rejectRun_nextTag (s : State) : (rejectRun s).nextTag = s.nextTag := rfl
@[simp] theorem rejectRun_freeIndex (s : State) : (rejectRun s).freeIndex = s.freeIndex := rfl
@[simp] theorem rejectRun_pending (s : State) : (rejectRun s).pending = s.pending := rfl

/-! ### startStepSix -/

@[simp] theorem startStepSix_radio (s : State) : (startStepSix s).radio = s.radio := rfl
@[simp] theorem startStepSix_rack (s : State) : (startStepSix s).rack = s.rack := rfl
@[simp] theorem startStepSix_engine (s : State) : (startStepSix s).engine = s.engine := rfl
@[simp] theorem startStepSix_tracker (s : State) : (startStepSix s).tracker = s.tracker := rfl
@[simp] theorem startStepSix_relay (s : State) : (startStepSix s).relay = s.relay := rfl
@[simp] theorem startStepSix_store (s : State) : (startStepSix s).store = s.store := rfl
@[simp] theorem startStepSix_dock (s : State) : (startStepSix s).dock = s.dock := rfl
@[simp] theorem startStepSix_startup (s : State) : (startStepSix s).startup = { s.startup with step := .up } := rfl
@[simp] theorem startStepSix_nextTag (s : State) : (startStepSix s).nextTag = s.nextTag + 1 := rfl
@[simp] theorem startStepSix_freeIndex (s : State) : (startStepSix s).freeIndex = s.freeIndex := rfl
@[simp] theorem startStepSix_pending (s : State) : (startStepSix s).pending = s.pending := rfl

/-! ### queueShare -/

@[simp] theorem queueShare_radio (s : State) (n : Nat) : (queueShare s n).radio = s.radio := rfl
@[simp] theorem queueShare_rack (s : State) (n : Nat) : (queueShare s n).rack = s.rack := rfl
@[simp] theorem queueShare_engine (s : State) (n : Nat) : (queueShare s n).engine = s.engine := rfl
@[simp] theorem queueShare_tracker (s : State) (n : Nat) : (queueShare s n).tracker = s.tracker := rfl
@[simp] theorem queueShare_relay (s : State) (n : Nat) : (queueShare s n).relay = s.relay := rfl
@[simp] theorem queueShare_store (s : State) (n : Nat) : (queueShare s n).store = s.store := rfl
@[simp] theorem queueShare_dock (s : State) (n : Nat) : (queueShare s n).dock = s.dock := rfl
@[simp] theorem queueShare_startup (s : State) (n : Nat) : (queueShare s n).startup = s.startup := rfl
@[simp] theorem queueShare_nextTag (s : State) (n : Nat) : (queueShare s n).nextTag = s.nextTag := rfl
@[simp] theorem queueShare_freeIndex (s : State) (n : Nat) : (queueShare s n).freeIndex = s.freeIndex := rfl
@[simp] theorem queueShare_pending (s : State) (n : Nat) : (queueShare s n).pending = s.pending := rfl

/-! ### requestRelease -/

@[simp] theorem requestRelease_radio (s : State) (n : Nat) : (requestRelease s n).radio = s.radio := rfl
@[simp] theorem requestRelease_rack (s : State) (n : Nat) : (requestRelease s n).rack = s.rack := rfl
@[simp] theorem requestRelease_presence (s : State) (n : Nat) : (requestRelease s n).presence = s.presence.setShare n .notMine := rfl
@[simp] theorem requestRelease_engine (s : State) (n : Nat) : (requestRelease s n).engine = { s.engine with releases := s.engine.releases ++ [.share n] } := rfl
@[simp] theorem requestRelease_tracker (s : State) (n : Nat) : (requestRelease s n).tracker = s.tracker := rfl
@[simp] theorem requestRelease_relay (s : State) (n : Nat) : (requestRelease s n).relay = s.relay := rfl
@[simp] theorem requestRelease_store (s : State) (n : Nat) : (requestRelease s n).store = s.store := rfl
@[simp] theorem requestRelease_dock (s : State) (n : Nat) : (requestRelease s n).dock = s.dock := rfl
@[simp] theorem requestRelease_startup (s : State) (n : Nat) : (requestRelease s n).startup = s.startup := rfl
@[simp] theorem requestRelease_nextTag (s : State) (n : Nat) : (requestRelease s n).nextTag = s.nextTag := rfl
@[simp] theorem requestRelease_freeIndex (s : State) (n : Nat) : (requestRelease s n).freeIndex = s.freeIndex := rfl
@[simp] theorem requestRelease_pending (s : State) (n : Nat) : (requestRelease s n).pending = s.pending := rfl

/-! ### clearConditions -/

@[simp] theorem clearConditions_radio (s : State) : (clearConditions s).radio = s.radio := rfl
@[simp] theorem clearConditions_rack (s : State) : (clearConditions s).rack = s.rack := rfl
@[simp] theorem clearConditions_presence (s : State) : (clearConditions s).presence = s.presence := rfl
@[simp] theorem clearConditions_engine (s : State) : (clearConditions s).engine = s.engine := rfl
@[simp] theorem clearConditions_tracker (s : State) : (clearConditions s).tracker = s.tracker := rfl
@[simp] theorem clearConditions_relay (s : State) : (clearConditions s).relay = s.relay := rfl
@[simp] theorem clearConditions_store (s : State) : (clearConditions s).store = s.store := rfl
@[simp] theorem clearConditions_dock (s : State) : (clearConditions s).dock = s.dock := rfl
@[simp] theorem clearConditions_nextTag (s : State) : (clearConditions s).nextTag = s.nextTag := rfl
@[simp] theorem clearConditions_freeIndex (s : State) : (clearConditions s).freeIndex = s.freeIndex := rfl
@[simp] theorem clearConditions_pending (s : State) : (clearConditions s).pending = s.pending := rfl

/-! ### dropLoadEntries -/

@[simp] theorem dropLoadEntries_radio (s : State) (n : Nat) : (dropLoadEntries s n).radio = s.radio := rfl
@[simp] theorem dropLoadEntries_rack (s : State) (n : Nat) : (dropLoadEntries s n).rack = s.rack := rfl
@[simp] theorem dropLoadEntries_presence (s : State) (n : Nat) : (dropLoadEntries s n).presence = s.presence := rfl
@[simp] theorem dropLoadEntries_tracker (s : State) (n : Nat) : (dropLoadEntries s n).tracker = s.tracker := rfl
@[simp] theorem dropLoadEntries_relay (s : State) (n : Nat) : (dropLoadEntries s n).relay = s.relay := rfl
@[simp] theorem dropLoadEntries_store (s : State) (n : Nat) : (dropLoadEntries s n).store = s.store := rfl
@[simp] theorem dropLoadEntries_dock (s : State) (n : Nat) : (dropLoadEntries s n).dock = s.dock := rfl
@[simp] theorem dropLoadEntries_startup (s : State) (n : Nat) : (dropLoadEntries s n).startup = s.startup := rfl
@[simp] theorem dropLoadEntries_nextTag (s : State) (n : Nat) : (dropLoadEntries s n).nextTag = s.nextTag := rfl
@[simp] theorem dropLoadEntries_freeIndex (s : State) (n : Nat) : (dropLoadEntries s n).freeIndex = s.freeIndex := rfl
@[simp] theorem dropLoadEntries_pending (s : State) (n : Nat) : (dropLoadEntries s n).pending = s.pending := rfl

/-! ### endSession -/

@[simp] theorem endSession_radio (s : State) : (endSession s).radio = s.radio := rfl
@[simp] theorem endSession_rack (s : State) : (endSession s).rack = s.rack := rfl
@[simp] theorem endSession_presence (s : State) : (endSession s).presence = s.presence := rfl
@[simp] theorem endSession_engine (s : State) : (endSession s).engine = s.engine := rfl
@[simp] theorem endSession_tracker (s : State) : (endSession s).tracker = s.tracker := rfl
@[simp] theorem endSession_relay (s : State) : (endSession s).relay = s.relay := rfl
@[simp] theorem endSession_store (s : State) : (endSession s).store = s.store.orphanUploadRead := rfl
@[simp] theorem endSession_dock (s : State) : (endSession s).dock = { s.dock with session := s.dock.session.ended } := rfl
@[simp] theorem endSession_startup (s : State) : (endSession s).startup = s.startup := rfl
@[simp] theorem endSession_nextTag (s : State) : (endSession s).nextTag = s.nextTag := rfl
@[simp] theorem endSession_freeIndex (s : State) : (endSession s).freeIndex = s.freeIndex := rfl
@[simp] theorem endSession_pending (s : State) : (endSession s).pending = s.pending := rfl

/-! ### placeNotice -/

@[simp] theorem placeNotice_radio (s : State) (n : Notice) : (placeNotice s n).radio = s.radio := rfl
@[simp] theorem placeNotice_rack (s : State) (n : Notice) : (placeNotice s n).rack = s.rack := rfl
@[simp] theorem placeNotice_presence (s : State) (n : Notice) : (placeNotice s n).presence = s.presence := rfl
@[simp] theorem placeNotice_tracker (s : State) (n : Notice) : (placeNotice s n).tracker = s.tracker := rfl
@[simp] theorem placeNotice_relay (s : State) (n : Notice) : (placeNotice s n).relay = s.relay := rfl
@[simp] theorem placeNotice_store (s : State) (n : Notice) : (placeNotice s n).store = s.store := rfl
@[simp] theorem placeNotice_dock (s : State) (n : Notice) : (placeNotice s n).dock = s.dock := rfl
@[simp] theorem placeNotice_startup (s : State) (n : Notice) : (placeNotice s n).startup = s.startup := rfl
@[simp] theorem placeNotice_nextTag (s : State) (n : Notice) : (placeNotice s n).nextTag = s.nextTag + 1 := rfl
@[simp] theorem placeNotice_freeIndex (s : State) (n : Notice) : (placeNotice s n).freeIndex = s.freeIndex := rfl
@[simp] theorem placeNotice_pending (s : State) (n : Notice) : (placeNotice s n).pending = s.pending := rfl

/-! ### received -/

@[simp] theorem received_radio (s : State) : s.received.radio = s.radio := rfl
@[simp] theorem received_rack (s : State) : s.received.rack = s.rack.afterFrame := rfl
@[simp] theorem received_presence (s : State) : s.received.presence = s.presence := rfl
@[simp] theorem received_engine (s : State) : s.received.engine = s.engine := rfl
@[simp] theorem received_tracker (s : State) : s.received.tracker = s.tracker := rfl
@[simp] theorem received_relay (s : State) : s.received.relay = s.relay := rfl
@[simp] theorem received_store (s : State) : s.received.store = s.store := rfl
@[simp] theorem received_dock (s : State) : s.received.dock = s.dock := rfl
@[simp] theorem received_startup (s : State) : s.received.startup = { s.startup with conds := { s.startup.conds with fresh := false } } := rfl
@[simp] theorem received_nextTag (s : State) : s.received.nextTag = s.nextTag := rfl
@[simp] theorem received_freeIndex (s : State) : s.received.freeIndex = s.freeIndex := rfl
@[simp] theorem received_pending (s : State) : s.received.pending = s.pending := rfl

/-! ### withReading -/

@[simp] theorem withReading_radio (s : State) : s.withReading.radio = s.radio := by unfold State.withReading; split <;> rfl
@[simp] theorem withReading_rack (s : State) : s.withReading.rack = s.rack := by unfold State.withReading; split <;> rfl
@[simp] theorem withReading_presence (s : State) : s.withReading.presence = s.presence := by unfold State.withReading; split <;> rfl
@[simp] theorem withReading_tracker (s : State) : s.withReading.tracker = s.tracker := by unfold State.withReading; split <;> rfl
@[simp] theorem withReading_relay (s : State) : s.withReading.relay = s.relay := by unfold State.withReading; split <;> rfl
@[simp] theorem withReading_store (s : State) : s.withReading.store = s.store := by unfold State.withReading; split <;> rfl
@[simp] theorem withReading_dock (s : State) : s.withReading.dock = s.dock := by unfold State.withReading; split <;> rfl
@[simp] theorem withReading_startup (s : State) : s.withReading.startup = s.startup := by unfold State.withReading; split <;> rfl
@[simp] theorem withReading_nextTag (s : State) : s.withReading.nextTag = s.nextTag := by unfold State.withReading; split <;> rfl
@[simp] theorem withReading_freeIndex (s : State) : s.withReading.freeIndex = s.freeIndex := by unfold State.withReading; split <;> rfl
@[simp] theorem withReading_pending (s : State) : s.withReading.pending = s.pending := by unfold State.withReading; split <;> rfl
@[simp] theorem withReading_runState (s : State) : s.withReading.engine.runState = s.engine.runState := by
  unfold State.withReading; split <;> rfl

/-! ### raceReading -/

@[simp] theorem raceReading_radio (s : State) : (raceReading s).radio = s.radio := by unfold raceReading; repeat' split <;> simp
@[simp] theorem raceReading_rack (s : State) : (raceReading s).rack = s.rack := by unfold raceReading; repeat' split <;> simp
@[simp] theorem raceReading_presence (s : State) : (raceReading s).presence = s.presence := by unfold raceReading; repeat' split <;> simp
@[simp] theorem raceReading_tracker (s : State) : (raceReading s).tracker = s.tracker := by unfold raceReading; repeat' split <;> simp
@[simp] theorem raceReading_relay (s : State) : (raceReading s).relay = s.relay := by unfold raceReading; repeat' split <;> simp
@[simp] theorem raceReading_store (s : State) : (raceReading s).store = s.store := by unfold raceReading; repeat' split <;> simp
@[simp] theorem raceReading_dock (s : State) : (raceReading s).dock = s.dock := by unfold raceReading; repeat' split <;> simp
@[simp] theorem raceReading_startup (s : State) : (raceReading s).startup = s.startup := by unfold raceReading; repeat' split <;> simp
@[simp] theorem raceReading_nextTag (s : State) : (raceReading s).nextTag = s.nextTag := by unfold raceReading; repeat' split <;> simp
@[simp] theorem raceReading_pending (s : State) : (raceReading s).pending = s.pending := by unfold raceReading; repeat' split <;> simp
@[simp] theorem raceReading_runState (s : State) : (raceReading s).engine.runState = s.engine.runState := by
  unfold raceReading; repeat' split <;> simp

/-! ### askRevisit -/

@[simp] theorem askRevisit_radio (x : BitVec 16) (s : State) : (askRevisit x s).radio = s.radio := by unfold askRevisit; split <;> rfl
@[simp] theorem askRevisit_rack (x : BitVec 16) (s : State) : (askRevisit x s).rack = s.rack := by unfold askRevisit; split <;> rfl
@[simp] theorem askRevisit_presence (x : BitVec 16) (s : State) : (askRevisit x s).presence = s.presence := by unfold askRevisit; split <;> rfl
@[simp] theorem askRevisit_engine (x : BitVec 16) (s : State) : (askRevisit x s).engine = s.engine := by unfold askRevisit; split <;> rfl
@[simp] theorem askRevisit_relay (x : BitVec 16) (s : State) : (askRevisit x s).relay = s.relay := by unfold askRevisit; split <;> rfl
@[simp] theorem askRevisit_store (x : BitVec 16) (s : State) : (askRevisit x s).store = s.store := by unfold askRevisit; split <;> rfl
@[simp] theorem askRevisit_dock (x : BitVec 16) (s : State) : (askRevisit x s).dock = s.dock := by unfold askRevisit; split <;> rfl
@[simp] theorem askRevisit_startup (x : BitVec 16) (s : State) : (askRevisit x s).startup = s.startup := by unfold askRevisit; split <;> rfl
@[simp] theorem askRevisit_freeIndex (x : BitVec 16) (s : State) : (askRevisit x s).freeIndex = s.freeIndex := by unfold askRevisit; split <;> rfl
@[simp] theorem askRevisit_pending (x : BitVec 16) (s : State) : (askRevisit x s).pending = s.pending := by unfold askRevisit; split <;> rfl
@[simp] theorem askRevisit_query (x : BitVec 16) (s : State) : (askRevisit x s).tracker.query = none := by unfold askRevisit; split <;> rfl
theorem askRevisit_of_pending {s : State} {r : RevisitReply} (x : BitVec 16) (h : s.tracker.reply = some r) :
    askRevisit x s = { s with tracker := { s.tracker with reply := some ⟨r.tag, x⟩, query := none } } := by simp [askRevisit, h]
theorem askRevisit_of_none {s : State} (x : BitVec 16) (h : s.tracker.reply = none) :
    askRevisit x s = { s with
      tracker := { s.tracker with reply := some ⟨s.nextTag, x⟩, query := none }
      nextTag := s.nextTag + 1 } := by simp [askRevisit, h]

/-! ### answerQuery -/

@[simp] theorem answerQuery_radio (s : State) : (answerQuery s).radio = s.radio := by
  unfold answerQuery; repeat' split
  all_goals simp
@[simp] theorem answerQuery_rack (s : State) : (answerQuery s).rack = s.rack := by
  unfold answerQuery; repeat' split
  all_goals simp
@[simp] theorem answerQuery_presence (s : State) : (answerQuery s).presence = s.presence := by
  unfold answerQuery; repeat' split
  all_goals simp
@[simp] theorem answerQuery_engine (s : State) : (answerQuery s).engine = s.engine := by
  unfold answerQuery; repeat' split
  all_goals simp
@[simp] theorem answerQuery_relay (s : State) : (answerQuery s).relay = s.relay := by
  unfold answerQuery; repeat' split
  all_goals simp
@[simp] theorem answerQuery_store (s : State) : (answerQuery s).store = s.store := by
  unfold answerQuery; repeat' split
  all_goals simp
@[simp] theorem answerQuery_dock (s : State) : (answerQuery s).dock = s.dock := by
  unfold answerQuery; repeat' split
  all_goals simp
@[simp] theorem answerQuery_startup (s : State) : (answerQuery s).startup = s.startup := by
  unfold answerQuery; repeat' split
  all_goals simp
@[simp] theorem answerQuery_freeIndex (s : State) : (answerQuery s).freeIndex = s.freeIndex := by
  unfold answerQuery; repeat' split
  all_goals simp
@[simp] theorem answerQuery_pending (s : State) : (answerQuery s).pending = s.pending := by
  unfold answerQuery; repeat' split
  all_goals simp

end Sys2Proof.Machine
end

