-- ==== Sys2Proof/Laws/Ops.lean ====
section
/-!
SUPPORT. What each shared operation can do, said once: the form of a command's meaning, the frame of an append and of a recomputation,
and the commands that are frames. A frame is said through a copy of the state with the parts that may change set to nothing.
-/

namespace Sys2Proof.Machine

/-! ## The form of a meaning -/

theorem act_next {f : State → Option State} {s t : State} (hp : s.startup.powered = true) (h : f s = some t) :
    act f s = .next (settle t) := by simp [act, hp, h]

theorem act_excluded {f : State → Option State} {s : State} (h : f s = none) : act f s = .next s := by
  unfold act; split <;> simp [h]

theorem act_unpowered {f : State → Option State} {s : State} (hp : s.startup.powered = false) : act f s = .next s := by
  simp [act, hp]

/-- A meaning of this form always answers with a next state. -/
theorem act_answers (f : State → Option State) (s : State) : ∃ t, act f s = .next t := by
  unfold act; repeat' split
  all_goals exact ⟨_, rfl⟩

theorem atFlash_inside {a n : Nat} {x : Answer} (h : inFlash a n = true) : atFlash a n x = x := by simp [atFlash, h]

theorem actProgram_inside {f : State → Option State} {s : State} {a : Nat} {bs : List Byte} (ht : s.programTarget = some (a, bs))
    (h : inFlash a bs.length = true) : actProgram f s = act f s := by
  unfold actProgram; rw [ht]; cases s.startup.powered <;> simp [atFlash_inside h]

/-! ## Appends (R160) -/

/-- The state with what appends change set to nothing. -/
def State.apartAppends (s : State) : State :=
  { s with
    store := { s.store with
      pageBuf := []
      second := []
      programming := false
      progs := []
      seqCounter := 0
      lastGiven := 0
      dropped := 0 }
    startup := { s.startup with conds := { s.startup.conds with storeFull := false } } }

/-- States equal apart from appends differ as an append leaves them. -/
theorem onlyAppends_of_apart {s t : State} (h : t.apartAppends = s.apartAppends) :
    OnlyAppends s t ∧ t = { s with
      store := t.store
      startup := t.startup } := by
  have hs := congrArg State.store h
  have hu := congrArg State.startup h
  refine ⟨⟨?_, ?_⟩, ?_⟩
  · exact congrArg (fun (x : Store) => { x with
      pageBuf := t.store.pageBuf
      second := t.store.second
      programming := t.store.programming
      progs := t.store.progs
      seqCounter := t.store.seqCounter
      lastGiven := t.store.lastGiven
      dropped := t.store.dropped }) hs
  · exact congrArg (fun (x : Startup) => { x with conds := { x.conds with storeFull := t.startup.conds.storeFull } }) hu
  · exact congrArg (fun (x : State) => { x with
      store := t.store
      startup := t.startup }) h

theorem noteFull_apart (s : State) : s.noteFull.apartAppends = s.apartAppends := by unfold State.noteFull; split <;> rfl

theorem programIfDue_apart (s : State) (st : Store) :
    ({ s with store := st.programIfDue } : State).apartAppends = ({ s with store := st } : State).apartAppends := by
  unfold Store.programIfDue; split <;> rfl

/-- What an append leaves as it was, accepted or refused. -/
theorem append_apart (s : State) (b : RecordBody) : (append s b).1.apartAppends = s.apartAppends := by
  unfold append
  dsimp only
  repeat' split
  · rfl
  · exact (noteFull_apart _).trans (programIfDue_apart _ _)
  · exact noteFull_apart _
  · rfl

theorem appendOrDrop_apart (s : State) (b : RecordBody) : (appendOrDrop s b).apartAppends = s.apartAppends := by
  have h := append_apart s b
  unfold appendOrDrop
  split <;> rename_i heq <;> rw [heq] at h <;> exact h

theorem giveKept_apart (s : State) (e : Entry) : (giveKept s e).apartAppends = s.apartAppends := by
  unfold giveKept; split
  · exact appendOrDrop_apart _ _
  · rfl

/-- What an append does to the store and to the Start-up Controller follows from these two alone. -/
theorem appendOrDrop_congr {s t : State} (b : RecordBody) (h : s.store = t.store ∧ s.startup = t.startup) :
    (appendOrDrop s b).store = (appendOrDrop t b).store ∧ (appendOrDrop s b).startup = (appendOrDrop t b).startup := by
  obtain ⟨⟩ := s; obtain ⟨⟩ := t
  obtain ⟨rfl, rfl⟩ := h
  simp only [appendOrDrop, append, State.noteFull, State.scanned, State.now]
  split_ifs <;> simp [State.countDropped] <;> (repeat' split) <;> simp_all

/-- Of everything but the store and the Start-up Controller, a kept record handed over changes nothing. -/
theorem giveKept_frame (s : State) (e : Entry) : giveKept s e = { s with
    store := (giveKept s e).store
    startup := (giveKept s e).startup } :=
  (onlyAppends_of_apart (giveKept_apart s e)).2

/-- Entries taken in turn by an operation that appends what they keep and nothing else: their kept records, in the same order (R70). -/
theorem foldl_gives {f : State → Entry → State} (l : List Entry)
    (hf : ∀ s, ∀ e ∈ l, (f s e).store = (giveKept s e).store ∧ (f s e).startup = (giveKept s e).startup) :
    ∀ s t : State, s.store = t.store ∧ s.startup = t.startup →
      (l.foldl f s).store = ((l.filterMap (·.kept)).foldl appendOrDrop t).store ∧
      (l.foldl f s).startup = ((l.filterMap (·.kept)).foldl appendOrDrop t).startup := by
  induction l with
  | nil => exact fun s t h => h
  | cons e l ih =>
    intro s t h
    have ih := ih (fun s e he => hf s e (by simp [he]))
    have h1 := hf s e (by simp)
    rw [List.foldl_cons]
    cases hk : e.kept <;> simp only [giveKept, hk] at h1
    · rw [List.filterMap_cons_none hk]
      exact ih _ _ ⟨h1.1.trans h.1, h1.2.trans h.2⟩
    · rw [List.filterMap_cons_some hk]
      have h2 := appendOrDrop_congr ‹RecordBody› h
      exact ih _ _ ⟨h1.1.trans h2.1, h1.2.trans h2.2⟩

/-- Entries removed in turn: their kept records appended, and their HANDOVER items alone withdrawn (R54, R70). -/
theorem foldl_removeEntry (l : List Entry) (s : State) :
    (l.foldl removeEntry s).store = ((l.filterMap (·.kept)).foldl appendOrDrop s).store ∧
    (l.foldl removeEntry s).startup = ((l.filterMap (·.kept)).foldl appendOrDrop s).startup ∧
    (l.foldl removeEntry s).engine.handing = s.engine.handing.filter fun i => !l.any (·.meterId == i.meterId) := by
  have h := foldl_gives (f := removeEntry) l (fun _ _ _ => ⟨rfl, rfl⟩) s s ⟨rfl, rfl⟩
  refine ⟨h.1, h.2, ?_⟩
  clear h
  induction l generalizing s with
  | nil => simp
  | cons e l ih =>
    have hg : (giveKept s e).engine = s.engine := by rw [giveKept_frame]
    rw [List.foldl_cons, ih]
    simp only [removeEntry, Engine.dropEntry, hg, List.filter_filter, List.any_cons]
    congr 1; funext i
    have hc : (e.meterId == i.meterId) = (i.meterId == e.meterId) := by
      rw [Bool.eq_iff_iff]; simp only [beq_iff_eq]; exact eq_comm
    simp only [bne, Bool.not_or, hc, Bool.and_comm]

theorem append_refused {s : State} (b : RecordBody) (h : s.store.accepts = false) : append s b = (s, none) := by
  unfold append
  dsimp only
  split
  · rfl
  · split
    · simp_all [Store.accepts]
    · split
      · rename_i hr hp hl
        have hl : s.store.second.length < 8 := hl
        simp at hr hp
        simp [Store.accepts, hr, hp] at h
        omega
      · rfl

theorem append_accepted {s : State} (b : RecordBody) (h : s.store.accepts = true) : (append s b).2 = some s.store.seqCounter := by
  unfold append
  dsimp only
  split
  · simp_all [Store.accepts]
  · split
    · rfl
    · split
      · rfl
      · rename_i hr hp hl
        have hl : ¬ s.store.second.length < 8 := hl
        simp at hr hp
        simp [Store.accepts, hr, hp] at h
        omega

/-! ## The reading of a packet operation (R79, R80) -/

/-- A packet operation that has its reading, or none in progress, keeps what it has. -/
theorem withReading_of_taken {s : State} (h : ∀ item, s.engine.op ≠ .packet item none) : s.withReading = s := by
  unfold State.withReading; split
  · exact absurd (by assumption) (h _)
  · rfl

/-- An event meets no packet operation that waits for its reading: nothing happens. -/
theorem raceReading_of_taken {s : State} (h : ∀ item, s.engine.op ≠ .packet item none) : raceReading s = s := by
  unfold raceReading; split
  · exact absurd (by assumption) (h _)
  · rfl

/-- An event meets a packet operation that waits for its reading: it is taken or waits on, as the free value says (log 26). -/
theorem raceReading_of_waiting {s : State} {item : Taken} (h : s.engine.op = .packet item none) :
    raceReading s = { s with
      engine := { s.engine with op := .packet item (if Config.readsFirst s.freeIndex then some (s.readingOf item) else none) }
      freeIndex := s.freeIndex + 1 } := by
  have hs : s.withReading = { s with engine := { s.engine with op := .packet item (some (s.readingOf item)) } } := by
    unfold State.withReading; rw [h]
  unfold raceReading; rw [h]; dsimp only; rw [hs]
  split
  · rfl
  · rw [← h]

/-! ## Recomputation (R45) -/

/-- The state with what a recomputation changes set to nothing. -/
def State.apartRecompute (s : State) : State :=
  { s.apartAppends with
    presence := { s.presence with
      owners := []
      shares := []
      adoptQueue := [] }
    engine := { s.engine with
      op := .idle
      table := []
      untracked := []
      releases := [] }
    relay := { s.relay with
      list := []
      unconfirmed := 0 }
    store := { s.apartAppends.store with serving := none }
    freeIndex := 0 }

/-- What leaves a state apart from appends as it was leaves it apart from recomputations as it was. -/
theorem apartRecompute_of_appends {s t : State} (h : t.apartAppends = s.apartAppends) : t.apartRecompute = s.apartRecompute := by
  have := congrArg State.apartRecompute h
  exact this

theorem foldl_apart {α β : Type} {f : State → α → State} {p : State → β} (h : ∀ s x, p (f s x) = p s) (l : List α) (s : State) :
    p (l.foldl f s) = p s := by
  induction l generalizing s with
  | nil => rfl
  | cons x l ih => exact (ih _).trans (h s x)

theorem selfStoreEntry_apart (s : State) (e : RelayEntry) : (selfStoreEntry s e).apartRecompute = s.apartRecompute := by
  have h := apartRecompute_of_appends (appendOrDrop_apart s (unconfirmedRecord s e.packet e.segment e.stale e.target))
  exact h

theorem expireWait_apart (s : State) (e : RelayEntry) : (expireWait s e).apartRecompute = s.apartRecompute := by
  unfold expireWait; split
  · rfl
  · exact selfStoreEntry_apart s e

theorem judgeHeldEntries_apart (s : State) (n : Nat) : (judgeHeldEntries s n).apartRecompute = s.apartRecompute :=
  foldl_apart (p := State.apartRecompute) expireWait_apart _ _

theorem stopLoad_apart (s : State) (n : Nat) : (stopLoad s n).apartRecompute = s.apartRecompute := by
  have h (st : Store) : ({ s with store := st.orphanEngineRead } : State).apartRecompute = ({ s with store := st } : State).apartRecompute := by
    unfold Store.orphanEngineRead; split <;> rfl
  exact h s.store

theorem compareShare_apart (s : State) (n : Nat) : (compareShare s n).apartRecompute = s.apartRecompute := by
  unfold compareShare
  split
  · rfl
  · exact judgeHeldEntries_apart _ _
  · exact (judgeHeldEntries_apart _ _).trans (stopLoad_apart s n)
  · rfl
  · rfl

theorem raceReading_apart (s : State) : (raceReading s).apartRecompute = s.apartRecompute := by
  by_cases h : ∃ item, s.engine.op = .packet item none
  · obtain ⟨item, h⟩ := h
    rw [raceReading_of_waiting h]; rfl
  · rw [raceReading_of_taken fun item hi => h ⟨item, hi⟩]

/-- What a recomputation leaves as it was. -/
theorem recompute_apart (s : State) : (recompute s).apartRecompute = s.apartRecompute :=
  (foldl_apart (p := State.apartRecompute) compareShare_apart _ _).trans (raceReading_apart s)

/-- A recomputation changes the map, the shares and the adoption queue; of the engine a load and its release, or the reading of a packet
operation; the relay entries judged and what their records append. -/
theorem recompute_frame (s : State) :
    let t := recompute s
    t = { s with
      presence := { s.presence with
        owners := t.presence.owners
        shares := t.presence.shares
        adoptQueue := t.presence.adoptQueue }
      engine := { s.engine with
        op := t.engine.op
        table := t.engine.table
        untracked := t.engine.untracked
        releases := t.engine.releases }
      relay := { s.relay with
        list := t.relay.list
        unconfirmed := t.relay.unconfirmed }
      store := { s.store with
        pageBuf := t.store.pageBuf
        second := t.store.second
        programming := t.store.programming
        progs := t.store.progs
        seqCounter := t.store.seqCounter
        lastGiven := t.store.lastGiven
        dropped := t.store.dropped
        serving := t.store.serving }
      startup := { s.startup with conds := { s.startup.conds with storeFull := t.startup.conds.storeFull } }
      freeIndex := t.freeIndex } := by
  intro t
  exact congrArg (fun (x : State) => { x with
    presence := { x.presence with
      owners := t.presence.owners
      shares := t.presence.shares
      adoptQueue := t.presence.adoptQueue }
    engine := { x.engine with
      op := t.engine.op
      table := t.engine.table
      untracked := t.engine.untracked
      releases := t.engine.releases }
    relay := { x.relay with
      list := t.relay.list
      unconfirmed := t.relay.unconfirmed }
    store := { x.store with
      pageBuf := t.store.pageBuf
      second := t.store.second
      programming := t.store.programming
      progs := t.store.progs
      seqCounter := t.store.seqCounter
      lastGiven := t.store.lastGiven
      dropped := t.store.dropped
      serving := t.store.serving }
    startup := { x.startup with conds := { x.startup.conds with storeFull := t.startup.conds.storeFull } }
    freeIndex := t.freeIndex }) (recompute_apart s)

/-- A share that is its own or NOT MINE stays as it is while the station is not RUNNING (R45). -/
theorem compareShare_quiet {s : State} (hr : s.isRunning = false) (n : Nat)
    (hs : s.shareState n = .own ∨ s.shareState n = .notMine) : compareShare s n = s := by
  unfold compareShare
  rcases hs with h | h <;> simp [h, hr]

/-- Outside RUNNING, with every share its own or NOT MINE, a recomputation only computes the map afresh, before or after the reading of
a packet operation (R43, R45, R80). -/
theorem recompute_quiet {s : State} (hr : s.isRunning = false) (hs : ∀ x ∈ s.presence.shares, x = .own ∨ x = .notMine) :
    recompute s = remap (raceReading s) := by
  have h (l : List Nat) (u : State) (hu : u.isRunning = false) (hx : ∀ x ∈ u.presence.shares, x = .own ∨ x = .notMine) :
      l.foldl compareShare u = u := by
    induction l with
    | nil => rfl
    | cons n l ih =>
      have : u.shareState n = .own ∨ u.shareState n = .notMine := by
        unfold State.shareState
        by_cases hn : n - 1 < u.presence.shares.length
        · rw [List.getD_eq_getElem _ _ hn]; exact hx _ (List.getElem_mem hn)
        · right; rw [List.getD_eq_default _ _ (by omega)]
      rw [List.foldl_cons, compareShare_quiet hu n this, ih]
  exact h _ (remap (raceReading s)) (by simpa [State.isRunning] using hr) (by simpa using hs)

/-! ## Frames received (R22 to R26) -/

/-- A frame from a station that is no collector, received past step 6: reported, then delivered. -/
theorem hears_act {src : Nat} {d : State → State} {s : State} (h : Hears s src) (hc : isCollector src = false) :
    act (onFrame src d) s = .next (settle (d s.received)) := by
  obtain ⟨hp, hf, hu, hn⟩ := h
  apply act_next hp
  have : s.received.isUp = true := hu
  simp [onFrame, hf, hn, reportFrame, hc, State.received] at *
  simp [State.isUp] at *
  simp [hu]

theorem heardReport_isUp (s : State) (n : Nat) : (heardReport s n).isUp = s.isUp := by
  have h := congrArg State.isUp (recompute_apart { s with presence := s.presence.updateView n fun v => { v with lastHeard := s.now } })
  exact h

/-- A frame from a collector, received past step 6: reported and heard, then delivered. -/
theorem hears_act_peer {src : Nat} {d : State → State} {s : State} (h : Hears s src) (hc : isCollector src = true) :
    act (onFrame src (fromPeer src d)) s = .next (settle (d (heardReport s.received src))) := by
  obtain ⟨hp, hf, hu, hn⟩ := h
  apply act_next hp
  have : (heardReport s.received src).isUp = true := (heardReport_isUp _ _).trans hu
  simp [onFrame, hf, hn, reportFrame, hc, fromPeer, State.received] at *
  simp [this]

/-- Every command that is a frame has the form of a frame's meaning. -/
theorem exec_frame {c : Instr} {n : Nat} (h : frameSource c = some n) :
    ∃ d : State → State → State, ∀ s, exec c s = act (fun s => onFrame n (d s) s) s := by
  match c, h with
  | .rackFrameOther f, rfl => exact ⟨fun s => deliverReading (readFrame s.slot f), fun s => rfl⟩
  | .runOpen run day, rfl => exact ⟨fun _ => deliverOpen run day, fun s => rfl⟩
  | .runClose run _, rfl => exact ⟨fun _ => deliverClose run, fun s => rfl⟩
  | .listRevisit x, rfl => exact ⟨fun _ => deliverRevisit x, fun s => rfl⟩
  | .queryClearConditions, rfl => exact ⟨fun _ => clearConditions, fun s => rfl⟩
  | .position v x, rfl => exact ⟨fun _ => deliverPosition v x, fun s => rfl⟩
  | .presence src p, rfl => exact ⟨fun _ => fromPeer src.toNat fun s => deliverPresence s src.toNat p, fun s => rfl⟩
  | .held src m k, rfl => exact ⟨fun _ => fromPeer src.toNat (deliverHeld ⟨m, k⟩), fun s => rfl⟩
  | .relay src p, rfl => exact ⟨fun _ => fromPeer src.toNat (deliverRelayItem (.relay src.toNat p)), fun s => rfl⟩
  | .handover src p, rfl => exact ⟨fun _ => fromPeer src.toNat (deliverRelayItem (.handover p)), fun s => rfl⟩
  | .uploadOpen x, rfl => exact ⟨fun _ => deliverUploadOpen x, fun s => rfl⟩
  | .uploadMark x, rfl => exact ⟨fun _ => deliverUploadMark x, fun s => rfl⟩
  | .uploadClose, rfl => exact ⟨fun _ => deliverUploadClose, fun s => rfl⟩
  | .eraseUploaded, rfl => exact ⟨fun _ => deliverEraseUploaded, fun s => rfl⟩
  | .clearFindings, rfl => exact ⟨fun _ => deliverClearFindings, fun s => rfl⟩
  | .planBegin i a b, rfl => exact ⟨fun _ => deliverPlanBegin i a b, fun s => rfl⟩
  | .planData i r, rfl => exact ⟨fun _ => deliverPlanData i r, fun s => rfl⟩
  | .planEnd, rfl => exact ⟨fun _ => deliverPlanEnd, fun s => rfl⟩
  | .settingWrite o d, rfl => exact ⟨fun _ => deliverSettingWrite o d, fun s => rfl⟩
  | .settingSave, rfl => exact ⟨fun _ => deliverSettingSave, fun s => rfl⟩
  | .dockClearConditions, rfl => exact ⟨fun _ => deliverDockClear, fun s => rfl⟩

end Sys2Proof.Machine
end

