-- ==== Sys2Proof/Laws/Revisit.lean ====
section
/-!
SUPPORT. The REVISIT reply and the query that waits for the outcome of its frame (R152): what the engine's choice leaves alone, and what
the end of a command does to them, said once.
-/

namespace Sys2Proof.Machine

/-- What the transmit selector and the Route Tracker hold of the REVISIT reply: the Rack Port, the reply and the query that waits. -/
def State.revisitSide (s : State) : Rack × Option RevisitReply × Option (BitVec 16) := (s.rack, s.tracker.reply, s.tracker.query)

/-! ## The engine's choice -/

theorem recompute_revisit (s : State) : (recompute s).revisitSide = s.revisitSide ∧ (recompute s).nextTag = s.nextTag := by
  have h := recompute_apart s
  have hr := congrArg State.revisitSide h
  have ht := congrArg State.nextTag h
  exact ⟨hr, ht⟩

theorem removeEntry_revisit (s : State) (e : Entry) :
    (removeEntry s e).revisitSide = s.revisitSide ∧ (removeEntry s e).nextTag = s.nextTag := by
  have h := giveKept_apart s e
  have hr := congrArg State.revisitSide h
  have ht := congrArg State.nextTag h
  exact ⟨hr, ht⟩

theorem beginLoad_revisit (s : State) (n : Nat) : (beginLoad s n).revisitSide = s.revisitSide ∧ (beginLoad s n).nextTag = s.nextTag :=
  ⟨foldl_apart (p := State.revisitSide) (fun s e => (removeEntry_revisit s e).1) _ s,
    foldl_apart (p := State.nextTag) (fun s e => (removeEntry_revisit s e).2) _ s⟩

theorem buildEnds_revisit (s : State) (p : Plan) : (buildEnds s p).revisitSide = s.revisitSide ∧ s.nextTag ≤ (buildEnds s p).nextTag := by
  let u : State := { endOperation s with
    tracker := { s.tracker with rows := freshRows p.segments s.engine.table }
    engine := { (endOperation s).engine with runState := some .ready } }
  obtain ⟨h1, h2⟩ := recompute_revisit u
  have hb : buildEnds s p = if (recompute u).startup.step = .build then startStepSix (recompute u)
      else if (recompute u).dock.load.phase = .ending then planStatus (recompute u) 0 else recompute u := rfl
  rw [hb]
  have h1 : (recompute u).revisitSide = s.revisitSide := h1
  have h2 : (recompute u).nextTag = s.nextTag := h2
  split
  · exact ⟨h1, h2 ▸ Nat.le_succ _⟩
  · split
    · exact ⟨h1, h2 ▸ Nat.le_succ _⟩
    · exact ⟨h1, h2.ge⟩

theorem beginRequest_revisit (s : State) (r : StationReq) :
    (beginRequest s r).revisitSide = s.revisitSide ∧ s.nextTag ≤ (beginRequest s r).nextTag := by
  cases r with
  | ownBuild =>
    unfold beginRequest beginBuild
    dsimp only
    split
    · split
      · exact ⟨rfl, le_rfl⟩
      · exact buildEnds_revisit _ _
    · exact ⟨rfl, le_rfl⟩
  | _ => exact ⟨rfl, le_rfl⟩

/-- The engine's choice leaves the Rack Port, the reply and the query that waits as they are; a spare's build may make an item. -/
theorem engineChoose_revisit (s : State) :
    (engineChoose s).revisitSide = s.revisitSide ∧ s.nextTag ≤ (engineChoose s).nextTag := by
  unfold engineChoose
  split
  · exact ⟨rfl, le_rfl⟩
  · split
    · exact ⟨rfl, le_rfl⟩
    · exact ⟨rfl, le_rfl⟩
    · exact beginRequest_revisit _ _
    · split
      · exact ⟨(beginLoad_revisit s _).1, (beginLoad_revisit s _).2.ge⟩
      · exact ⟨rfl, le_rfl⟩
    · split
      · unfold choosePacket; split <;> exact ⟨rfl, le_rfl⟩
      · exact ⟨rfl, le_rfl⟩

/-! ## The end of a command -/

theorem arbitrate_revisit (s : State) : (arbitrate s).revisitSide = s.revisitSide ∧ (arbitrate s).nextTag = s.nextTag := by
  unfold arbitrate
  repeat' split
  all_goals first
    | exact ⟨rfl, rfl⟩
    | (unfold serveProgram; dsimp only; split <;> first | exact ⟨rfl, rfl⟩ | (unfold servePlanRecord; split <;> exact ⟨rfl, rfl⟩))

theorem requestPlanRecord_revisit (s : State) :
    (requestPlanRecord s).revisitSide = s.revisitSide ∧ (requestPlanRecord s).nextTag = s.nextTag := by
  unfold requestPlanRecord; split <;> exact ⟨rfl, rfl⟩

theorem noteFull_revisit (s : State) : s.noteFull.revisitSide = s.revisitSide ∧ s.noteFull.nextTag = s.nextTag := by
  unfold State.noteFull; split <;> exact ⟨rfl, rfl⟩

/-- The state that the query meets at the end of a command has the Rack Port, the reply and the query of the command's own effect. -/
theorem settle_meets (s : State) : ∃ u : State, settle s = offer (cleanRetry (answerQuery u)) ∧ u.revisitSide = s.revisitSide ∧
    s.nextTag ≤ u.nextTag := by
  let c := engineChoose (engineChoose s)
  let v : State := { c with store := c.store.serviceEraseList }
  have h1 := engineChoose_revisit s
  have h2 := engineChoose_revisit (engineChoose s)
  have h3 := requestPlanRecord_revisit v
  have h4 := arbitrate_revisit (requestPlanRecord v)
  have h5 := noteFull_revisit (arbitrate (requestPlanRecord v))
  refine ⟨_, rfl, ?_, ?_⟩
  · exact h5.1.trans (h4.1.trans (h3.1.trans (h2.1.trans h1.1)))
  · exact (h1.2.trans h2.2).trans (h5.2.trans (h4.2.trans h3.2)).ge

theorem cleanRetry_tracker (s : State) : (cleanRetry s).tracker = s.tracker ∧ (cleanRetry s).rack.sending = s.rack.sending := by
  unfold cleanRetry; repeat' split
  all_goals exact ⟨rfl, rfl⟩

theorem offer_tracker (s : State) : (offer s).tracker = s.tracker := by
  unfold offer; repeat' split
  all_goals rfl

/-- A frame that is on the bus stays there. -/
theorem offer_of_sending {s : State} {x : Sending} (h : s.rack.sending = some x) : offer s = s := by simp [offer, h]

/-- While the frame of a REVISIT reply is on the bus, the end of a command changes neither it, nor the reply, nor the query that waits. -/
theorem settle_of_sendsRevisit {s : State} (h : s.rack.sendsRevisit = true) :
    (settle s).rack.sending = s.rack.sending ∧ (settle s).tracker.reply = s.tracker.reply ∧
    (settle s).tracker.query = s.tracker.query := by
  obtain ⟨u, hu, hr, -⟩ := settle_meets s
  simp only [State.revisitSide, Prod.mk.injEq] at hr
  have ha : answerQuery u = u := by
    unfold answerQuery; split
    · simp [hr.1, h]
    · rfl
  obtain ⟨x, hx⟩ : ∃ x, s.rack.sending = some x := by
    unfold Rack.sendsRevisit at h; split at h
    · exact ⟨_, by assumption⟩
    · cases h
  have hc := cleanRetry_tracker u
  have hs : (cleanRetry u).rack.sending = some x := hc.2.trans ((congrArg Rack.sending hr.1).trans hx)
  rw [hu, ha, offer_of_sending hs, hc.1]
  exact ⟨hs.trans hx.symm, hr.2.1, hr.2.2⟩

/-- Once the frame is no longer on the bus, the end of a command answers the query that waits: the reply pending has its start index now, or
a new reply has it where none is left. -/
theorem settle_answers {s : State} {start : BitVec 16} (h : s.rack.sendsRevisit = false) (hq : s.tracker.query = some start) :
    (settle s).tracker.query = none ∧ ∃ tag, (settle s).tracker.reply = some ⟨tag, start⟩ ∧
      (s.tracker.reply = none → s.nextTag ≤ tag) ∧ (∀ r, s.tracker.reply = some r → tag = r.tag) := by
  obtain ⟨u, hu, hr, ht⟩ := settle_meets s
  simp only [State.revisitSide, Prod.mk.injEq] at hr
  have ha : answerQuery u = askRevisit start u := by simp [answerQuery, hr.1, hr.2.2, h, hq]
  rw [hu, offer_tracker, (cleanRetry_tracker _).1, ha]
  cases hp : s.tracker.reply with
  | none => simp [askRevisit_of_none start (hr.2.1.trans hp), ht]
  | some r => simp [askRevisit_of_pending start (hr.2.1.trans hp)]

/-- At the end of every command a query waits only while the frame of a REVISIT reply is on the bus. -/
theorem settle_queryLaw (s : State) : QueryLaw (settle s) := by
  intro hq
  cases h : s.rack.sendsRevisit with
  | true =>
    have := (settle_of_sendsRevisit h).1
    unfold Rack.sendsRevisit at *; rw [this]; exact h
  | false =>
    cases hs : s.tracker.query with
    | some start => rw [(settle_answers h hs).1] at hq; cases hq
    | none =>
      obtain ⟨u, hu, hr, -⟩ := settle_meets s
      simp only [State.revisitSide, Prod.mk.injEq] at hr
      have ha : answerQuery u = u := by simp [answerQuery, hr.2.2, hs]
      rw [hu, offer_tracker, (cleanRetry_tracker _).1, ha, hr.2.2, hs] at hq
      cases hq

end Sys2Proof.Machine
end

