-- ==== Sys2Proof/Laws/Bus.lean ====
section
/-!
SUPPORT. What a frame received leaves of the Rack Port (R31): every delivery leaves it as it is, but for the count of a format error; and a
frame of this station's own on the bus stays there to the end of the command.
-/

namespace Sys2Proof.Machine

/-! ## What the blocks do (R25) -/

theorem recompute_rack (s : State) : (recompute s).rack = s.rack := by
  have h := congrArg State.rack (recompute_apart s)
  exact h

theorem appendOrDrop_rack (s : State) (b : RecordBody) : (appendOrDrop s b).rack = s.rack := by
  have h := congrArg State.rack (appendOrDrop_apart s b)
  exact h

theorem heardReport_rack (s : State) (n : Nat) : (heardReport s n).rack = s.rack := recompute_rack _

theorem stopLoad_rack (s : State) (n : Nat) : (stopLoad s n).rack = s.rack := by
  have h := congrArg State.rack (stopLoad_apart s n)
  exact h

theorem flushEnded_rack (s : State) : (flushEnded s).rack = s.rack := by
  unfold flushEnded finishClose setRunState
  dsimp only
  repeat' split
  all_goals first
    | rfl
    | exact recompute_rack _

theorem requestFlush_rack (s : State) : (requestFlush s).rack = s.rack := by
  unfold requestFlush; split
  · exact flushEnded_rack s
  · rfl

theorem synthesizeNext_rack (s : State) : (synthesizeNext s).rack = s.rack := by
  unfold synthesizeNext; repeat' split
  all_goals rfl

theorem streamOn_rack (s : State) : (streamOn s).rack = s.rack := by
  unfold streamOn; split
  · rfl
  · exact synthesizeNext_rack s

theorem planEndJudged_rack (s : State) : (planEndJudged s).rack = s.rack := by
  unfold planEndJudged; dsimp only; split
  · rfl
  · exact recompute_rack _

theorem planEndIfDrained_rack (s : State) : (planEndIfDrained s).rack = s.rack := by
  unfold planEndIfDrained; repeat' split
  · exact planEndJudged_rack s
  · rfl
  · rfl

/-! ## Deliveries -/

theorem deliverOpen_rack (run day : BitVec 16) (s : State) : (deliverOpen run day s).rack = s.rack := by
  unfold deliverOpen judgeOpen
  repeat' split
  all_goals first
    | rfl
    | exact recompute_rack _

theorem emptyRelayItem_rack (s : State) (i : RelayItem) : (emptyRelayItem s i).rack = s.rack := by
  cases i with
  | moved p segment stale => exact appendOrDrop_rack _ _
  | _ => rfl

theorem emptyQueues_rack (s : State) : (emptyQueues s).rack = s.rack :=
  foldl_apart (p := State.rack) emptyRelayItem_rack _ _

theorem endAdoption_rack (s : State) : (endAdoption s).rack = s.rack := by
  unfold endAdoption; dsimp only; split
  · exact stopLoad_rack s _
  · rfl

theorem stopRebuild_rack (s : State) : (stopRebuild s).rack = s.rack := by
  unfold stopRebuild; dsimp only; split <;> rfl

theorem selfStoreEntry_rack (s : State) (e : RelayEntry) : (selfStoreEntry s e).rack = s.rack := by
  have h := congrArg State.rack (selfStoreEntry_apart s e)
  exact h

theorem disposeRelays_rack (s : State) : (disposeRelays s).rack = s.rack :=
  foldl_apart (p := State.rack) selfStoreEntry_rack _ s

theorem closeRun_rack (s : State) : (closeRun s).rack = s.rack :=
  (disposeRelays_rack _).trans ((stopRebuild_rack _).trans ((endAdoption_rack _).trans ((emptyQueues_rack _).trans (withReading_rack s))))

theorem deliverClose_rack (run : BitVec 16) (s : State) : (deliverClose run s).rack = s.rack := by
  unfold deliverClose
  repeat' split
  all_goals first
    | rfl
    | exact closeRun_rack s

theorem deliverPosition_rack (valid : Byte) (segment : BitVec 16) (s : State) : (deliverPosition valid segment s).rack = s.rack := by
  unfold deliverPosition; split <;> rfl

theorem deliverHeld_rack (p : HeldPair) (s : State) : (deliverHeld p s).rack = s.rack := raceReading_rack s

theorem deliverRelayItem_rack (i : RelayItem) (s : State) : (deliverRelayItem i s).rack = s.rack := by
  unfold deliverRelayItem; repeat' split
  all_goals rfl

theorem deliverRevisit_rack (start : BitVec 16) (s : State) : (deliverRevisit start s).rack = s.rack := by
  unfold deliverRevisit askRevisit; repeat' split
  all_goals rfl

/-- A DOCK operation leaves the Rack Port as it is where its own rule does. -/
theorem dockOperation_rack (c : DockColumn) (echo : Byte) {rule : State → State} (h : ∀ s, (rule s).rack = s.rack) (s : State) :
    (dockOperation c echo rule s).rack = s.rack := by
  unfold dockOperation; split
  · exact h s
  · rfl
  · rfl

theorem uploadOpen_rack (start : Nat) (s : State) : (uploadOpen start s).rack = s.rack := by
  unfold uploadOpen; split
  · exact requestFlush_rack _
  · rfl

theorem uploadMark_rack (m : Nat) (s : State) : (uploadMark m s).rack = s.rack := by
  unfold uploadMark pauseAfterMark
  repeat' split
  all_goals first
    | rfl
    | exact streamOn_rack _

theorem uploadClose_rack (s : State) : (uploadClose s).rack = s.rack := rfl

theorem eraseUploaded_rack (s : State) : (eraseUploaded s).rack = s.rack := rfl

theorem clearFindings_rack (s : State) : (clearFindings s).rack = s.rack := by unfold clearFindings; split <;> rfl

theorem planBegin_rack (i : BitVec 32) (c n : Nat) (s : State) : (planBegin i c n s).rack = s.rack := by
  unfold planBegin; dsimp only; split
  · rfl
  · exact recompute_rack _

theorem planData_rack (i : Nat) (r : List Byte) (s : State) : (planData i r s).rack = s.rack := by unfold planData; split <;> rfl

theorem planEnd_rack (s : State) : (planEnd s).rack = s.rack := by
  unfold planEnd; split
  · exact planEndIfDrained_rack _
  · rfl

theorem settingWrite_rack (o : Nat) (d : List Byte) (s : State) : (settingWrite o d s).rack = s.rack := rfl

theorem dockClear_rack (s : State) : (dockClear s).rack = s.rack := rfl

theorem settingSave_rack (s : State) : (settingSave s).rack = s.rack := by unfold settingSave; split <;> rfl

/-- No command that a frame delivers changes the Rack Port. -/
theorem deliverCommand_rack (c : Instr) (s : State) : (deliverCommand c s).rack = s.rack := by
  cases c
  case runOpen => exact deliverOpen_rack _ _ s
  case runClose => exact deliverClose_rack _ s
  case position => exact deliverPosition_rack _ _ s
  case presence => exact recompute_rack _
  case held => exact deliverHeld_rack _ s
  case relay => exact deliverRelayItem_rack _ s
  case handover => exact deliverRelayItem_rack _ s
  case listRevisit => exact deliverRevisit_rack _ s
  case uploadOpen => exact dockOperation_rack _ _ (uploadOpen_rack _) s
  case uploadMark => exact dockOperation_rack _ _ (uploadMark_rack _) s
  case uploadClose => exact dockOperation_rack _ _ uploadClose_rack s
  case eraseUploaded => exact dockOperation_rack _ _ eraseUploaded_rack s
  case clearFindings => exact dockOperation_rack _ _ clearFindings_rack s
  case planBegin => exact dockOperation_rack _ _ (planBegin_rack _ _ _) s
  case planData => exact dockOperation_rack _ _ (planData_rack _ _) s
  case planEnd => exact dockOperation_rack _ _ planEnd_rack s
  case settingWrite => exact dockOperation_rack _ _ (settingWrite_rack _ _) s
  case settingSave => exact dockOperation_rack _ _ settingSave_rack s
  case dockClearConditions => exact dockOperation_rack _ _ dockClear_rack s
  all_goals rfl

/-- The receive filter changes of the Rack Port the receive format count alone (R25). -/
theorem deliverReading_rack (r : Reading) (s : State) :
    (deliverReading r s).rack = { s.rack with rxFormat := (deliverReading r s).rack.rxFormat } := by
  cases r with
  | delivered c => simp only [deliverReading, deliverCommand_rack]
  | _ => rfl

/-! ## The end of a command -/

/-- A frame of this station's own on the bus stays there at the end of a command, and the receiver follows it on. -/
theorem settle_of_sending {s : State} {x : Sending} (h : s.rack.sending = some x) :
    (settle s).rack.sending = some x ∧ (settle s).rack.rx = s.rack.rx := by
  obtain ⟨u, hu, hr, -⟩ := settle_meets s
  simp only [State.revisitSide, Prod.mk.injEq] at hr
  have ha : (answerQuery u).rack = s.rack := by
    unfold answerQuery askRevisit; repeat' split
    all_goals exact hr.1
  have hc : (cleanRetry (answerQuery u)).rack.sending = s.rack.sending ∧ (cleanRetry (answerQuery u)).rack.rx = s.rack.rx := by
    have hk : ∀ v : State, (cleanRetry v).rack = { v.rack with retry := (cleanRetry v).rack.retry } := fun v => by
      unfold cleanRetry; repeat' split
      all_goals rfl
    rw [hk, ha]; exact ⟨rfl, rfl⟩
  rw [hu, offer_of_sending (hc.1.trans h)]
  exact ⟨hc.1.trans h, hc.2⟩

end Sys2Proof.Machine
end

