-- ==== Sys2Proof/Laws/Fixed.lean ====
section
/-!
SUPPORT. The shared operations leave flash, configuration memory, power, straps, station time, settings, image, upload mark and the
queue of commands as they are: one lemma for each, all about `State.fixed`.
-/

namespace Sys2Proof.Machine

theorem foldl_fixed {α : Type} {f : State → α → State} (h : ∀ s x, (f s x).fixed = s.fixed) (l : List α) (s : State) :
    (l.foldl f s).fixed = s.fixed := by
  induction l generalizing s with
  | nil => rfl
  | cons x l ih => exact (ih _).trans (h s x)

theorem ite_fixed {c : Prop} [Decidable c] {a b s : State} (ha : a.fixed = s.fixed) (hb : b.fixed = s.fixed) :
    (if c then a else b).fixed = s.fixed := by split <;> assumption

/-! ## Store -/

/-- The part of the store that `State.fixed` holds. -/
def Store.kept (st : Store) : Memory × Nat := (st.flash, st.uploadMark)

theorem fixed_store {s : State} {st : Store} (h : st.kept = s.store.kept) : ({ s with store := st } : State).fixed = s.fixed := by
  simp only [Store.kept, Prod.mk.injEq] at h
  simp [State.fixed, h.1, h.2]

theorem Store.updateRow_kept (st : Store) (n f) : (st.updateRow n f).kept = st.kept := rfl
theorem Store.requestMark_kept (st : Store) (m) : (st.requestMark m).kept = st.kept := by
  unfold Store.requestMark; split <;> rfl
theorem Store.startProgram_kept (st : Store) : st.startProgram.kept = st.kept := rfl
theorem Store.programIfDue_kept (st : Store) : st.programIfDue.kept = st.kept := by
  unfold Store.programIfDue; split <;> rfl
theorem Store.refill_kept (st : Store) (now) : (st.refill now).kept = st.kept := by
  unfold Store.refill
  dsimp only
  split
  · rfl
  · exact Store.programIfDue_kept _
theorem Store.openCandidate_kept (st : Store) : st.openCandidate.kept = st.kept := by
  unfold Store.openCandidate
  repeat' split
  all_goals rfl
theorem Store.sectorEnd_kept (st : Store) (n) : (st.sectorEnd n).kept = st.kept :=
  (Store.openCandidate_kept _).trans (Store.requestMark_kept _ _)
theorem Store.sectorRetired_kept (st : Store) (n) : (st.sectorRetired n).kept = st.kept :=
  (Store.openCandidate_kept _).trans (Store.requestMark_kept _ _)
theorem Store.resplit_kept (st : Store) : st.resplit.1.kept = st.kept := rfl
theorem Store.reprogram_kept (st : Store) : st.reprogram.kept = st.kept := by
  unfold Store.reprogram
  dsimp only
  repeat' split
  all_goals rfl
theorem Store.serviceEraseList_kept (st : Store) : st.serviceEraseList.kept = st.kept := by
  unfold Store.serviceEraseList
  repeat' split
  · rfl
  · exact Store.requestMark_kept _ _
  · rfl
theorem Store.eraseBegun_kept (st : Store) (n) : (st.eraseBegun n).kept = st.kept := rfl
theorem Store.orphanEngineRead_kept (st : Store) : st.orphanEngineRead.kept = st.kept := by
  unfold Store.orphanEngineRead; repeat' split
  all_goals rfl
theorem Store.orphanUploadRead_kept (st : Store) : st.orphanUploadRead.kept = st.kept := by
  unfold Store.orphanUploadRead; repeat' split
  all_goals rfl
theorem beginErase_kept (st : Store) : (beginErase st).kept = st.kept := by
  unfold beginErase; repeat' split
  all_goals rfl

theorem noteFull_fixed (s : State) : s.noteFull.fixed = s.fixed := by unfold State.noteFull; split <;> rfl
theorem countFault_fixed (s : State) : s.countFault.fixed = s.fixed := rfl
theorem countDropped_fixed (s : State) : s.countDropped.fixed = s.fixed := rfl
theorem useFree_fixed (s : State) : (useFree s).fixed = s.fixed := rfl

theorem append_fixed (s : State) (b : RecordBody) : (append s b).1.fixed = s.fixed := by
  unfold append
  dsimp only
  repeat' split
  · rfl
  · exact (noteFull_fixed _).trans (fixed_store (Store.programIfDue_kept _))
  · exact (noteFull_fixed _).trans (fixed_store rfl)
  · rfl

theorem appendOrDrop_fixed (s : State) (b : RecordBody) : (appendOrDrop s b).fixed = s.fixed := by
  have h := append_fixed s b
  unfold appendOrDrop
  split <;> rename_i heq <;> rw [heq] at h <;> exact h

/-! ## Table and relays -/

theorem changeEntry_fixed (s : State) (a b : Entry) : (changeEntry s a b).fixed = s.fixed := rfl
theorem giveKept_fixed (s : State) (e : Entry) : (giveKept s e).fixed = s.fixed := by
  unfold giveKept; split
  · exact appendOrDrop_fixed _ _
  · rfl
theorem removeEntry_fixed (s : State) (e : Entry) : (removeEntry s e).fixed = s.fixed := giveKept_fixed s e
theorem selfStore_fixed (s : State) (p g t o) : (selfStore s p g t o).fixed = s.fixed := appendOrDrop_fixed s _
theorem selfStoreEntry_fixed (s : State) (e : RelayEntry) : (selfStoreEntry s e).fixed = s.fixed := selfStore_fixed s _ _ _ _

/-! ## Presence -/

theorem expireWait_fixed (s : State) (e : RelayEntry) : (expireWait s e).fixed = s.fixed := by
  unfold expireWait; split
  · rfl
  · exact selfStoreEntry_fixed s e
theorem judgeHeldEntries_fixed (s : State) (n : Nat) : (judgeHeldEntries s n).fixed = s.fixed := foldl_fixed expireWait_fixed _ _
theorem stopLoad_fixed (s : State) (n : Nat) : (stopLoad s n).fixed = s.fixed := fixed_store (Store.orphanEngineRead_kept _)
theorem abandonLoad_fixed (s : State) (n : Nat) : (abandonLoad s n).fixed = s.fixed :=
  (judgeHeldEntries_fixed _ _).trans (stopLoad_fixed s n)
theorem compareShare_fixed (s : State) (n : Nat) : (compareShare s n).fixed = s.fixed := by
  unfold compareShare
  split
  · rfl
  · exact judgeHeldEntries_fixed _ _
  · exact abandonLoad_fixed s n
  · rfl
  · rfl
theorem remap_fixed (s : State) : (remap s).fixed = s.fixed := rfl
theorem withReading_fixed (s : State) : s.withReading.fixed = s.fixed := by
  unfold State.withReading; split <;> rfl
theorem raceReading_fixed (s : State) : (raceReading s).fixed = s.fixed := by
  unfold raceReading; split
  · split
    · exact withReading_fixed s
    · rfl
  · rfl
theorem recompute_fixed (s : State) : (recompute s).fixed = s.fixed :=
  (foldl_fixed compareShare_fixed _ _).trans (raceReading_fixed s)
theorem heardReport_fixed (s : State) (n : Nat) : (heardReport s n).fixed = s.fixed := recompute_fixed _
theorem presumeAll_fixed (s : State) : (presumeAll s).fixed = s.fixed := rfl
theorem deliverPresence_fixed (s : State) (n p) : (deliverPresence s n p).fixed = s.fixed := recompute_fixed _

/-! ## Runs and replies -/

theorem makeReply_fixed (s : State) (b : ReplyBody) : (makeReply s b).fixed = s.fixed := rfl
theorem replyWith_fixed (s : State) (e st o) : (replyWith s e st o).fixed = s.fixed := rfl
theorem endSession_fixed (s : State) : (endSession s).fixed = s.fixed := fixed_store (Store.orphanUploadRead_kept _)
theorem setRunState_fixed (s : State) (r) : (setRunState s r).fixed = s.fixed := recompute_fixed _
theorem enterRunning_fixed (s : State) (r) : (enterRunning s r).fixed = s.fixed := setRunState_fixed _ _
theorem finishClose_fixed (s : State) : (finishClose s).fixed = s.fixed := setRunState_fixed _ _
theorem askFirst_fixed (s : State) :
    (if s.dock.session.state = .starting then
      { s with dock.session.ask := some (if s.dock.session.start = 0 then .tail else .search LogPos.start 0) }
    else s).fixed = s.fixed := ite_fixed rfl rfl
theorem flushEnded_fixed (s : State) : (flushEnded s).fixed = s.fixed := by
  have h (u : State) (hf : u.fixed = s.fixed) : (if (u.engine.closeWaits && u.engine.runState == some .closing) = true then
      finishClose u else u).fixed = s.fixed := ite_fixed ((finishClose_fixed u).trans hf) hf
  exact (askFirst_fixed _).trans (h { s with store.flushing := false } rfl)
theorem requestFlush_fixed (s : State) : (requestFlush s).fixed = s.fixed := by
  unfold requestFlush; split
  · exact flushEnded_fixed s
  · exact fixed_store (Store.programIfDue_kept _)
theorem checkFlush_fixed (s : State) : (checkFlush s).fixed = s.fixed := by
  unfold checkFlush; split
  · exact flushEnded_fixed s
  · rfl
theorem closeFinish_fixed (s : State) : (closeFinish s).fixed = s.fixed :=
  (requestFlush_fixed _).trans (appendOrDrop_fixed s _)
theorem closeIfDone_fixed (s : State) : (closeIfDone s).fixed = s.fixed := by
  unfold closeIfDone; split
  · exact closeFinish_fixed s
  · rfl
theorem requestStation_fixed (s : State) (r) : (requestStation s r).fixed = s.fixed := rfl
theorem startStepSix_fixed (s : State) : (startStepSix s).fixed = s.fixed := rfl
theorem requestClosures_fixed (s : State) (l) : (requestClosures s l).fixed = s.fixed := rfl
theorem endOperation_fixed (s : State) : (endOperation s).fixed = s.fixed := rfl

/-! ## Packet operations -/

theorem placeNotice_fixed (s : State) (n) : (placeNotice s n).fixed = s.fixed := rfl
theorem requestHeld_fixed (s : State) (p) : (requestHeld s p).fixed = s.fixed := by unfold requestHeld; split <;> rfl
theorem evictRelay_fixed (s : State) : (evictRelay s).fixed = s.fixed := by
  unfold evictRelay
  repeat' split
  · rfl
  · rfl
  · exact selfStoreEntry_fixed s _
theorem newRelay_fixed (s : State) (p : Packet) : (newRelay s p).fixed = s.fixed := by
  unfold newRelay
  repeat' split
  · exact selfStore_fixed s _ _ _ _
  · rfl
  · exact evictRelay_fixed s
theorem storeFirstRead_fixed (s : State) (e b) : (storeFirstRead s e b).fixed = s.fixed := by
  have h := append_fixed s b
  unfold storeFirstRead
  split <;> rename_i heq <;> rw [heq] at h <;> exact h
theorem evaluate_fixed (s : State) (e : Entry) (p : Packet) (o : Origin) : (evaluate s e p o).fixed = s.fixed := by
  unfold evaluate
  dsimp only
  have h1 := changeEntry_fixed s e (evaluatedEntry s.settings s.engine.runDay e p)
  generalize changeEntry s e (evaluatedEntry s.settings s.engine.runDay e p) = t at h1 ⊢
  have h2 : (if isFirstReading e p = true then storeFirstRead t (evaluatedEntry s.settings s.engine.runDay e p)
      (evaluatedRecord t .firstRead o (evaluatedEntry s.settings s.engine.runDay e p) p 0) else t).fixed = s.fixed :=
    ite_fixed ((storeFirstRead_fixed _ _ _).trans h1) h1
  generalize (if isFirstReading e p = true then storeFirstRead t (evaluatedEntry s.settings s.engine.runDay e p)
      (evaluatedRecord t .firstRead o (evaluatedEntry s.settings s.engine.runDay e p) p 0) else t) = u at h2 ⊢
  have h3 := (foldl_fixed (f := fun s j => appendOrDrop s (evaluatedRecord s .exception o
    (evaluatedEntry t.settings t.engine.runDay e p) p j)) (fun s j => appendOrDrop_fixed s _) [] u).trans h2
  have h4 : ∀ (l : List Nat) (n : Entry), (l.foldl (fun s j => appendOrDrop s (evaluatedRecord s .exception o n p j)) u).fixed
      = s.fixed := fun l n => (foldl_fixed (fun s j => appendOrDrop_fixed s _) l u).trans h2
  repeat' split
  all_goals first
    | exact (placeNotice_fixed _ _).trans ((appendOrDrop_fixed _ _).trans (h4 _ _))
    | exact (appendOrDrop_fixed _ _).trans (h4 _ _)
    | exact h4 _ _
theorem storeUnlisted_fixed (s : State) (h o) : (storeUnlisted s h o).fixed = s.fixed :=
  ite_fixed (appendOrDrop_fixed s _) rfl
theorem heldForRelayed_fixed (s : State) (h) : (heldForRelayed s h).fixed = s.fixed := ite_fixed (requestHeld_fixed s _) rfl
theorem lookUpAndEvaluate_fixed (s : State) (h x n) : (lookUpAndEvaluate s h x n).fixed = s.fixed := by
  unfold lookUpAndEvaluate
  dsimp only
  repeat' split
  · exact (heldForRelayed_fixed _ _).trans (evaluate_fixed _ _ _ _)
  · exact (requestHeld_fixed _ _).trans (evaluate_fixed _ _ _ _)
  · exact (heldForRelayed_fixed _ _).trans (storeUnlisted_fixed _ _ _)
theorem classify_fixed (s : State) (h r) : (classify s h r).fixed = s.fixed := by
  unfold classify
  dsimp only
  repeat' split
  · exact heldForRelayed_fixed _ _
  · exact (requestHeld_fixed _ _).trans (appendOrDrop_fixed _ _)
  · exact (requestHeld_fixed _ _).trans (appendOrDrop_fixed _ _)
  · exact lookUpAndEvaluate_fixed _ _ _ _
  · exact lookUpAndEvaluate_fixed _ _ _ _
  · exact newRelay_fixed _ _
  · exact (heldForRelayed_fixed _ _).trans (storeUnlisted_fixed _ _ _)
theorem receiveHandover_fixed (s : State) (p r) : (receiveHandover s p r).fixed = s.fixed := by
  unfold receiveHandover
  dsimp only
  repeat' split
  all_goals rfl
theorem finishPacket_fixed (s : State) (i r) : (finishPacket s i r).fixed = s.fixed := by
  unfold finishPacket
  repeat' split
  · exact classify_fixed _ _ _
  · exact receiveHandover_fixed _ _ _
  · exact classify_fixed _ _ _
  · exact classify_fixed _ _ _
  · rfl

/-! ## Dock -/

theorem uploadEnd_fixed (s : State) : (uploadEnd s).fixed = s.fixed := rfl
theorem endSynthesis_fixed (s : State) : (endSynthesis s).fixed = s.fixed := rfl
theorem synthesize_fixed (s : State) (k r) : (synthesize s k r).fixed = s.fixed := rfl
theorem synthesizeNext_fixed (s : State) : (synthesizeNext s).fixed = s.fixed := by
  unfold synthesizeNext
  repeat' split
  · rfl
  · rfl
  · exact fixed_store (Store.requestMark_kept _ _)
  · exact fixed_store (Store.openCandidate_kept _)
  · rfl
  · rfl
theorem numberAfterOpening_fixed (s : State) : (numberAfterOpening s).fixed = s.fixed := ite_fixed (synthesizeNext_fixed s) rfl
theorem reserveAnswers_fixed (s : State) (b) : (reserveAnswers s b).fixed = s.fixed := by
  unfold reserveAnswers
  split <;> rfl
theorem reserveEnded_fixed (s : State) (n b) : (reserveEnded s n b).fixed = s.fixed := by
  have h : (if b then { s with store.durableBound := n } else s : State).fixed = s.fixed := ite_fixed rfl rfl
  unfold reserveEnded
  exact ite_fixed ((reserveAnswers_fixed _ _).trans h) h
theorem headReached_fixed (s : State) : (headReached s).fixed = s.fixed := synthesizeNext_fixed _
theorem holdRecord_fixed (s : State) (r) : (holdRecord s r).fixed = s.fixed := rfl
theorem readOn_fixed (s : State) (p n) : (readOn s p n).fixed = s.fixed := by
  unfold readOn
  split
  · rfl
  · exact headReached_fixed s
theorem searchOn_fixed (s : State) (p n) : (searchOn s p n).fixed = s.fixed := by
  unfold searchOn
  split <;> rfl
theorem nextReadEnds_fixed (s : State) (p n) : (nextReadEnds s p n).fixed = s.fixed := by
  unfold nextReadEnds
  repeat' split
  · exact holdRecord_fixed s _
  · exact readOn_fixed s _ _
  · exact headReached_fixed s
theorem searchReadEnds_fixed (s : State) (p n) : (searchReadEnds s p n).fixed = s.fixed := by
  unfold searchReadEnds
  repeat' split
  · exact holdRecord_fixed s _
  · exact searchOn_fixed s _ _
  · exact searchOn_fixed s _ _
  · rfl
theorem tailReadEnds_fixed (s : State) : (tailReadEnds s).fixed = s.fixed := by
  unfold tailReadEnds
  split
  · exact holdRecord_fixed s _
  · exact headReached_fixed s
theorem uploadReadEnds_fixed (s : State) : (uploadReadEnds s).fixed = s.fixed := by
  unfold uploadReadEnds
  split
  · rfl
  · exact searchReadEnds_fixed s _ _
  · exact tailReadEnds_fixed s
  · exact nextReadEnds_fixed s _ _
theorem streamOn_fixed (s : State) : (streamOn s).fixed = s.fixed := by
  unfold streamOn; split
  · rfl
  · exact synthesizeNext_fixed s
theorem finishUpload_fixed (s : State) (n) : (finishUpload s n).fixed = s.fixed := by
  unfold finishUpload
  dsimp only
  split
  · rfl
  · exact streamOn_fixed _
theorem uploadOpen_fixed (s : State) (n) : (uploadOpen n s).fixed = s.fixed :=
  ite_fixed (requestFlush_fixed _) rfl
theorem pauseAfterMark_fixed (s : State) : (pauseAfterMark s).fixed = s.fixed :=
  ite_fixed (ite_fixed (streamOn_fixed _) rfl) rfl
theorem uploadClose_fixed (s : State) : (uploadClose s).fixed = s.fixed := endSession_fixed s
theorem eraseUploaded_fixed (s : State) : (eraseUploaded s).fixed = s.fixed := rfl
theorem clearFindings_fixed (s : State) : (clearFindings s).fixed = s.fixed := ite_fixed rfl rfl
theorem planBegin_fixed (s : State) (i c g) : (planBegin i c g s).fixed = s.fixed := by
  unfold planBegin
  split
  · rfl
  · exact setRunState_fixed _ _
theorem planData_fixed (s : State) (i r) : (planData i r s).fixed = s.fixed := ite_fixed rfl rfl
theorem planStatus_fixed (s : State) (r) : (planStatus s r).fixed = s.fixed := rfl
theorem planFails_fixed (s : State) (r) : (planFails s r).fixed = s.fixed := setRunState_fixed _ _
theorem planEndJudged_fixed (s : State) : (planEndJudged s).fixed = s.fixed := by
  unfold planEndJudged
  dsimp only
  exact ite_fixed rfl (planFails_fixed _ _)
theorem planEndIfDrained_fixed (s : State) : (planEndIfDrained s).fixed = s.fixed := by
  unfold planEndIfDrained
  repeat' split
  · exact planEndJudged_fixed s
  · rfl
  · rfl
theorem planEnd_fixed (s : State) : (planEnd s).fixed = s.fixed := ite_fixed (planEndIfDrained_fixed _) rfl
theorem settingSave_fixed (s : State) : (settingSave s).fixed = s.fixed := by unfold settingSave; split <;> rfl
theorem saveReplies_fixed (r : Byte) (n : Nat) (s : State) : (saveReplies r n s).fixed = s.fixed := by
  induction n generalizing s with
  | zero => rfl
  | succ n ih => exact (ih _).trans rfl
theorem nextSave_fixed (s : State) : (nextSave s).fixed = s.fixed := ite_fixed rfl rfl
theorem clearConditions_fixed (s : State) : (clearConditions s).fixed = s.fixed := rfl
theorem dockClear_fixed (s : State) : (dockClear s).fixed = s.fixed := rfl
theorem dockOperation_fixed {c e} {f : State → State} (h : ∀ s, (f s).fixed = s.fixed) (s : State) :
    (dockOperation c e f s).fixed = s.fixed := by
  unfold dockOperation
  split
  · exact h s
  · rfl
  · rfl

/-! ## Engine -/

theorem buildEnds_fixed (s : State) (p) : (buildEnds s p).fixed = s.fixed := by
  unfold buildEnds
  dsimp only
  refine ite_fixed ?_ (ite_fixed ?_ ?_) <;> exact setRunState_fixed _ _
theorem beginBuild_fixed (s : State) : (beginBuild s).fixed = s.fixed := by
  unfold beginBuild
  split
  · exact ite_fixed rfl (buildEnds_fixed _ _)
  · rfl
theorem buildRecord_fixed (s : State) (p i b) : (buildRecord s p i b).fixed = s.fixed := by
  unfold buildRecord
  dsimp only
  exact ite_fixed rfl (ite_fixed rfl (ite_fixed rfl rfl))
theorem checkFails_fixed (s : State) : (checkFails s).fixed = s.fixed := setRunState_fixed _ _
theorem checkPasses_fixed (s : State) (p) : (checkPasses s p).fixed = s.fixed := rfl
theorem beginLoad_fixed (s : State) (n) : (beginLoad s n).fixed = s.fixed :=
  foldl_fixed removeEntry_fixed _ s
theorem loadRecord_fixed (s : State) (p n i b) : (loadRecord s p n i b).fixed = s.fixed := by
  unfold loadRecord
  dsimp only
  exact ite_fixed rfl (ite_fixed rfl (ite_fixed rfl rfl))
theorem admitEntry_fixed (s : State) (e) : (admitEntry s e).fixed = s.fixed := ite_fixed rfl rfl
theorem moveRelayEntry_fixed (s : State) (e) : (moveRelayEntry s e).fixed = s.fixed := by
  unfold moveRelayEntry
  dsimp only
  split
  · rfl
  · exact selfStoreEntry_fixed s e
theorem loadEnds_fixed (s : State) (n) : (loadEnds s n).fixed = s.fixed :=
  ite_fixed ((foldl_fixed moveRelayEntry_fixed _ _).trans (foldl_fixed admitEntry_fixed _ s)) (stopLoad_fixed s n)
theorem loadFails_fixed (s : State) (n) : (loadFails s n).fixed = s.fixed := ite_fixed (abandonLoad_fixed s n) (stopLoad_fixed s n)
theorem checkRead_fixed (s : State) (b) : (checkRead s b).fixed = s.fixed := by
  unfold checkRead
  split
  · dsimp only
    exact ite_fixed ((planEndJudged_fixed _).trans (ite_fixed rfl rfl)) (ite_fixed rfl rfl)
  · rfl
theorem planReadEnds_fixed (s : State) (b) : (planReadEnds s b).fixed = s.fixed := by
  unfold planReadEnds
  split
  · split
    · rfl
    · exact checkFails_fixed s
  · exact ite_fixed (checkFails_fixed s) (ite_fixed rfl rfl)
  · dsimp only
    exact ite_fixed (buildRecord_fixed _ _ _ _) ((buildEnds_fixed _ _).trans (buildRecord_fixed _ _ _ _))
  · dsimp only
    exact ite_fixed (loadRecord_fixed _ _ _ _ _) ((loadEnds_fixed _ _).trans (loadRecord_fixed _ _ _ _ _))
  · rfl
  · exact loadFails_fixed s _
  · exact checkRead_fixed s b
theorem handEntry_fixed (s : State) (n e) : (handEntry s n e).fixed = s.fixed := giveKept_fixed s e
theorem releaseEntry_fixed (n : Nat) (s : State) (e) : (releaseEntry n s e).fixed = s.fixed := by
  unfold releaseEntry
  split
  · exact handEntry_fixed s n e
  · exact handEntry_fixed s n e
  · exact removeEntry_fixed s e
  · exact removeEntry_fixed s e
  · exact removeEntry_fixed s e
  · rfl
theorem releaseEnds_fixed (s : State) (n) : (releaseEnds s n).fixed = s.fixed := foldl_fixed (releaseEntry_fixed n) _ s
theorem closeReleaseEnds_fixed (s : State) : (closeReleaseEnds s).fixed = s.fixed :=
  (closeIfDone_fixed _).trans (foldl_fixed removeEntry_fixed _ s)
theorem missEntry_fixed (s : State) (e) : (missEntry s e).fixed = s.fixed := rfl
theorem closureEnds_fixed (s : State) (n) : (closureEnds s n).fixed = s.fixed :=
  (closeIfDone_fixed _).trans (foldl_fixed missEntry_fixed _ s)
theorem resetEntry_fixed (s : State) (e) : (resetEntry s e).fixed = s.fixed := giveKept_fixed s e
theorem resetTable_fixed (s : State) : (resetTable s).fixed = s.fixed := foldl_fixed resetEntry_fixed _ s
theorem rebuildEnds_fixed (s : State) : (rebuildEnds s).fixed = s.fixed := ite_fixed (enterRunning_fixed _ _) rfl
theorem rebuildFrom_fixed (s : State) (p n) : (rebuildFrom s p n).fixed = s.fixed := by
  unfold rebuildFrom
  split
  · rfl
  · exact rebuildEnds_fixed s
theorem rebuildBegins_fixed (s : State) (m) : (rebuildBegins s m).fixed = s.fixed := by
  unfold rebuildBegins
  repeat' split
  · exact rebuildFrom_fixed s _ _
  · exact rebuildFrom_fixed s _ _
  · exact rebuildEnds_fixed s
theorem newRunBegins_fixed (s : State) : (newRunBegins s).fixed = s.fixed := by
  unfold newRunBegins
  split
  · exact (enterRunning_fixed _ _).trans (appendOrDrop_fixed _ _)
  · rfl
theorem applyRecord_fixed (s : State) (r) : (applyRecord s r).fixed = s.fixed := by
  unfold applyRecord
  repeat' split
  all_goals rfl
theorem rebuildReadEnds_fixed (s : State) (p n) : (rebuildReadEnds s p n).fixed = s.fixed := by
  unfold rebuildReadEnds
  repeat' split
  · exact (rebuildFrom_fixed _ _ _).trans (applyRecord_fixed _ _)
  · exact rebuildFrom_fixed s _ _
  · exact rebuildEnds_fixed s
theorem findingsClearEnds_fixed (s : State) : (findingsClearEnds s).fixed = s.fixed :=
  foldl_fixed (f := fun s e => changeEntry s e (clearEntry s.settings e)) (fun s e => changeEntry_fixed s e _) _ s
theorem emptyingEnds_fixed (s : State) : (emptyingEnds s).fixed = s.fixed := foldl_fixed removeEntry_fixed _ s
theorem keptReleaseEnds_fixed (s : State) (m n) : (keptReleaseEnds s m n).fixed = s.fixed := by
  unfold keptReleaseEnds
  dsimp only
  repeat' split
  all_goals rfl
theorem beginRequest_fixed (s : State) (r) : (beginRequest s r).fixed = s.fixed := by
  unfold beginRequest
  split
  all_goals first
    | rfl
    | exact beginBuild_fixed s
theorem choosePacket_fixed (s : State) : (choosePacket s).fixed = s.fixed := by
  unfold choosePacket
  split
  all_goals rfl
theorem engineChoose_fixed (s : State) : (engineChoose s).fixed = s.fixed := by
  unfold engineChoose
  split
  · rfl
  · split
    · rfl
    · rfl
    · exact beginRequest_fixed _ _
    · exact ite_fixed (beginLoad_fixed s _) rfl
    · exact ite_fixed (choosePacket_fixed s) rfl

/-! ## Rack and settling -/

theorem offer_fixed (s : State) : (offer s).fixed = s.fixed := by
  unfold offer
  repeat' split
  all_goals rfl
theorem finishHandover_fixed (s : State) (t) : (finishHandover s t).fixed = s.fixed := by
  unfold finishHandover
  repeat' split
  · exact removeEntry_fixed s _
  · rfl
  · rfl
  · rfl
theorem finishReply_fixed (s : State) (t) : (finishReply s t).fixed = s.fixed := by
  unfold finishReply
  repeat' split
  · exact finishUpload_fixed s _
  · rfl
  · rfl
theorem finishItem_fixed (s : State) (c t d) : (finishItem s c t d).fixed = s.fixed := by
  unfold finishItem
  split
  · rfl
  · rfl
  · exact finishHandover_fixed s t
  · rfl
  · rfl
  · rfl
  · rfl
  · exact finishReply_fixed s t
theorem finishFrame_fixed (s : State) (x) : (finishFrame s x).fixed = s.fixed := ite_fixed (finishItem_fixed s _ _ _) rfl
theorem cleanRetry_fixed (s : State) : (cleanRetry s).fixed = s.fixed := by
  unfold cleanRetry
  repeat' split
  all_goals rfl
theorem askRevisit_fixed (x) (s : State) : (askRevisit x s).fixed = s.fixed := by unfold askRevisit; split <;> rfl
theorem answerQuery_fixed (s : State) : (answerQuery s).fixed = s.fixed := by
  unfold answerQuery
  split
  · exact ite_fixed rfl (askRevisit_fixed _ s)
  · rfl
theorem retryItem_fixed (s : State) (x) : (retryItem s x).fixed = s.fixed := by
  unfold retryItem
  dsimp only
  exact ite_fixed rfl (ite_fixed rfl (finishFrame_fixed _ _))
theorem frameSent_fixed (s : State) (x) : (frameSent s x).fixed = s.fixed := finishFrame_fixed _ _
theorem transmitError_fixed (b : Bool) (s : State) (x) : (transmitError b s x).fixed = s.fixed := retryItem_fixed _ _
theorem reportFrame_fixed (s : State) (n) : (reportFrame s n).fixed = s.fixed :=
  ite_fixed (heardReport_fixed _ _) rfl
theorem serveProgram_fixed (s : State) (p) : (serveProgram s p).fixed = s.fixed := by
  unfold serveProgram
  dsimp only
  split
  · rfl
  · rfl
  · rfl
  · unfold servePlanRecord; split <;> rfl
theorem arbitrate_fixed (s : State) : (arbitrate s).fixed = s.fixed := by
  unfold arbitrate
  repeat' split
  all_goals first
    | rfl
    | exact serveProgram_fixed s _
    | exact fixed_store (beginErase_kept _)
theorem requestPlanRecord_fixed (s : State) : (requestPlanRecord s).fixed = s.fixed := by
  unfold requestPlanRecord
  split
  all_goals rfl

/-- What follows at the end of a command leaves these parts as they are (log 12). -/
theorem settle_fixed (s : State) : (settle s).fixed = s.fixed := by
  unfold settle
  dsimp only
  refine (offer_fixed _).trans ((cleanRetry_fixed _).trans ((answerQuery_fixed _).trans ((noteFull_fixed _).trans ((arbitrate_fixed _).trans
    ((requestPlanRecord_fixed _).trans ((fixed_store (Store.serviceEraseList_kept _)).trans ?_))))))
  exact (engineChoose_fixed _).trans (engineChoose_fixed s)

end Sys2Proof.Machine
end

