-- ==== Sys2Proof/Laws/Memory.lean ====
section
/-!
SUPPORT. Laws of the memory: every operation keeps the canonical form, and what a byte reads after a write.
-/

namespace Sys2Proof.Machine

/-- Every listed address is above `a`. -/
def Memory.above (m : Memory) (a : Nat) : Prop := ∀ c ∈ m, a < c.1

theorem Memory.wf_nil : Memory.wf [] = true := rfl

theorem Memory.wf_cons (c : Host.Cell) (m : Memory) :
    Memory.wf (c :: m) = true ↔ c.2 ≠ 0xFF ∧ Memory.above m c.1 ∧ Memory.wf m = true := by
  induction m generalizing c with
  | nil => simp [Memory.wf, Memory.rising, Memory.above]
  | cons d m ih =>
    have h := ih d
    obtain ⟨a, v⟩ := c
    obtain ⟨b, w⟩ := d
    simp only [Memory.wf, Memory.above, Memory.rising, List.all_cons, Bool.and_eq_true, bne_iff_ne, ne_eq, decide_eq_true_eq,
      List.mem_cons, forall_eq_or_imp] at h ⊢
    constructor
    · rintro ⟨⟨hab, hr⟩, hv, hw, hall⟩
      obtain ⟨_, hb, _, _⟩ := h.1 ⟨hr, hw, hall⟩
      exact ⟨hv, ⟨hab, fun c hc => Nat.lt_trans hab (hb c hc)⟩, hr, hw, hall⟩
    · rintro ⟨hv, ⟨hab, _⟩, hr, hw, hall⟩
      exact ⟨⟨hab, hr⟩, hv, hw, hall⟩

/-- A write's addresses are the written one and old ones. -/
theorem Memory.write_above {m : Memory} {a b : Nat} {v : Byte} (h : Memory.above m b) (hb : b < a) :
    Memory.above (m.write a v) b := by
  induction m with
  | nil => simp only [Memory.write]; split <;> simp [Memory.above, hb]
  | cons c m ih =>
    obtain ⟨k, w⟩ := c
    have hm : Memory.above m b := fun c hc => h c (by simp [hc])
    simp only [Memory.write]
    repeat' split
    · exact h
    · intro c hc
      rcases List.mem_cons.1 hc with rfl | hc
      · exact hb
      · exact h c hc
    · exact hm
    · intro c hc
      rcases List.mem_cons.1 hc with rfl | hc
      · exact hb
      · exact hm c hc
    · intro c hc
      rcases List.mem_cons.1 hc with rfl | hc
      · exact h _ (by simp)
      · exact ih hm c hc

/-- A write keeps the canonical form. -/
theorem Memory.write_wf {m : Memory} (a : Nat) (v : Byte) (h : m.wf = true) : (m.write a v).wf = true := by
  induction m with
  | nil =>
    simp only [Memory.write]
    split
    · rfl
    · rename_i hv; exact (Memory.wf_cons _ _).2 ⟨hv, by simp [Memory.above], rfl⟩
  | cons c m ih =>
    obtain ⟨k, w⟩ := c
    obtain ⟨hw, hk, hm⟩ := (Memory.wf_cons _ _).1 h
    simp only [Memory.write]
    by_cases hak : a < k
    · rw [if_pos hak]
      split
      · exact h
      · rename_i hv
        refine (Memory.wf_cons _ _).2 ⟨hv, ?_, h⟩
        intro c hc
        rcases List.mem_cons.1 hc with rfl | hc
        · exact hak
        · exact Nat.lt_trans hak (hk c hc)
    · rw [if_neg hak]
      by_cases he : a = k
      · subst he
        rw [if_pos rfl]
        split
        · exact hm
        · rename_i hv; exact (Memory.wf_cons _ _).2 ⟨hv, hk, hm⟩
      · rw [if_neg he]
        exact (Memory.wf_cons _ _).2 ⟨hw, Memory.write_above hk (by show k < a; omega), ih hm⟩

/-- A byte below every listed address reads as unlisted. -/
theorem Memory.read_above {m : Memory} {a : Nat} (h : Memory.above m a) : m.read a = 0xFF := by
  induction m with
  | nil => rfl
  | cons c m ih =>
    obtain ⟨k, w⟩ := c
    have hk : a < k := h (k, w) (by simp)
    simp only [Memory.read]
    rw [if_neg (by omega)]
    exact ih fun c hc => h c (by simp [hc])

/-- What a byte reads after a write (R154). -/
theorem Memory.read_write {m : Memory} (a b : Nat) (v : Byte) (h : m.wf = true) :
    (m.write a v).read b = if b = a then v else m.read b := by
  induction m with
  | nil =>
    simp only [Memory.write]
    by_cases hv : v = 0xFF
    · subst hv; by_cases hb : b = a <;> simp [Memory.read]
    · rw [if_neg hv]
      by_cases hb : b = a
      · subst hb; simp [Memory.read]
      · rw [if_neg hb]; simp [Memory.read, Ne.symm hb]
  | cons c m ih =>
    obtain ⟨k, w⟩ := c
    obtain ⟨hw, hk, hm⟩ := (Memory.wf_cons _ _).1 h
    have hk : Memory.above m k := hk
    simp only [Memory.write]
    by_cases hak : a < k
    · rw [if_pos hak]
      by_cases hv : v = 0xFF
      · subst hv
        rw [if_pos rfl]
        by_cases hb : b = a
        · subst hb
          rw [if_pos rfl]
          refine Memory.read_above ?_
          intro c hc
          rcases List.mem_cons.1 hc with rfl | hc
          · exact hak
          · exact Nat.lt_trans hak (hk c hc)
        · rw [if_neg hb]
      · rw [if_neg hv]
        by_cases hb : b = a
        · subst hb; simp [Memory.read]
        · rw [if_neg hb]; simp [Memory.read, Ne.symm hb]
    · rw [if_neg hak]
      by_cases he : a = k
      · subst he
        rw [if_pos rfl]
        by_cases hv : v = 0xFF
        · subst hv
          rw [if_pos rfl]
          by_cases hb : b = a
          · subst hb; rw [if_pos rfl]; exact Memory.read_above hk
          · rw [if_neg hb]; simp [Memory.read, Ne.symm hb]
        · rw [if_neg hv]
          by_cases hb : b = a
          · subst hb; simp [Memory.read]
          · rw [if_neg hb]; simp [Memory.read, Ne.symm hb]
      · rw [if_neg he]
        by_cases hkb : k = b
        · subst hkb
          simp only [Memory.read, if_true]
          rw [if_neg (Ne.symm he)]
        · simp only [Memory.read, if_neg hkb]
          exact ih hm

theorem Memory.writeBytes_wf {m : Memory} (a : Nat) (vs : List Byte) (h : m.wf = true) : (m.writeBytes a vs).wf = true := by
  induction vs generalizing m a with
  | nil => exact h
  | cons v vs ih => exact ih _ (Memory.write_wf _ _ h)

/-- A page program keeps the canonical form. -/
theorem Memory.program_wf {m : Memory} (a : Nat) (vs : List Byte) (h : m.wf = true) : (m.program a vs).wf = true := by
  induction vs generalizing m a with
  | nil => exact h
  | cons v vs ih => exact ih _ (Memory.write_wf _ _ h)

theorem Memory.tornProgram_wf {m : Memory} (use a : Nat) (vs : List Byte) (h : m.wf = true) :
    (m.tornProgram use a vs).wf = true := by
  induction vs generalizing m a with
  | nil => exact h
  | cons v vs ih => exact ih _ (Memory.write_wf _ _ h)

theorem Memory.tornWrite_wf {m : Memory} (use a n : Nat) (h : m.wf = true) : (m.tornWrite use a n).wf = true := by
  unfold Memory.tornWrite
  generalize List.range n = l
  induction l generalizing m with
  | nil => exact h
  | cons i l ih => exact ih (Memory.write_wf _ _ h)

theorem Memory.erase_wf {m : Memory} (a n : Nat) (h : m.wf = true) : (m.erase a n).wf = true := by
  induction m with
  | nil => exact h
  | cons c m ih =>
    obtain ⟨hw, hk, hm⟩ := (Memory.wf_cons _ _).1 h
    simp only [Memory.erase, List.filter_cons]
    split
    · exact (Memory.wf_cons _ _).2 ⟨hw, fun d hd => hk d (List.mem_filter.1 hd).1, ih hm⟩
    · exact ih hm

theorem Memory.tornErase_wf {m : Memory} (use a n : Nat) (h : m.wf = true) : (m.tornErase use a n).wf = true := by
  induction m with
  | nil => exact h
  | cons c m ih =>
    obtain ⟨hw, hk, hm⟩ := (Memory.wf_cons _ _).1 h
    have key : ∀ v : Byte, Memory.above (Memory.tornErase use m a n) c.1 := by
      intro _ d hd
      simp only [Memory.tornErase, List.mem_filterMap] at hd
      obtain ⟨e, he, hd⟩ := hd
      have := hk e he
      repeat' split at hd
      all_goals simp_all
      all_goals (subst hd; exact this)
    unfold Memory.tornErase
    rw [List.filterMap_cons]
    repeat' split
    · exact ih hm
    · rename_i x heq
      repeat' split at heq
      · cases heq
      · rename_i hne
        cases heq
        exact (Memory.wf_cons _ _).2 ⟨hne, key 0, ih hm⟩
      · cases heq
        exact (Memory.wf_cons _ _).2 ⟨hw, key 0, ih hm⟩

/-- After reset both memories are in canonical form. -/
theorem reset_memoryCanonical : MemoryCanonical State.reset := ⟨rfl, rfl⟩

end Sys2Proof.Machine
end

