-- ==== Sys2Proof/WellFormed.lean ====
section
/-!
DEFINITION. Which command terms stand for an event that the outside world can send.
-/

namespace Sys2Proof

/-- A source slot that sends a peer's class (R24). -/
def peerSource (src : BitVec 4) : Bool := Machine.isCollector src.toNat

/-- A frame that the receive filter of some other station's slot among 1 to 8 delivers to no command row (R25): a frame addressed to one
collector is a RACK_FRAME_OTHER for every other one. -/
def reachesNoRow (f : RackFrame) : Bool :=
  (List.range 8).any fun i =>
    i + 1 != f.src.toNat &&
      match Machine.readFrame (i + 1) f with
      | .delivered _ => false
      | _ => true

/-- Well-formed commands: a peer's class from a collector slot, payloads of their class's length, a slot 1 to 8 where a view
entry is named, a frame of at most 48 payload bytes with a source 0 to 14, and line bits that are no clean valid frame. -/
def wellFormed : Instr → Bool
  | .presence src _ => peerSource src
  | .held src _ _ => peerSource src
  | .relay src _ => peerSource src
  | .handover src _ => peerSource src
  | .absenceExpiry slot => peerSource slot
  | .presumptionExpiry slot => peerSource slot
  | .planData _ record => record.length == 32
  | .settingWrite _ data => decide (1 ≤ data.length ∧ data.length ≤ 16)
  | .rackFrameOther f => decide (f.payload.length ≤ 48) && decide (f.src.toNat ≤ 14) && reachesNoRow f
  | .receiveError bits =>
    match Machine.judgeBits bits with
    | none => false
    | some (.valid true) => false
    | some _ => true
  | .start _ | .powerLoss | .configRead | .configAnswerTimeout | .startUpScan => true
  | .intakeCharacter _ _ _ | .gapExpiry | .lineReturnHigh => true
  | .searchingComplete | .duplicateFrame | .frameSent | .arbitrationLoss | .transmitError _ => true
  | .runOpen _ _ | .runClose _ _ | .position _ _ | .positionWatchdogExpiry => true
  | .presenceTimerExpiry | .packetOperation | .pageBufferTimeout | .release | .closeRelease => true
  | .closureMarking | .runReset | .rebuildRead | .findingsClear | .routeTableEmptying | .keptRecordRelease => true
  | .planRead | .relayWaitExpiry _ _ | .listRevisit _ | .queryClearConditions => true
  | .uploadOpen _ | .uploadRead | .uploadMark _ | .uploadPauseTimeout | .uploadClose | .eraseUploaded => true
  | .clearFindings | .planBegin _ _ _ | .planEnd | .settingSave | .saveCompletion _ | .dockClearConditions => true
  | .pageProgram _ | .sectorOpening _ | .headerMarkProgram _ | .sectorErase | .planSectorErase => true
  | .planRecordProgram _ | .planHeaderProgram _ => true

end Sys2Proof
end

