-- ==== Sys2Proof/Tests/Slice0.lean ====
section
/-!
SUPPORT. The author's own tests: ill-formed commands, the manual's worked values, one small step for each command, and for each statement
a state and operands that meet its hypotheses. Expected values are the manual's, by the rule each test names.
-/

namespace Sys2Proof.Tests

open Sys2Proof.Machine

set_option Elab.async false

/-! ## Small states -/

/-- The state a command answers with; the reset state where it stops. -/
def after (o : Answer) : State :=
  match o with
  | .next s => s
  | _ => State.reset

/-- The answer is a next state. -/
def answers (o : Answer) : Bool :=
  match o with
  | .next _ => true
  | _ => false

/-- Past start step 6 at slot 1, the receiver IDLE. -/
def up : State := { State.reset with startup.step := .up, rack.rx := .idle }

/-- A plan of four records and two segments. -/
def plan : Plan := ⟨7, 4, 2⟩

/-- READY, with an open log sector. -/
def ready : State :=
  { up with
    engine.plan := some plan
    engine.runState := some .ready
    tracker.rows := freshRows 2 []
    store.rows := [⟨128, .opened, some 1, 0, 0, none, none⟩]
    store.head := some (128, 1)
    store.sectorSeq := 2
    store.durableBound := 1 }

/-- RUNNING run 5 on day 19,531. -/
def running : State :=
  { ready with
    engine.runState := some .running
    engine.currentRun := some 5
    engine.runDay := 19531
    tracker.watchdog := some 0
    tracker.stale := true }

/-- The meter of the cases of 5.7, its meter ID one of share 1. -/
def entry : Entry where
  meterId := 40000
  origin := .own
  planIndex := 0
  segment := 0
  billed := 482310
  billedDay := 19500
  digits := 6
  band := 0
  rate := 200
  status := .unread
  lastHeard := none
  firstRead := none
  kept := none
  detectors := List.replicate 7 Detector.fresh
  score := 0
  suspect := false

/-- A packet of that meter. -/
def packet (counter : BitVec 16) (reading : BitVec 32) : Packet where
  meterId := 40000
  counter := counter
  reading := reading
  digits := 6
  alarm := false
  flags := 0
  rssi := 0x60
  channel := 3

/-- RUNNING with one entry. -/
def withEntry (e : Entry) : State :=
  { running with
    engine.table := [e]
    tracker.rows := freshRows 2 [e] }

/-- An operation in progress. -/
def busy (s : State) (op : EngineOp) : State := { s with engine.op := op }

/-- A packet operation on a packet heard here in progress. -/
def heard (s : State) (p : Packet) : State := busy s (.packet (.intake p) none)

/-- A relay list entry of a meter of share 2. -/
def relayEntry (sends : Nat) (phase : RelayPhase) : RelayEntry where
  tag := 3
  packet := { packet 9 100 with meterId := 30114772 }
  share := 2
  segment := 1
  stale := false
  sends := sends
  lastSend := some 0
  target := some 2
  phase := phase

/-- A record of a FIRST READ. -/
def record : RecordBody := evaluatedRecord running .firstRead .own entry (packet 1200 483010) 0

/-- A state with a later station time. -/
def at_ (s : State) (t : Time) : State := { s with startup.now := t }

/-- The flash serves an operation. -/
def serving (s : State) (x : Serving) : State := { s with store.serving := some x }

/-- This station sends a frame. -/
def sending (s : State) (x : Sending) : State := { s with rack.sending := some x, rack.rx := .frame }

/-- This station sends the frame of the REVISIT reply pending, from start index 0. -/
def revisitSent : State := sending { up with tracker.reply := some ⟨7, 0⟩ } ⟨7, ⟨9, 1, 10, [0, 0, 0, 0]⟩⟩

/-- This station sends the RELAY of a relay list entry, its PRESENCE the retry item. -/
def relaySent : State :=
  sending { running with relay.list := [relayEntry 0 .unsent], presence.item := some 5, rack.retry := some ⟨2, 5, 3⟩, nextTag := 8 }
    ⟨3, ⟨5, 1, 2, []⟩⟩

/-- This station, in a session, sends an UPLOAD DATA, its PRESENCE the retry item. -/
def uploadSent : State :=
  sending { ready with
    dock.session := { Session.afterStart with state := .streaming, data := some ⟨6, 9, []⟩ }
    presence.item := some 5
    rack.retry := some ⟨2, 5, 3⟩
    nextTag := 8 } ⟨6, ⟨11, 1, 11, []⟩⟩

/-! ## Ill-formed commands (R1 to R194: what no one sends) -/

theorem test_wf_presence : wellFormed (.presence 9 (presenceOf [])) = false ∧ wellFormed (.presence 0 (presenceOf [])) = false ∧
    wellFormed (.presence 8 (presenceOf [])) = true := by decide
theorem test_wf_held : wellFormed (.held 0 1 1) = false ∧ wellFormed (.held 1 1 1) = true := by decide
theorem test_wf_relay : wellFormed (.relay 11 (relayOf [])) = false ∧ wellFormed (.relay 2 (relayOf [])) = true := by decide
theorem test_wf_handover : wellFormed (.handover 15 (handoverOf [])) = false ∧ wellFormed (.handover 3 (handoverOf [])) = true := by decide
theorem test_wf_absence : wellFormed (.absenceExpiry 0) = false ∧ wellFormed (.absenceExpiry 4) = true := by decide
theorem test_wf_presumption : wellFormed (.presumptionExpiry 9) = false ∧ wellFormed (.presumptionExpiry 4) = true := by decide
theorem test_wf_planData : wellFormed (.planData 0 (List.replicate 31 0)) = false ∧
    wellFormed (.planData 0 (List.replicate 32 0)) = true := by decide
theorem test_wf_settingWrite : wellFormed (.settingWrite 0 []) = false ∧ wellFormed (.settingWrite 0 (List.replicate 17 0)) = false ∧
    wellFormed (.settingWrite 0 (List.replicate 16 0)) = true := by decide
theorem test_wf_frame_too_long : wellFormed (.rackFrameOther ⟨12, 1, 15, List.replicate 49 0⟩) = false := by decide
theorem test_wf_frame_source : wellFormed (.rackFrameOther ⟨12, 15, 15, []⟩) = false := by decide
theorem test_wf_frame_of_a_row : wellFormed (.rackFrameOther ⟨3, 2, 15, List.replicate 6 0⟩) = false ∧
    wellFormed (.rackFrameOther ⟨3, 2, 15, List.replicate 5 0⟩) = true := by decide
theorem test_wf_bits_no_start : wellFormed (.receiveError [true, false]) = false ∧ wellFormed (.receiveError []) = false := by decide
theorem test_wf_bits_valid_frame : wellFormed (.receiveError (wireBits ⟨8, 10, 15, [2]⟩)) = false := by decide +kernel
theorem test_wf_bits_fault : wellFormed (.receiveError (List.replicate 7 false)) = true := by decide

/-! ## Worked values of the manual -/

/-- The check value of R1. -/
theorem test_crc_check_value : crc16 [0x31, 0x32, 0x33, 0x34, 0x35, 0x36, 0x37, 0x38, 0x39] = 0x29B1 := by decide +kernel

/-- The table of R37. -/
theorem test_share_table : [40000, 30114772, 65523, 70000].map (shareOf 4) = [1, 2, 3, 4] := by decide

/-- The bits of the shortest frame before stuffing, and the bus time of R19's table without stuff bits. -/
theorem test_frame_bits : (frameBits ⟨8, 10, 15, [2]⟩).length = 43 ∧ (frameBits ⟨2, 1, 15, List.replicate 14 0⟩).length = 147 := by
  decide +kernel

/-- Cases 1 and 2 of 5.7. -/
theorem test_case_1_and_2 :
    packetResults defaultSettings 19531 entry (packet 1 483010) =
      [some false, some false, some false, some false, none, none, some false] ∧
    packetResults defaultSettings 19531 entry (packet 1 483790) =
      [some false, some false, some true, some false, none, none, some false] := by decide +kernel

/-- Case 3 of 5.7. -/
theorem test_case_3 : consumption defaultSettings { entry with digits := 5, billed := 99640 } (packet 1 212) = some 572 := by decide +kernel

/-- Case 4 of 5.7. -/
theorem test_case_4 : consumption defaultSettings { entry with digits := 5, billed := 40000 } (packet 1 39700) = none := by decide +kernel

/-- Case 5 of 5.7. -/
theorem test_case_5 :
    packetResults defaultSettings 19531 { entry with lastHeard := some ⟨1201, 483790, 0⟩ } (packet 1202 483500) =
      [some false, some true, some true, some false, some false, none, some false] := by decide +kernel

/-- Case 6 of 5.7: a heat meter of D = 7 and band class 2. -/
theorem test_case_6 :
    packetResults defaultSettings 19531 { entry with digits := 7, billed := 1200400, billedDay := 19480, rate := 96, band := 2 }
      { packet 1 1200400 with digits := 7 } = [some false, some false, some false, some true, none, none, some false] := by decide +kernel

/-- Case 7 of 5.7. -/
theorem test_case_7 :
    packetResults defaultSettings 19531 { entry with billedDay := 19540 } (packet 1 482322) =
      [some false, some false, some false, some false, none, none, some false] := by decide +kernel

/-- Case 8 of 5.7. -/
theorem test_case_8 :
    let e := { entry with lastHeard := some ⟨65530, 483010, 0⟩ }
    packetKind e.lastHeard 4 = .advance ∧ packetKind e.lastHeard 65000 = .regress ∧
    packetResults defaultSettings 19531 e (packet 65530 483010) = [none, none, none, none, none, some false, none] ∧
    packetResults defaultSettings 19531 e (packet 65530 483011) = [none, none, none, none, none, some true, none] := by decide +kernel

/-- Case 9 of 5.7. -/
theorem test_case_9 :
    packetResults defaultSettings 19531 { entry with digits := 5 } { packet 1 23150 with digits := 4 } =
      [some false, none, none, none, none, none, some true] := by decide +kernel

/-- B1 to B5 of 6.9 for METER_FLAGS: state and consecutive count after each packet. -/
theorem test_meters_own_alarms :
    let ds := defaultSettings.detector 0
    let d1 := (detectorStep ds false (some true) Detector.fresh).1
    let d2 := (detectorStep ds false (some false) d1).1
    let d3 := (detectorStep ds false (some true) d2).1
    let d4 := detectorStep ds true (some true) d3
    let d5 := (detectorStep ds true (some false) d4.1).1
    [d1, d2, d3, d4.1, d5].map (fun d => (d.state, d.consecutive)) = [(.pending, 1), (.idle, 0), (.pending, 1), (.active, 2), (.active, 0)] ∧
      d4.2 = true := by decide +kernel

/-- The clear of 6.8: REVERSE returns to IDLE, the score becomes 80, the mark stays. -/
theorem test_findings_clear_of_6_8 :
    let ds : List Detector := [⟨.idle, 0, 0, some false⟩, ⟨.active, 0, 0, some false⟩, ⟨.active, 3, 0, some true⟩, ⟨.idle, 0, 0, some false⟩,
      ⟨.idle, 0, 0, some false⟩, ⟨.active, 1, 0, some true⟩, ⟨.idle, 0, 0, some false⟩]
    let e := clearEntry defaultSettings { entry with detectors := ds, score := 110, suspect := true }
    e.score = 80 ∧ e.suspect = true ∧ clearedCount ds = 1 ∧ activeSet e.detectors = 0x24 := by decide +kernel

/-- Records 3 and 4 of 4.7: digits 4 taken as 5, billed 123,456 as 99,999, segment 7 as 5. -/
theorem test_clamps_of_4_7 :
    (planBaseline 6 (bytesOf 4 65525 ++ bytesOf 2 1 ++ bytesOf 4 123456 ++ bytesOf 2 0 ++ [4, 0] ++ bytesOf 3 200)).2.2.1 = 99999 ∧
    (planBaseline 6 (bytesOf 4 65528 ++ bytesOf 2 7 ++ bytesOf 4 310000 ++ bytesOf 2 0 ++ [6, 0] ++ bytesOf 3 200)).1 = 5 := by
  decide +kernel

/-- Reset: FRESH and PLAN_INVALID alone (R192). -/
theorem test_reset_conditions : State.reset.conditionsField = 0x0101 := by decide +kernel

/-- The core is this machine. -/
theorem test_core : core.reset = State.reset := rfl

/-! ## One step for each command -/

theorem test_start : (after (exec (.start 3) { up with engine.runState := some .running })).slot = 4 ∧
    (after (exec (.start 3) up)).startup.step = .config := by decide +kernel
theorem test_powerLoss : (after (exec .powerLoss up)).startup.powered = false ∧ (after (exec .powerLoss up)).rack.rx = .searching := by
  decide +kernel
/-- The CRC of 96 bytes in the erased state. -/
theorem crc_blank_image : crc16 (List.replicate 96 0xFF) = 0x003A := by
  let c : List Byte := List.replicate 16 0xFF
  have h0 : c.foldl crcByte 0xFFFF = 0x6A4B := by decide +kernel
  have h1 : c.foldl crcByte 0x6A4B = 0x75F8 := by decide +kernel
  have h2 : c.foldl crcByte 0x75F8 = 0x4B41 := by decide +kernel
  have h3 : c.foldl crcByte 0x4B41 = 0xF154 := by decide +kernel
  have h4 : c.foldl crcByte 0xF154 = 0xB613 := by decide +kernel
  have h5 : c.foldl crcByte 0xB613 = 0x003A := by decide +kernel
  have h : List.replicate 96 (0xFF : Byte) = c ++ (c ++ (c ++ (c ++ (c ++ c)))) := by decide +kernel
  rw [crc16, h, List.foldl_append, List.foldl_append, List.foldl_append, List.foldl_append, List.foldl_append, h0, h1, h2, h3, h4, h5]

theorem configRead_next {s : State} (hp : s.startup.powered = true) (hs : s.startup.step = .config) :
    exec .configRead s = .next (settle (configAnswered s)) := by simp [exec, execConfigRead, act, onlyIf, hp, hs]

/-- A blank memory fails the CRC (R189, 11.5). -/
theorem test_configRead_blank : (after (exec .configRead State.reset)).startup.conds.configDefaulted = true ∧
    (after (exec .configRead State.reset)).settings = defaultSettings := by
  have h : configAnswered State.reset = takeImage defaultImage true State.reset := by
    have hc : State.reset.configBytes = List.replicate 98 0xFF := by decide +kernel
    have hb : acceptedImage (List.replicate 98 (0xFF : Byte)) = none := by
      have ht : (List.drop 0 (List.replicate 98 (0xFF : Byte))).take imageBytes = List.replicate 96 0xFF := by decide +kernel
      have hg : crcGood (List.replicate 98 (0xFF : Byte)) 0 imageBytes = false := by
        rw [crcGood, ht, crcBytes, crc_blank_image]; decide +kernel
      simp only [acceptedImage, hg]; rfl
    rw [configAnswered, hc, hb]
  rw [configRead_next rfl rfl, h]; decide +kernel

/-- A saved image with N = 2 is taken (R189). -/
theorem test_configRead_saved :
    let image := defaultImage.set 0 2
    let s := { State.reset with startup.cfg := Memory.writeBytes [] 0 (image ++ [0xB0, 0x92]) }
    (after (exec .configRead s)).settings.collectors = 2 ∧ (after (exec .configRead s)).startup.conds.configDefaulted = false := by
  intro image s
  have hcrc : crc16 image = 0xB092 := by
    have h0 : (image.take 16).foldl crcByte 0xFFFF = 0xC86C := by decide +kernel
    have h1 : ((image.drop 16).take 16).foldl crcByte 0xC86C = 0x6246 := by decide +kernel
    have h2 : ((image.drop 32).take 16).foldl crcByte 0x6246 = 0xE199 := by decide +kernel
    have h3 : ((image.drop 48).take 16).foldl crcByte 0xE199 = 0xF909 := by decide +kernel
    have h4 : ((image.drop 64).take 16).foldl crcByte 0xF909 = 0xD11E := by decide +kernel
    have h5 : (image.drop 80).foldl crcByte 0xD11E = 0xB092 := by decide +kernel
    have h : image = image.take 16 ++ ((image.drop 16).take 16 ++ ((image.drop 32).take 16 ++ ((image.drop 48).take 16 ++
      ((image.drop 64).take 16 ++ image.drop 80)))) := by decide +kernel
    rw [crc16, h, List.foldl_append, List.foldl_append, List.foldl_append, List.foldl_append, List.foldl_append, h0, h1, h2, h3, h4, h5]
  have hc : s.configBytes = image ++ [0xB0, 0x92] := by decide +kernel
  have hb : acceptedImage (image ++ [0xB0, 0x92]) = some image := by
    have ht : (List.drop 0 (image ++ [0xB0, 0x92])).take imageBytes = image := by decide +kernel
    have hg : crcGood (image ++ [0xB0, 0x92]) 0 imageBytes = true := by
      rw [crcGood, ht, crcBytes, hcrc]; decide +kernel
    have ht' : (image ++ [0xB0, 0x92]).take imageBytes = image := ht
    simp only [acceptedImage, hg, ht', if_true]
  have h : configAnswered s = takeImage image false s := by rw [configAnswered, hc, hb]
  rw [configRead_next rfl rfl, h]; decide +kernel

/-- The timeout comes 2 ms after the read command of step 2, never before (R189). -/
theorem test_configAnswerTimeout :
    (after (exec .configAnswerTimeout (at_ State.reset 2))).startup.conds.configDefaulted = true ∧
    (after (exec .configAnswerTimeout (at_ State.reset 2))).presence.owners = [1, 2, 3, 4] ∧
    (after (exec .configAnswerTimeout (at_ State.reset 1))).startup.step = .config := by decide +kernel
/-- A blank flash: 384 ERASED sectors, sector 128 to be opened with sequence 1 and bound 1, no interrupted run (R170 to R172). -/
theorem test_startUpScan :
    let t := after (exec .startUpScan { State.reset with startup.step := .scan })
    t.store.rows.length = 384 ∧ t.store.opening = some ⟨128, 1, 0, 1⟩ ∧ t.store.head = some (128, 1) ∧ t.engine.interrupted = none ∧
      t.startup.step = .planCheck := by decide +kernel
/-- Slot 0 of eight sectors: 128 and 129 OPENED, 130 UPLOADED, 131 ERASE-BEGUN, 132 RETIRED, 133 a header that cannot be read, 134 a
blank header above a body that is not, 135 a header without marks. -/
def scanFlash : Memory :=
  let header := fun (n seq : Nat) (marks : Byte) (m : Memory) =>
    (m.program (slotAddress n 0) (openingBytes ⟨n, seq, n - 120, 3⟩)).write (slotAddress n 0 + 11) marks
  let m := header 128 6 0x7F (header 129 5 0x7F (header 130 1 0x1F (header 131 3 0x0F (header 132 4 0x77 (header 135 2 0xFF [])))))
  (m.program (slotAddress 133 0) [0x12]).program (slotAddress 134 3) [0x34]

/-- The classes of those sectors and of a blank one, and which headers are intact (R170). -/
theorem test_scanSector : ((List.range 9).map fun i => (scanSector scanFlash (128 + i)).cls) =
      [.opened, .opened, .uploaded, .listed, .retired, .listed, .listed, .listed, .erased] ∧
    ((List.range 8).map fun i => (scanSector scanFlash (128 + i)).header.intact) =
      [true, true, true, true, true, false, false, false] := by decide +kernel
/-- Of the rows of those sectors: the head sector OPENED, the erase count of a header not intact, the upload mark, the erase list (R170
to R172). -/
theorem test_scan_rows :
    let l := (List.range 8).map fun i => scanSector scanFlash (128 + i)
    (scannedHead l).map (·.sector) = some 128 ∧ scannedSectorSeq l = 7 ∧ scannedEraseCount l = 12 ∧ scannedCounter [] l = 3 ∧
    (scannedEraseList l).map (·.sector) = [133, 134, 135, 131] ∧ scannedMarks (some 128) l = [.full 129] ∧
    l.map (scannedState (some 128)) = [.opened, .full, .uploaded, .erasing, .retired, .eraseListed, .eraseListed, .eraseListed] := by
  decide +kernel
/-- The head slot: 1 in an empty sector, or on the next page where a slot of the last page used fails its CRC (R171). -/
theorem test_scannedSlot : scannedSlot [] 128 = 1 ∧ scannedSlot (Memory.writeBytes [] (slotAddress 128 2) [0x12]) 128 = 8 := by
  decide +kernel
/-- A run whose RUN MARK(close) is not accepted after its RUN MARK(open) was interrupted (R172). -/
theorem test_scannedRun :
    let mark := fun (n : Nat) (c : BitVec 16) => recordOf ⟨1, n⟩ (recordBytes n { record with kind := .runMark, counter := c, run := 5 })
    scannedRun [mark 1 1, mark 2 2, mark 3 1] = some ⟨5, ⟨1, 3⟩, 3⟩ ∧ scannedRun [mark 1 1, mark 2 2] = none := by decide +kernel
theorem test_intakeCharacter :
    (after (exec (.intakeCharacter 16 true true) { up with radio.line := .idle })).radio.line = .assembling [16] ∧
    (after (exec (.intakeCharacter 16 false true) { up with radio.line := .idle })).radio.lineErrors = 1 := by decide +kernel
/-- A good frame in RUNNING is queued, and the IDLE engine takes it (R8, R10, R11). -/
theorem test_gapExpiry :
    let covered := bytesOf 4 40000 ++ bytesOf 2 9 ++ bytesOf 4 483010 ++ [0x61, 0]
    let s := { running with
      radio.line := .assembling ([16] ++ covered ++ crcBytes covered ++ [0x60, 3])
      radio.gapRunning := true }
    (after (exec .gapExpiry s)).engine.op = .packet (.intake (packet 9 483010)) none ∧
    (after (exec .gapExpiry { s with engine.runState := some .ready })).radio.outOfRun = 1 := by decide +kernel
theorem test_gapExpiry_bad_crc :
    let s := { running with
      radio.line := .assembling (List.replicate 17 1)
      radio.gapRunning := true }
    (after (exec .gapExpiry s)).radio.intakeCrc = 1 := by decide +kernel
theorem test_searchingComplete : (after (exec .searchingComplete { up with rack.rx := .searching })).rack.rx = .idle := by decide +kernel
/-- Seven dominant bits are a stuff violation (R19, R21). -/
theorem test_receiveError : (after (exec (.receiveError (List.replicate 7 false)) up)).rack.rxFormat = 1 ∧
    (after (exec (.receiveError (List.replicate 7 false)) up)).rack.rx = .searching := by decide +kernel
theorem test_rackFrameOther : (after (exec (.rackFrameOther ⟨12, 10, 15, []⟩) up)).startup.conds.fresh = false ∧
    (after (exec (.rackFrameOther ⟨1, 9, 15, [1, 0]⟩) up)).rack.rxFormat = 1 := by decide +kernel
theorem test_duplicateFrame : (after (exec .duplicateFrame up)).startup.conds.duplicateSlot = true ∧
    (after (exec .duplicateFrame (at_ up 77))).rack.lastDuplicate = some 77 := by decide +kernel
theorem test_frameSent :
    let s := { up with presence.item := some 5 }
    (after (exec .frameSent (sending s ⟨5, ⟨2, 1, 15, []⟩⟩))).presence.item = none := by decide +kernel
/-- The reply's frame is sent, and a query has waited: a new reply is pending, and its frame goes out (R152). -/
theorem test_frameSent_query :
    let t := after (exec .frameSent { revisitSent with tracker.query := some 7, nextTag := 8 })
    t.tracker.reply = some ⟨8, 7⟩ ∧ t.tracker.query = none ∧
      t.rack.sending = some ⟨8, ⟨9, 1, 10, [0, 0, 0, 7]⟩⟩ := by decide +kernel
theorem test_arbitrationLoss :
    let s := { up with presence.item := some 5 }
    (after (exec .arbitrationLoss (sending s ⟨5, ⟨2, 1, 15, []⟩⟩))).presence.item = some 5 ∧
    (after (exec .arbitrationLoss (sending s ⟨5, ⟨2, 1, 15, []⟩⟩))).rack.sending = none := by decide +kernel
/-- The eighth transmit error on one item drops it (R30). -/
theorem test_transmitError :
    let s := { up with presence.item := some 5, rack.retry := some ⟨2, 5, 7⟩ }
    (after (exec (.transmitError false) (sending s ⟨5, ⟨2, 1, 15, []⟩⟩))).rack.txDrops = 1 ∧
    (after (exec (.transmitError false) (sending s ⟨5, ⟨2, 1, 15, []⟩⟩))).startup.conds.txFault = true := by decide +kernel
/-- After a start bit read as recessive the receiver is IDLE, and counts the fault of the next frame (R20, R29). -/
theorem test_transmitError_atStart :
    let own := sending up ⟨5, ⟨2, 1, 15, []⟩⟩
    let next := fun s => after (exec (.receiveError (List.replicate 7 false)) s)
    (next (after (exec (.transmitError true) own))).rack.rxFormat = 1 ∧
    (next (after (exec (.transmitError false) own))).rack.rxFormat = 0 := by decide +kernel
theorem test_runOpen : (after (exec (.runOpen 6 19531) ready)).engine.openingRun = some 6 ∧
    (after (exec (.runOpen 6 19531) ready)).engine.op = .runReset ∧ (after (exec (.runOpen 0 19531) ready)).engine.runReject = 1 := by
  decide +kernel
theorem test_runOpen_resume :
    let s := { ready with engine.interrupted := some ⟨6, ⟨1, 1⟩, 3⟩ }
    (after (exec (.runOpen 6 19531) s)).engine.runState = some .rebuilding ∧
    (after (exec (.runOpen 6 19531) s)).engine.op = .resumeReset ⟨6, ⟨1, 1⟩, 3⟩ := by decide +kernel
theorem test_runClose : (after (exec (.runClose 5 0) running)).engine.runState = some .closing ∧
    (after (exec (.runClose 5 0) running)).engine.requests = [.closure 0, .closure 1] ∧
    (after (exec (.runClose 6 0) running)).engine.runReject = 1 := by decide +kernel
/-- A packet of an ADOPTED share taken before the close is evaluated as usual, against the entry that the close release then removes
(R80, R142, R143). -/
theorem test_runClose_packet :
    let e := { entry with origin := .adopted 2, meterId := 30114772 }
    let s := heard { withEntry e with presence.shares := [.own, .adopted, .notMine, .notMine] } { packet 1201 483790 with meterId := 30114772 }
    let t := after (exec .packetOperation (after (exec (.runClose 5 0) s)))
    t.store.pageBuf.map (fun b => (b.body.kind, b.body.origin)) = [(.firstRead, .adopted 2)] ∧
      t.engine.table.map (·.status) = [.read] ∧ t.engine.op = .closeRelease := by decide +kernel
/-- With lookback 1, position 1 closes segment 0 (R146). -/
theorem test_position :
    let t := after (exec (.position 1 1) { running with startup.settings.lookback := 1 })
    t.tracker.rows.map (·.state) = [.closed, .opened] ∧ t.tracker.segment = 1 ∧ t.tracker.stale = false ∧
      t.engine.op = .closure 0 := by decide +kernel
theorem test_positionWatchdogExpiry :
    (after (exec .positionWatchdogExpiry (at_ running 2000))).startup.conds.positionStale = true ∧
    (after (exec .positionWatchdogExpiry (at_ running 1999))).startup.conds.positionStale = false := by decide +kernel
/-- A PRESENCE in agreement makes its slot participate (R40 to R42). -/
theorem test_presence :
    let p : PresencePayload := ⟨5, 5, 7, 0, 0, 0, 0, 2⟩
    (after (exec (.presence 2 p) (at_ running 3000))).participates 2 = true ∧
    (after (exec (.presence 2 { p with run := 6 }) (at_ running 3000))).participates 2 = false := by decide +kernel
theorem test_presenceTimerExpiry :
    let s := { running with presence.timer := some 500 }
    (after (exec .presenceTimerExpiry (at_ s 500))).presence.timer = some 1000 ∧
    (after (exec .presenceTimerExpiry (at_ s 500))).presence.item = some 0 := by decide +kernel
/-- A slot of an owner that falls silent leaves its share to the next slot (R42, R43, R45). -/
theorem test_absenceExpiry : (after (exec (.absenceExpiry 4) (at_ running 2000))).ownerOf 4 = 1 ∧
    (after (exec (.absenceExpiry 4) (at_ running 2000))).shareState 4 = .queued := by decide +kernel
theorem test_presumptionExpiry :
    let t := after (exec (.presumptionExpiry 4) (at_ running 2000))
    (t.presence.entry 4).map (·.presumed) = some none ∧ t.ownerOf 4 = 1 := by decide +kernel
/-- Case 2 of 5.7 as a first packet: READ, a FIRST READ appended, RATE_HIGH PENDING, a HELD requested (R83, R93, R103). -/
theorem test_packetOperation :
    let t := after (exec .packetOperation (heard (withEntry entry) (packet 1201 483790)))
    t.engine.table.map (fun e => (e.status, e.firstRead)) = [(.read, some 1)] ∧ t.store.pageBuf.map (·.body.kind) = [.firstRead] ∧
      t.engine.table.map (fun e => (e.detectors.map (·.state))[2]?) = [some .pending] ∧ t.relay.heldPending.length = 1 := by decide +kernel
/-- A packet of another's share is relayed (R122). -/
theorem test_packetOperation_relay :
    let t := after (exec .packetOperation (heard running { packet 9 100 with meterId := 30114772 }))
    t.relay.list.map (fun e => (e.share, e.sends)) = [(2, 0)] := by decide +kernel
/-- A share that became QUEUED before the operation's reading: an ADOPTING record (R51, R80); after it: a new relay (R80, R122). -/
theorem test_packetOperation_adopting :
    let p := { packet 9 100 with meterId := 30114772 }
    let s := heard { running with presence.shares := [.own, .queued, .notMine, .notMine] } p
    let before := after (exec .packetOperation s)
    let later := after (exec .packetOperation (busy s (.packet (.intake p) (some ⟨false, .notMine⟩))))
    before.store.pageBuf.map (·.body.origin) = [.adopting] ∧ before.relay.heldPending.length = 1 ∧ before.relay.list = [] ∧
      later.store.pageBuf = [] ∧ later.relay.list.length = 1 := by decide +kernel
theorem test_pageBufferTimeout :
    let s := { ready with store.pageBuf := [⟨1, record, 0⟩] }
    (after (exec .pageBufferTimeout (at_ s 500))).store.serving = some .logPage ∧
    (after (exec .pageBufferTimeout (at_ s 499))).store.serving = none := by decide +kernel
/-- A READ entry of a released share becomes HANDING, an UNREAD one is removed (R53). -/
theorem test_release :
    let e := { entry with origin := .adopted 2, meterId := 30114772 }
    let s := { running with engine.table := [{ e with status := .read }, { e with planIndex := 1, meterId := 2 }] }
    let t := after (exec .release (busy s (.release 2)))
    t.engine.table.map (fun e => (e.planIndex, e.status)) = [(0, .handing)] ∧ t.engine.handing.map (·.share) = [2] := by decide +kernel
/-- With no closure left the close release finishes the close: RUN MARK(close), then its flush (R143). -/
theorem test_closeRelease :
    let s := { withEntry { entry with origin := .adopted 2 } with engine.runState := some .closing }
    let t := after (exec .closeRelease (busy s .closeRelease))
    t.engine.table = [] ∧ t.store.pageBuf.map (fun b => (b.body.kind, b.body.counter)) = [(.runMark, 2)] ∧ t.store.flushing = true := by
  decide +kernel
theorem test_closureMarking :
    let t := after (exec .closureMarking (busy (withEntry entry) (.closure 0)))
    t.engine.table.map (·.status) = [.missed] ∧ t.tracker.revisit.map (·.meterId) = [40000] ∧
      t.tracker.tallies.map (·.segment) = [0] := by decide +kernel
/-- A new run: RUN MARK(open) with the run day, RUNNING, peers presumed (R139). -/
theorem test_runReset :
    let s := { ready with engine.openingRun := some 6, engine.runDay := 19531, engine.table := [{ entry with status := .late }] }
    let t := after (exec .runReset (busy s .runReset))
    t.engine.runState = some .running ∧ t.engine.currentRun = some 6 ∧ t.engine.table.map (·.status) = [.unread] ∧
      t.store.pageBuf.map (fun b => (b.body.kind, b.body.reading)) = [(.runMark, 19531)] := by decide +kernel
/-- A FIRST READ of the current run sets status, last-heard and reference (R141). -/
theorem test_rebuildRead :
    let body := { record with run := 5 }
    let s := { withEntry entry with
      engine.runState := some .rebuilding
      store.flash := Memory.writeBytes [] (slotAddress 128 2) (recordBytes 9 body)
      store.head := some (128, 3) }
    let t := after (exec .rebuildRead (serving (busy s (.rebuild ⟨1, 1⟩ 0)) (.rebuildRead true)))
    t.engine.table.map (fun e => (e.status, e.firstRead)) = [(.read, some 9)] ∧ t.engine.runState = some .running := by decide +kernel
/-- One service of the rebuild reads one slot (R166): slot 1 holds no record, and slot 2 is the next service's. -/
theorem test_rebuildRead_one_slot :
    let s := { withEntry entry with
      engine.runState := some .rebuilding
      store.head := some (128, 3) }
    let t := after (exec .rebuildRead (serving (busy s (.rebuild ⟨1, 0⟩ 7)) (.rebuildRead true)))
    t.engine.op = .rebuild ⟨1, 1⟩ 7 ∧ t.store.serving = some (.rebuildRead true) := by decide +kernel
theorem test_findingsClear :
    let ds := Detector.fresh :: ⟨.active, 0, 0, some false⟩ :: List.replicate 5 Detector.fresh
    let s := { ready with engine.table := [{ entry with detectors := ds, score := 30, suspect := true }] }
    let t := after (exec .findingsClear (busy s .findingsClear))
    t.engine.table.map (fun e => (e.score, e.suspect)) = [(0, false)] ∧
      t.dock.replies.map (·.body) = [.fixed [5, 1, 0, 1, 0, 1, 0, 0]] := by decide +kernel
theorem test_routeTableEmptying :
    let s := { withEntry entry with engine.runState := some .loadingErase, engine.plan := none }
    let t := after (exec .routeTableEmptying (busy s .emptying))
    t.engine.table = [] ∧ t.store.erase = some ⟨0, 0⟩ := by decide +kernel
theorem test_keptRecordRelease :
    let s := { ready with engine.table := [{ entry with kept := some record }] }
    (after (exec .keptRecordRelease (busy s (.keptRelease 40000 77)))).engine.table.map (fun e => (e.firstRead, e.kept)) =
      [(some 77, none)] := by decide +kernel
/-- A build reads a record of the own share, and ends with the plan's last (R66). -/
theorem test_planRead :
    let bytes := bytesOf 4 40000 ++ bytesOf 2 1 ++ bytesOf 4 482310 ++ bytesOf 2 19500 ++ [6, 0] ++ bytesOf 3 200
    let s := { up with
      startup.step := .build
      engine.plan := some ⟨7, 1, 2⟩
      store.flash := Memory.writeBytes [] 0 (bytes ++ crcBytes bytes) }
    let t := after (exec .planRead (serving (busy s (.ownBuild 0)) (.planRead true)))
    t.engine.table = [{ entry with segment := 1 }] ∧ t.engine.runState = some .ready ∧ t.isUp = true ∧
      t.tracker.rows.map (·.expected) = [0, 1] := by decide +kernel
/-- The plan check meets a bad record: BLANK (R61). -/
theorem test_planRead_bad_record :
    let t := after (exec .planRead (serving (busy { up with startup.step := .planCheck } (.planCheckRecord 0 plan)) (.planRead true)))
    t.engine.runState = some .blank ∧ t.engine.plan = none ∧ t.isUp = true := by decide +kernel
theorem test_held :
    let s := { running with relay.list := [relayEntry 1 .waiting] }
    let t := after (exec (.held 2 30114772 9) s)
    t.relay.list = [] ∧ t.relay.confirmed = 1 ∧ t.relay.heldMemory = [⟨30114772, 9⟩] := by decide +kernel
/-- A relay entry removed by a HELD while its frame is on the bus: the frame still completes, and its FRAME_SENT clears the retry item,
tells nobody, and finishes no other item (R31). -/
theorem test_held_beside_frame :
    let t := after (exec (.held 2 30114772 9) relaySent)
    let u := after (exec .frameSent t)
    (t.relay.list = [] ∧ t.rack.sending = relaySent.rack.sending ∧ t.rack.retry = some ⟨2, 5, 3⟩) ∧
    u.rack.retry = none ∧ u.presence.item = some 5 ∧ u.rack.sending.map (·.tag) = some 5 := by decide +kernel
/-- A RELAY in RUNNING is queued and taken by the IDLE engine (R128, R129). -/
theorem test_relay :
    let p : RelayPayload := ⟨40000, 9, 100, 0x61, 0, 0, 0, 1⟩
    (after (exec (.relay 2 p) running)).engine.op = .packet (.relayed (.relay 2 p)) none ∧
    (after (exec (.relay 2 p) ready)).engine.relayOutOfRun = 1 := by decide +kernel
theorem test_handover :
    let p : HandoverPayload := ⟨40000, 9, 100, 6, 0, 0⟩
    let s := { busy running .runReset with engine.relayQueue := List.replicate 8 (.handover p) }
    (after (exec (.handover 2 p) s)).engine.relayOverrun = 1 ∧
    (after (exec (.handover 2 p) s)).startup.conds.intakeOverrun = true := by decide +kernel
/-- DUE after the second send, self-stored after the third (R125, R127). -/
theorem test_relayWaitExpiry :
    let s := at_ { running with relay.list := [relayEntry 2 .waiting] } 250
    let u := at_ { running with relay.list := [relayEntry 3 .waiting] } 250
    (after (exec (.relayWaitExpiry 30114772 9) s)).relay.list.map (·.phase) = [.due] ∧
    (after (exec (.relayWaitExpiry 30114772 9) u)).store.pageBuf.map (·.body.origin) = [.unconfirmed (some 2)] := by decide +kernel
/-- While the reply's frame is on the bus a query leaves frame and reply as they are, and waits (R152). -/
theorem test_listRevisit_beside_frame :
    let t := after (exec (.listRevisit 7) revisitSent)
    t.rack.sending = revisitSent.rack.sending ∧ t.tracker.reply = some ⟨7, 0⟩ ∧ t.tracker.query = some 7 ∧
      t.startup.conds.fresh = false := by decide +kernel
theorem test_listRevisit : (after (exec (.listRevisit 7) running)).tracker.reply.map (·.startIndex) = some 7 := by decide +kernel
theorem test_queryClearConditions :
    let s := { running with startup.conds := { running.startup.conds with storeFault := true, positionStale := true } }
    (after (exec .queryClearConditions s)).startup.conds.storeFault = false ∧
    (after (exec .queryClearConditions s)).startup.conds.positionStale = true := by decide +kernel
theorem test_uploadOpen : (after (exec (.uploadOpen 1) ready)).store.serving = some (.uploadRead true) ∧
    (after (exec (.uploadOpen 1) running)).dock.replies.map (·.body) = [.fixed [1, 3]] := by decide +kernel
/-- An empty log: the head is reached, and UPLOAD END follows (R179, R180). -/
theorem test_uploadRead :
    let s := { ready with dock.session := { Session.afterStart with state := .starting, start := 1, ask := some .tail } }
    let t := after (exec .uploadRead (serving s (.uploadRead true)))
    t.dock.session.state = .done ∧ t.dock.replies.map (·.body) = [.uploadEnd 1, .uploadEnd 2, .uploadEnd 3] := by decide +kernel
/-- A mark at the highest number streamed raises the upload mark; one above it does not (R178). -/
theorem test_uploadMark :
    let s := { ready with dock.session := { Session.afterStart with state := .streaming, highest := 40 } }
    (after (exec (.uploadMark 40) s)).store.uploadMark = 40 ∧ (after (exec (.uploadMark 41) s)).store.uploadMark = 0 := by decide +kernel
theorem test_uploadPauseTimeout :
    let s := { ready with dock.session := { Session.afterStart with state := .paused, pauseSince := some 0 } }
    (after (exec .uploadPauseTimeout (at_ s 3000))).dock.session.state = .stalled ∧
    (after (exec .uploadPauseTimeout (at_ s 2999))).dock.session.state = .paused := by decide +kernel
theorem test_uploadClose :
    let s := { ready with dock.session := { Session.afterStart with state := .streaming } }
    (after (exec .uploadClose s)).dock.session.state = .none ∧ (after (exec .uploadClose s)).dock.replies.map (·.body) = [.fixed [3, 1]] := by
  decide +kernel
/-- The session ends while its UPLOAD DATA is on the bus: the frame completes, and its FRAME_SENT clears the retry item and counts no record
(R31, R181); so at a RUN OPEN. -/
theorem test_uploadClose_beside_frame :
    [Instr.uploadClose, .runOpen 6 19531].all fun c =>
      let t := after (exec c uploadSent)
      let u := after (exec .frameSent t)
      t.dock.session.data == none && t.rack.sending == uploadSent.rack.sending && t.rack.retry == some ⟨2, 5, 3⟩ &&
        u.rack.retry == none && u.dock.session.streamed == 0 && u.rack.sending.map (·.tag) == some 5 := by decide +kernel
/-- Two UPLOADED sectors join the erase list, the older first (R182). -/
theorem test_eraseUploaded :
    let s := { ready with store.rows := [⟨128, .uploaded, some 4, 0, 0, none, none⟩, ⟨129, .uploaded, some 3, 0, 0, none, none⟩] }
    let t := after (exec .eraseUploaded s)
    t.store.eraseList.map (·.sector) = [129, 128] ∧ t.dock.replies.map (·.body) = [.fixed [4, 1, 0, 2]] := by decide +kernel
theorem test_clearFindings :
    (after (exec .clearFindings { ready with store.lastGiven := 9 })).dock.replies.map (·.body) = [.fixed [5, 4]] ∧
    (after (exec .clearFindings { ready with store.lastGiven := 9, store.uploadMark := 9 })).engine.op = .findingsClear := by decide +kernel
/-- Counts beyond their ranges are brought into them (R184). -/
theorem test_planBegin :
    let t := after (exec (.planBegin 9 65535 0) ready)
    t.dock.load.count = 16384 ∧ t.dock.load.segments = 1 ∧ t.engine.runState = some .loadingErase ∧ t.engine.op = .emptying := by
  decide +kernel
theorem test_planData :
    let s := { up with
      engine.runState := some .loadingData
      dock.load := { PlanLoad.afterStart with phase := .receiving, count := 2, segments := 1 } }
    let t := after (exec (.planData 1 (List.replicate 32 5)) s)
    t.store.serving = some (.planRecord 1 (List.replicate 19 5)) ∧ t.dock.load.received = [1] ∧
    (after (exec (.planData 2 (List.replicate 32 5)) s)).dock.load.ignored = 1 := by decide +kernel
/-- PLAN END with an index missing ends in BLANK with result 1 (R186). -/
theorem test_planEnd :
    let s := { up with
      engine.runState := some .loadingData
      dock.load := { PlanLoad.afterStart with phase := .receiving, count := 1, segments := 1 } }
    let t := after (exec .planEnd s)
    t.engine.runState = some .blank ∧
      t.dock.replies.map (·.body) = [.fixed [8, 0], .fixed ([8, 1, 1, 0, 0, 0, 1] ++ List.replicate 10 0)] := by decide +kernel
/-- Bytes from offset 95 on: one placed, the rest discarded (R190). -/
theorem test_settingWrite :
    let t := after (exec (.settingWrite 95 [7, 8, 9]) ready)
    t.startup.image.getLast? = some 7 ∧ t.dock.replies.map (·.body) = [.fixed [9, 1, 1]] := by decide +kernel
theorem test_settingSave :
    let t := after (exec .settingSave ready)
    t.startup.save.map (·.serves) = some 1 ∧ (after (exec .settingSave t)).startup.waitingSaves = 1 := by decide +kernel
theorem test_saveCompletion :
    let s := { ready with startup.save := some ⟨[1, 2, 3], 1⟩, startup.conds.configDefaulted := true }
    let t := after (exec (.saveCompletion true) s)
    t.startup.cfg = [(0, 1), (1, 2), (2, 3)] ∧ t.startup.conds.configDefaulted = false ∧
      t.dock.replies.map (·.body) = [.fixed [10, 1, 0]] := by decide +kernel
theorem test_dockClearConditions :
    let s := { ready with startup.conds := { ready.startup.conds with txFault := true, fresh := false } }
    (after (exec .dockClearConditions s)).dock.replies.map (·.body) = [.fixed [11, 1, 0, 0]] := by decide +kernel
/-- A verified page: the record in flash, the head past it, its numbers in the row (R162). -/
theorem test_pageProgram :
    let s := { ready with store.pageBuf := [⟨9, record, 0⟩], store.programming := true }
    let t := after (exec (.pageProgram true) (serving s .logPage))
    t.store.slotBytes 128 1 = recordBytes 9 record ∧ t.store.head = some (128, 2) ∧
      t.store.rows.map (fun r => (r.first, r.last)) = [(some 9, some 9)] := by decide +kernel
/-- A page that fails is abandoned, and the head goes to the next page (R164). -/
theorem test_pageProgram_fails :
    let s := { ready with store.pageBuf := [⟨9, record, 0⟩], store.programming := true }
    let t := after (exec (.pageProgram false) (serving s .logPage))
    t.store.head = some (128, 8) ∧ t.store.faults = 1 ∧ t.store.pageBuf.map (·.number) = [9] ∧
      t.startup.conds.storeFault = true := by decide +kernel
theorem test_sectorOpening :
    let s := { ready with
      store.rows := [⟨128, .erased, none, 3, 0, none, none⟩]
      store.opening := some ⟨128, 2, 3, 7⟩ }
    let t := after (exec (.sectorOpening true) (serving s .opening))
    t.store.rows.map (fun r => (r.state, r.seq)) = [(.opened, some 2)] ∧ (headerOf (t.store.slotBytes 128 0)).eraseCount = 3 ∧
      t.store.sectorSeq = 3 := by decide +kernel
theorem test_headerMarkProgram :
    let s := { ready with store.rows := [⟨128, .full, some 1, 0, 0, none, none⟩] }
    let t := after (exec (.headerMarkProgram true) (serving s (.mark (.uploaded 128))))
    t.store.rows.map (·.state) = [.uploaded] ∧ t.store.flash.read (slotAddress 128 0 + 11) = 0xDF := by decide +kernel
/-- An erase after 40 ms: ERASED, its count up, out of the list (R168). -/
theorem test_sectorErase :
    let s := { ready with
      store.rows := [⟨128, .opened, some 2, 0, 0, none, none⟩, ⟨129, .erasing, some 1, 5, 0, none, none⟩]
      store.eraseList := [⟨129, false, .ready⟩]
      store.flash := [(slotAddress 129 0, 0)]
      store.erase := some ⟨129, 40⟩ }
    let t := after (exec .sectorErase s)
    t.store.flash = [] ∧ t.store.eraseList = [] ∧ t.store.rows.map (fun r => (r.state, r.eraseCount)) = [(.opened, 0), (.erased, 6)] := by
  decide +kernel
/-- The last plan sector: LOADING-DATA and PLAN STATUS (ready) (R184). -/
theorem test_planSectorErase :
    let s := { up with
      engine.runState := some .loadingErase
      dock.load := { PlanLoad.afterStart with phase := .erasing, count := 2, segments := 1 }
      store.erase := some ⟨127, 40⟩ }
    let t := after (exec .planSectorErase s)
    t.engine.runState = some .loadingData ∧ t.dock.replies.map (·.body) = [.fixed [6, 1, 0, 2, 0, 1]] := by decide +kernel
theorem test_planRecordProgram :
    let s := { up with
      engine.runState := some .loadingData
      dock.load := { PlanLoad.afterStart with phase := .receiving, count := 2, segments := 1 } }
    (after (exec (.planRecordProgram true) (serving s (.planRecord 1 [1, 2])))).store.flash = [(32, 1), (33, 2)] ∧
    (after (exec (.planRecordProgram false) (serving s (.planRecord 1 [1, 2])))).dock.load.bad = [1] := by decide +kernel
theorem test_planHeaderProgram :
    let s := { up with
      engine.runState := some .loadingData
      dock.load := { PlanLoad.afterStart with phase := .ending, ident := 9, count := 2, segments := 1 } }
    let t := after (exec (.planHeaderProgram true) (serving s .planHeader))
    t.engine.plan = some ⟨9, 2, 1⟩ ∧ t.engine.op = .ownBuild 0 ∧ planHeaderOf (t.store.planBytes 0) = some ⟨9, 2, 1⟩ := by decide +kernel
theorem test_lineReturnHigh :
    let s := { up with radio.awaitHigh := true, radio.gapRunning := false }
    (after (exec .lineReturnHigh s)).radio.gapRunning = true := by decide +kernel

/-! ## Steps -/

theorem test_step_runs_front : (after (step { up with pending := [.searchingComplete, .powerLoss] })).pending = [.powerLoss] := by
  decide +kernel
theorem test_step_idle : (after (step { up with store.erase := some ⟨0, 7⟩ })).now = 1 ∧
    (after (step { up with store.erase := some ⟨0, 7⟩ })).store.erase = some ⟨0, 8⟩ := by decide +kernel

/-! ## A state and operands that meet each statement's hypotheses, clause by clause -/

theorem hears_up : Hears up 10 ∧ Hears up 9 ∧ Hears up 11 ∧ Hears up 2 := by unfold Hears; decide +kernel

theorem runLaw_ready : RunLaw ready where
  plan _ _ _ := rfl
  shares _ := by decide +kernel
  count := by decide +kernel

theorem witness_CrcRule : ([0x31, 0x32, 0x33, 0x34, 0x35, 0x36, 0x37, 0x38, 0x39, 0x29, 0xB1] : List Byte).length = 9 + 2 := rfl

theorem witness_PacketKinds :
    (packetKind (some ⟨65534, 0, 0⟩) 3 = .advance ∧ packetKind (some { (⟨65534, 0, 0⟩ : LastHeard) with counter := 4 }) 3 = .regress) ∧
    (packetKind (some ⟨0, 0, 0⟩) 32767 = .advance ∧ packetKind (some ⟨0, 0, 0⟩) 32768 = .regress) ∧
    packetKind entry.lastHeard (packet 3 0).counter = .first := by decide +kernel

theorem witness_ReverseChecks :
    { defaultSettings with reverseWindow := 0 }.reverseWindow = 0 ∧
    ({ entry with digits := 9 }.digits ≤ 9 ∧ { defaultSettings with reverseWindow := 500 }.reverseWindow ≤ 500) ∧
    (entry.billed < 10 ^ entry.digits ∧ rangePassed entry (packet 1202 999999) = true ∧
      consumption defaultSettings entry (packet 1202 999999) = some 517689) ∧
    ({ entry with lastHeard := some ⟨1201, 483790, 0⟩ }.lastHeard = some ⟨1201, 483790, 0⟩ ∧
      packetKind (some ⟨1201, 483790, 0⟩) 1202 ≠ .repeated) := by decide +kernel

theorem witness_RateBand :
    (rangePassed entry (packet 1 1000000) = false ∧ consumption defaultSettings { entry with billed := 483010 } (packet 1 483009) = none) ∧
    (packetKind entry.lastHeard 1 ≠ .repeated ∧ rangePassed entry (packet 1 482310) = true ∧ 0 < entry.rate ∧
      consumption defaultSettings entry (packet 1 482310) = some 0) ∧
    (defaultSettings.band 2).low = 0 := by decide +kernel

theorem witness_RangeFlagsAndRepeats :
    (packetKind entry.lastHeard 1 ≠ .repeated ∧ rangePassed entry (packet 1 1000000) = false) ∧
    packetKind { entry with lastHeard := some ⟨7, 1, 0⟩ }.lastHeard 7 = .repeated := by decide +kernel

theorem witness_DetectorWithoutRaise :
    ((defaultSettings.detector 0).disposition = .latch ∧ (⟨.active, 8, 0, none⟩ : Detector).state = .active) ∧
    ((defaultSettings.detector 2).disposition = .release ∧ 1 < (defaultSettings.detector 2).releaseCount) ∧
    ((defaultSettings.detector 0).disposition ≠ .off ∧ (⟨.pending, 1, 0, none⟩ : Detector).state = .pending ∧
      (⟨.pending, 1, 0, none⟩ : Detector).clean = 0 ∧ (defaultSettings.detector 0).disposition ≠ .note ∧
      1 < (defaultSettings.detector 0).debounce) := by decide

theorem witness_DetectorRaises :
    (Detector.fresh.state ≠ .active ∧ (defaultSettings.detector 1).disposition = .latch) ∧
    (Detector.fresh.state ≠ .active ∧ (⟨.note, 8, 0, 1⟩ : DetectorSetting).disposition = .note) ∧
    ((⟨.latch, 8, 0, 1⟩ : DetectorSetting).debounce ≤ 8 ∧ (⟨.pending, 7, 0, none⟩ : Detector).consecutive < 8) ∧
    ((⟨.active, 1, 2, none⟩ : Detector).state = .active ∧ (defaultSettings.detector 2).disposition = .release) ∧
    (⟨.off, 1, 0, 1⟩ : DetectorSetting).disposition = .off := by decide

theorem witness_SharesAndOwners :
    1 = up.slot ∧ (8 ≠ up.slot ∧ up.participates 8 = true) ∧
    (8 ≠ (at_ up 2000).slot ∧ (at_ up 2000).participates 8 = false) := by decide +kernel

/-- Shares 2, 3 and 4 QUEUED, LOADING and ADOPTED; `owners` says whose they are. -/
def adopting (owners : List Nat) : State :=
  { running with
    presence.shares := [.own, .queued, .loading, .adopted]
    presence.owners := owners }

theorem witness_RecomputationTable :
    (running.shareState 2 = .notMine ∧ { running with presence.owners := [1, 1, 3, 4] }.ownerOf 2 = running.slot ∧
      running.isRunning = true) ∧
    ((adopting [1, 2, 3, 4]).shareState 4 = .adopted ∧ (adopting [1, 2, 3, 4]).ownerOf 4 ≠ 1) ∧
    ((adopting [1, 2, 3, 4]).shareState 2 = .queued ∧ (adopting [1, 2, 3, 4]).ownerOf 2 ≠ 1) ∧
    ((adopting [1, 2, 3, 4]).shareState 3 = .loading ∧ (adopting [1, 2, 3, 4]).ownerOf 3 ≠ 1) ∧
    (running.shareState 1 = .own ∧ running.ownerOf 2 ≠ 1 ∧ (adopting [1, 1, 1, 1]).ownerOf 4 = (adopting [1, 1, 1, 1]).slot) ∧
    (running.engine.op = .idle ∧ (heard running (packet 1 1)).engine.op = .packet (.intake (packet 1 1)) none) := by
  decide +kernel

/-- Share 2 goes back to NOT MINE 250 ms after three sends of one entry and one of another: one self-stored, one DUE (R50, R125). -/
theorem witness_RecomputationTable_held :
    let due := { relayEntry 1 .waiting with tag := 4, packet := { packet 10 101 with meterId := 30114772 } }
    let s := at_ { adopting [1, 2, 3, 4] with relay.list := [relayEntry 3 .waiting, due] } 250
    s.shareState 2 = .queued ∧ s.ownerOf 2 ≠ s.slot ∧ s.relay.unconfirmed ≤ 65535 ∧
      (compareShare s 2).relay.list = [{ due with phase := .due }] ∧ (compareShare s 2).relay.unconfirmed = 1 ∧
      (compareShare s 2).store.pageBuf.map (fun b => (b.body.kind, b.body.counter)) = [(.relayUnconfirmed, 9)] ∧
      (compareShare (at_ s 249) 2).relay.list = s.relay.list := by decide +kernel

/-- A PRESENCE item pending, with seven errors counted on it. -/
def errored : State := { up with presence.item := some 5, rack.retry := some ⟨2, 5, 7⟩ }

theorem witness_DuplicateAnswer :
    errored.isLive (⟨2, 1, 15, []⟩ : RackFrame).cls.toNat 5 = true ∧ errored.rack.retry = some ⟨(2 : BitVec 4).toNat, 5, 7⟩ := by
  decide +kernel

theorem witness_SettingsInRange : defaultImage.length = 96 := by decide

theorem witness_WireFrameJudgedValid :
    (⟨10, 11, 1, List.replicate 48 0⟩ : RackFrame).payload.length ≤ 48 ∧ (⟨10, 11, 1, []⟩ : RackFrame).payload.length ≤ 48 := by decide

theorem witness_StuffingBreaksRuns : 6 ≤ (List.replicate 6 true).length ∧ 6 ≤ (frameBits ⟨0, 0, 0, []⟩).length := by decide +kernel

theorem witness_FilterReadsFrames :
    ((1 : BitVec 4).toNat = 1 ∧ (15 : BitVec 4).toNat = 15 ∧ isCollector (1 : BitVec 4).toNat = true ∧ isCollector (8 : BitVec 4).toNat = true) ∧
    ((List.replicate 32 (0 : Byte)).length = 32 ∧ 1 ≤ (List.replicate 1 (0 : Byte)).length ∧ (List.replicate 16 (0 : Byte)).length ≤ 16) ∧
    ((2 : BitVec 4).toNat ≠ 1 ∧ (2 : BitVec 4).toNat ≠ 15) ∧ 11 ≤ (11 : BitVec 4).toNat ∧ isCollector (9 : BitVec 4).toNat = false ∧
    ([3, 0, 0, 0, 0] : List Byte).head? ≠ some 1 ∧ ([3, 0, 0, 0, 0] : List Byte).head? ≠ some 2 ∧
    ([1] : List Byte).head? = some 1 ∧ ([1] : List Byte).length ≠ 3 ∧ ([2, 0, 0] : List Byte).head? = some 2 ∧
    (([7, 0] : List Byte).length ≠ 1 ∧ ([7, 0] : List Byte).length ≠ 3) ∧
    (([7] : List Byte).length = 1 ∧ ([7, 0, 0] : List Byte).head? ≠ some 1) ∧
    ([] : List Byte).length = 0 ∧ (([1, 0] : List Byte).getD 0 0).toNat = 1 ∧ ([9, 0] : List Byte).length < 3 ∧
    dockCommandOf [12] = none ∧ 0 < ([12] : List Byte).length := by decide

theorem witness_FlashFormatsReadBack :
    4294967295 < 4294967296 ∧ ((⟨128, 4294967295, 16777214, 4294967294⟩ : Opening).seq < 4294967296 ∧ 16777214 < 16777216 ∧
      4294967294 < 4294967295) ∧
    ((List.replicate 19 (0 : Byte)).length = 19 ∧ 1 ≤ (⟨7, 1, 1⟩ : Plan).count ∧ (⟨7, 16384, 512⟩ : Plan).count ≤ 16384 ∧
      (⟨7, 16384, 512⟩ : Plan).segments ≤ 512) := by decide

theorem witness_StepRunsFront :
    { up with pending := [.powerLoss, .release] }.pending = .powerLoss :: [.release] ∧
    (up.pending = [] ∧ up.startup.powered = true ∧ up.store.erase = none) ∧
    (up.pending = [] ∧ { up with store.erase := some ⟨0, 39⟩ }.store.erase = some ⟨0, 39⟩) ∧
    ({ up with startup.powered := false }.pending = [] ∧ { up with startup.powered := false }.startup.powered = false) := by decide +kernel

/-- A command's answer on a concrete state, for QueueUntouched, FlashWritesConfined and HoldsUntilStart. -/
theorem witness_exec : exec .searchingComplete State.reset = .next (settle { State.reset with rack.rx := .idle }) ∧
    State.reset.store.flash.wf = true := ⟨rfl, rfl⟩

theorem witness_HoldsUntilStart : up.startup.step ≠ .config ∧
    exec .searchingComplete up = .next up := ⟨by decide, rfl⟩

/-- A page program under way, for the byte frame of FlashWritesConfined. -/
theorem witness_FlashWritesConfined :
    (serving { ready with store.pageBuf := [⟨9, record, 0⟩] } .logPage).programTarget = some (slotAddress 128 1, recordBytes 9 record) ∧
    answers (exec (.pageProgram true) (serving { ready with store.pageBuf := [⟨9, record, 0⟩] } .logPage)) = true := by decide +kernel

theorem reset_step : step State.reset = .next { State.reset with startup.now := 1 } := rfl

theorem witness_MemoryStaysCanonical : MemoryCanonical State.reset ∧ step State.reset = .next { State.reset with startup.now := 1 } :=
  ⟨⟨rfl, rfl⟩, rfl⟩

theorem witness_CountersStayInRange : CountersInRange State.reset ∧ step State.reset = .next { State.reset with startup.now := 1 } :=
  ⟨by unfold CountersInRange; decide +kernel, rfl⟩

theorem withinCapacity_reset : WithinCapacity State.reset where
  intake := by decide
  relayQueue := by decide
  relayList := by decide
  relayPairs := by decide
  heldMemory := by decide
  heldPairs := by decide
  heldPending := by decide
  heldPendingPairs := by decide
  notices := by decide
  noticeMeters := by decide
  replies := by decide
  table := by decide
  tableMeters := by decide
  adoption := ⟨by decide, by decide, fun _ => by decide, by decide, by decide, by decide⟩
  pageBuffer := by decide
  pageFilling _ := by decide
  writeQueue := by decide
  logSectors := by decide
  eraseSectors := by decide
  eraseRange := by decide
  eraseList := by decide

theorem witness_CapacitiesHold : WithinCapacity State.reset ∧ step State.reset = .next { State.reset with startup.now := 1 } :=
  ⟨withinCapacity_reset, rfl⟩

theorem witness_RunLawHolds : RunLaw ready ∧ step ready = .next { ready with startup.now := 1 } := ⟨runLaw_ready, rfl⟩

/-- RUNNING with a MISSED entry on the revisit list. -/
def revisiting : State :=
  { withEntry { entry with status := .missed } with tracker.revisit := [⟨40000, 0, 0⟩] }

theorem trackerLaw_revisiting : TrackerLaw revisiting where
  capacity := by decide +kernel
  meters := by decide +kernel
  counts := by decide +kernel
  revisit := by decide +kernel
  revisitOrder := by decide +kernel
  building _ h := by cases h
  loading
    | 0, h | 1, h | 2, h | 3, h => by cases h
    | _ + 4, h => by cases h
  queue := by decide +kernel

theorem witness_ScoreLawHolds :
    (ScoreLaw (withEntry entry) ∧ step (withEntry entry) = .next { withEntry entry with startup.now := 1 }) ∧
    (TrackerLaw revisiting ∧ step revisiting = .next { revisiting with startup.now := 1 }) :=
  ⟨⟨⟨by decide +kernel, fun h => absurd h (by decide)⟩, rfl⟩, trackerLaw_revisiting, rfl⟩

theorem witness_EveryCommandAnswers : FlashInside State.reset ∧ { up with startup.powered := false }.startup.powered = false := by
  refine ⟨⟨by decide, by decide +kernel⟩, rfl⟩

theorem witness_SettlingFrame : EngineSettled up ∧ (sending up ⟨5, ⟨2, 1, 15, []⟩⟩).rack.sending.isSome = true ∧
    { up with startup.conds.storeFull := true }.startup.conds.storeFull = true ∧ (serving up .logPage).store.serving.isSome = true ∧
    up.tracker.query = none ∧ revisitSent.rack.sending = some ⟨7, ⟨9, 1, 10, [0, 0, 0, 0]⟩⟩ ∧
    { up with tracker.query := some 7 }.tracker.query = some 7 ∧ up.rack.sending = none ∧ up.tracker.reply = none ∧
    { up with tracker.reply := some ⟨7, 0⟩ }.tracker.reply = some ⟨7, 0⟩ := by
  refine ⟨?_, by decide +kernel⟩
  unfold EngineSettled; decide +kernel

theorem witness_EngineChoiceOrder :
    (busy up .runReset).engine.op ≠ .idle ∧
    (up.engine.op = .idle ∧ { up with engine.releases := [.share 2] }.engine.releases = .share 2 :: []) ∧
    { up with engine.releases := [.close] }.engine.releases = .close :: [] ∧
    ({ up with engine.requests := [.runReset] }.engine.releases = [] ∧ { up with engine.requests := [.runReset] }.engine.requests = .runReset :: []) ∧
    ({ running with presence.adoptQueue := [2] }.engine.requests = [] ∧ { running with presence.adoptQueue := [2] }.presence.adoptQueue = 2 :: [] ∧
      running.isRunning = true ∧ ((withEntry entry).engine.table.map (·.meterId)).Nodup) ∧
    (ready.engine.op = .idle ∧ ready.isRunning = false) ∧
    ({ running with radio.queue := [packet 1 1] }.radio.queue = packet 1 1 :: [] ∧ running.presence.adoptQueue = [] ∧
      running.engine.lastSide = .relay) ∧
    ({ running with engine.relayQueue := [.moved (packet 1 1) 0 false] }.engine.relayQueue = .moved (packet 1 1) 0 false :: [] ∧
      running.radio.queue = []) := by decide +kernel

/-- The own-share build requested at an owner of the highest number, at a spare, and without a plan. -/
theorem witness_EngineChoiceOrder_requests :
    let at4 := { ready with startup.straps := 3, startup.settings.collectors := 4 }
    let at5 := { ready with startup.straps := 4, startup.settings.collectors := 4 }
    (at4.engine.plan = some plan ∧ at4.slot = 4 ∧ at4.slot ≤ at4.settings.collectors) ∧
    (at5.engine.plan = some plan ∧ at5.settings.collectors < at5.slot) ∧ up.engine.plan = none := by decide +kernel

theorem witness_ArbiterAndSelector :
    (serving ready .logPage).store.serving.isSome = true ∧
    (ready.store.serving = none ∧ ready.store.opening = none ∧ ready.store.head.isSome = true ∧
      ProgramReq.logPage ∈ { ready with store.progs := [.logPage] }.store.progs ∧
      ProgramReq.opening ∉ { ready with store.progs := [.logPage] }.store.progs ∧
      ProgramReq.planRecord ∉ { ready with store.progs := [.logPage] }.store.progs ∧
      ProgramReq.planHeader ∉ { ready with store.progs := [.logPage] }.store.progs) ∧
    ({ ready with store.opening := some ⟨129, 2, 0, 1⟩ }.store.opening.isSome = true ∧
      ProgramReq.opening ∈ { ready with store.progs := [.logPage, .opening] }.store.progs) ∧
    (up.store.serving = none ∧ { up with store.progs := [.planRecord] }.store.progs = [.planRecord] ∧
      { up with dock.load.queue := [(0, [1])] }.dock.load.queue = (0, [1]) :: []) ∧
    { up with store.progs := [.planHeader] }.store.progs = [.planHeader] ∧
    ((busy ready .planCheckHeader).store.progs = [] ∧ (busy ready .planCheckHeader).engine.op.readsPlan = true) ∧
    ((busy ready (.rebuild ⟨1, 0⟩ 0)).engine.op.readsPlan = false ∧ (busy ready (.rebuild ⟨1, 0⟩ 0)).checkWaits = false ∧
      (busy ready (.rebuild ⟨1, 0⟩ 0)).engine.op.readsLog = true) ∧
    { ready with dock.session.ask := some .tail }.dock.session.ask.isSome = true ∧
    (ready.dock.session.ask = none ∧ { ready with store.marks := [.full 128] }.store.marks = .full 128 :: []) ∧
    ({ ready with store.planErase := some 0 }.store.planErase = some 0 ∧ ready.store.marks = [] ∧ ready.store.erase = none) ∧
    (ready.store.planErase = none ∧ { ready with store.eraseList := [⟨129, true, .ready⟩] }.store.eraseList = ⟨129, true, .ready⟩ :: []) ∧
    ({ up with presence.item := some 5 }.offer2.isSome = true ∧
      { up with relay.heldPending := [⟨3, ⟨1, 1⟩⟩] }.offer3.isSome = true ∧
      { withEntry { entry with origin := .adopted 2 } with engine.handing := [⟨4, 40000, 2⟩] }.offer4.isSome = true ∧
      { running with relay.list := [relayEntry 0 .unsent] }.offer5.isSome = true ∧
      { up with engine.notices := [⟨5, 1, 2, 3, 4⟩] }.offer6.isSome = true ∧
      { running with tracker.tallies := [⟨6, 1⟩] }.offer7.isSome = true ∧
      { up with tracker.reply := some ⟨7, 0⟩ }.offer9.isSome = true ∧
      { up with dock.replies := [⟨8, .fixed [1, 0]⟩] }.offer11.isSome = true ∧
      { up with presence.item := some 5 }.nextItem.isSome = true) := by decide +kernel

theorem witness_ArbiterAndSelector_frames :
    (ready.isRunning = false ∧ running.isRunning = true) ∧
    (let e := { entry with origin := .adopted 2, status := .handing, lastHeard := some ⟨9, 100, 0⟩ }
     let s := { withEntry e with engine.handing := [⟨4, 40000, 2⟩] }
     s.engine.handing = ⟨4, 40000, 2⟩ :: [] ∧ s.ownerOf 2 ≠ s.slot ∧ s.engine.lookup 40000 = some e ∧
      e.lastHeard = some ⟨9, 100, 0⟩) ∧
    (let s := { running with relay.list := [relayEntry 1 .due] }
     s.relay.list = relayEntry 1 .due :: [] ∧ (relayEntry 1 .due).phase = .due ∧ s.shareState 2 = .notMine ∧ s.ownerOf 2 ≠ s.slot) ∧
    { up with relay.heldPending := [⟨3, ⟨1, 1⟩⟩] }.relay.heldPending = ⟨3, ⟨1, 1⟩⟩ :: [] ∧
    { up with engine.notices := [⟨5, 1, 2, 3, 4⟩] }.engine.notices = ⟨5, 1, 2, 3, 4⟩ :: [] ∧
    ({ running with tracker.tallies := [⟨6, 1⟩] }.tracker.tallies = ⟨6, 1⟩ :: [] ∧
      (running.tracker.rows.find? (·.segment == 1)).isSome = true) ∧
    { up with tracker.reply := some ⟨7, 0⟩ }.tracker.reply = some ⟨7, 0⟩ ∧
    (let s := { up with
      dock.session.data := some ⟨8, 3, []⟩
      dock.replies := [⟨9, .fixed []⟩] }
     s.dock.session.data = some ⟨8, 3, []⟩ ∧ (∀ r, s.dock.replies.head? = some r → 8 ≤ r.tag)) ∧
    (let s := { up with
      dock.session.data := some ⟨9, 3, []⟩
      dock.replies := [⟨6, .fixed [3, 1]⟩] }
     s.dock.replies = ⟨6, .fixed [3, 1]⟩ :: [] ∧ (∀ d, s.dock.session.data = some d → 6 < d.tag)) ∧
    (let s := { up with dock.replies := [⟨8, .uploadEnd 1⟩, ⟨9, .uploadEnd 2⟩, ⟨10, .uploadEnd 3⟩] }
     s.dock.replies.map (·.body) = [.uploadEnd 1, .uploadEnd 2, .uploadEnd 3] ∧ s.dock.session.data = none) := by
  refine ⟨by decide +kernel, by decide +kernel, by decide +kernel, rfl, rfl, by decide +kernel, rfl, ⟨rfl, ?_⟩, ⟨rfl, ?_⟩, rfl, rfl⟩
  · intro r h; cases h; decide
  · intro d h; cases h; decide

theorem witness_AppendsJudged :
    State.reset.store.accepts = false ∧ ready.store.accepts = true ∧ ready.scanned = true ∧
    ({ ready with store.programming := true }.store.accepts = true ∧ { ready with store.programming := true }.store.programming = true) ∧
    (ready.store.programming = false ∧ { ready with store.head := some (128, 127) }.store.target ≤ 1) ∧
    ready.store.target = 7 := by decide +kernel

theorem witness_PresenceContent : { up with presence.item := some 5 }.presence.item = some 5 ∧ (1 : Nat) ≤ 1 ∧ (8 : Nat) ≤ 8 := by decide

theorem witness_StartAndPowerLoss :
    { up with startup.powered := false }.startup.powered = false ∧
    ((serving up .planHeader).startup.powered = true ∧ ∀ x ∈ (serving up .planHeader).flashTargets, inFlash x.1 x.2 = true) ∧
    (up.flashTargets = [] ∧ up.store.flash.wf = true ∧ up.startup.save = none ∧ up.startup.cfg.wf = true) := by decide +kernel

theorem witness_ConfigurationTaken : State.reset.startup.powered = true ∧ State.reset.startup.step = .config ∧
    (2 ≤ (at_ State.reset 2).now.toNat ∧ (at_ State.reset 1).now.toNat < 2) ∧
    (State.reset.presence.view = (Presence.afterStart State.reset.slot 8).view ∧ (at_ State.reset 1999).now.toNat < 2000) := by
  decide +kernel

theorem witness_ScanRecovers :
    let header := fun n => headerOf (scanFlash.readBytes (slotAddress n 0) 32)
    let s := { State.reset with startup.step := .scan, store.flash := scanFlash }
    s.startup.powered = true ∧ s.startup.step = .scan ∧ s.store.flash.wf = true ∧ s.store.serving = none ∧
    ((header 128).opened = true ∧ (header 128).intact = true ∧ (header 128).reserves = [3] ∧ (header 129).full = false ∧
      (header 129).eraseBegun = false ∧ (header 129).uploaded = false) ∧
    ((header 130).uploaded = true ∧ (header 130).eraseBegun = false) ∧
    ((header 131).eraseBegun = true ∧ (header 131).retired = false ∧ (header 131).magicGood = true) ∧
    ((header 132).retired = true ∧ (header 133).magicGood = false ∧ (header 133).allOnes = false) ∧
    ((header 135).magicGood = true ∧ (header 135).crcGood = true ∧ (header 135).intact = false ∧ (header 135).allOnes = false) ∧
    ((header 134).allOnes = true ∧ scanFlash.readBytes (slotAddress 134 3) 32 ≠ List.replicate 32 0xFF) ∧
    (header 511).allOnes = true := by decide +kernel

/-- Sequences 1 and 2: record 5 in slot 1, a repeat of it in slot 3, a spoiled record 6 in slot 4, and record 9 in slot 127 of RETIRED 128. -/
def walked : Store :=
  { ready.store with
    rows := [⟨128, .retired, some 2, 0, 4, none, none⟩, ⟨200, .full, some 1, 0, 0, none, none⟩, ⟨201, .erasing, some 0, 0, 0, none, none⟩]
    flash := [(128, 127, recordBytes 9 record), (200, 1, recordBytes 5 record), (200, 3, recordBytes 5 record),
      (200, 4, (recordBytes 6 record).set 31 0), (201, 1, recordBytes 3 record)].foldl
        (fun m (n, k, bytes) => Memory.writeBytes m (slotAddress n k) bytes) [] }

theorem witness_ScanRecovers_walk :
    (walked.rows.filterMap (·.seq)).Nodup ∧
    (∀ k, k = 1 ∨ k = 3 → walked.flash.readBytes (slotAddress 200 k) 32 ≠ List.replicate 32 0xFF ∧
      crc16 (walked.flash.readBytes (slotAddress 200 k) 32) = 0) ∧
    crc16 (walked.flash.readBytes (slotAddress 128 127) 32) = 0 ∧
    (walkSlots walked.flash 1 200 4 1 0).map (fun r => (r.pos, r.number)) = [(⟨1, 1⟩, 5)] ∧
    (walkSlots walked.flash 2 128 2 126 5).map (fun r => (r.pos, r.number)) = [(⟨2, 127⟩, 9)] ∧
    walkSlots walked.flash 2 128 2 126 9 = [] ∧ (logOrder walked.rows).map (fun x => (x.1, x.2.sector)) = [(1, 200), (2, 128)] ∧
    walked.holdsAt ⟨1, 3⟩ 5 = true ∧ walked.holdsAt ⟨2, 127⟩ 9 = true ∧ walked.holdsAt ⟨2, 127⟩ 8 = false ∧
    walked.holdsAt ⟨1, 4⟩ 6 = false ∧ walked.holdsAt ⟨0, 1⟩ 3 = false := by
  refine ⟨by decide, ?_, by decide +kernel⟩
  rintro k (rfl | rfl) <;> decide +kernel

/-- Slot `k` of sector 128 holds `bytes`. -/
def headFlash (k : Nat) (bytes : List Byte) : Memory := Memory.writeBytes [] (slotAddress 128 k) bytes

/-- Sector 128 the only one OPENED; no slot used, or 125 the last one used, its record good or not, or 127, past which the sector ends. -/
theorem witness_ScanRecovers_head :
    ((headerOf ((headFlash 0 (openingBytes ⟨128, 1, 0, 1⟩)).readBytes (slotAddress 128 0) 32)).opened = true ∧
      ∀ m, m < 512 → 128 ≤ m → m ≠ 128 →
        (headerOf ((headFlash 0 (openingBytes ⟨128, 1, 0, 1⟩)).readBytes (slotAddress m 0) 32)).opened = false) ∧
    (∀ j, j < 128 → 1 ≤ j → (headFlash 0 [0x5E]).readBytes (slotAddress 128 j) 32 = List.replicate 32 0xFF) ∧
    (recordGood ((headFlash 125 (recordBytes 9 record)).readBytes (slotAddress 128 125) 32) = true ∧
      recordGood ((headFlash 125 [0x12]).readBytes (slotAddress 128 125) 32) = false ∧
      ∀ j, j < 128 → 125 < j → (headFlash 125 (recordBytes 9 record)).readBytes (slotAddress 128 j) 32 = List.replicate 32 0xFF ∧
        (headFlash 125 [0x12]).readBytes (slotAddress 128 j) 32 = List.replicate 32 0xFF) ∧
    (127 + 1 = 128 ∧ (headFlash 127 [0x12]).readBytes (slotAddress 128 127) 32 ≠ List.replicate 32 0xFF) := by decide +kernel

theorem witness_IntakeCharacters : (up.startup.powered = true ∧ up.radio.awaitHigh = false) ∧
    { up with radio.awaitHigh := true }.radio.awaitHigh = true := by decide

theorem witness_GapExpiryJudges : up.startup.powered = true ∧ up.radio.gapRunning = true ∧ up.radio.awaitHigh = false ∧
    up.radio.line ≠ .idle := by decide

theorem witness_ReceiverJudges : State.reset.rack.rx = .searching ∧ up.rack.rx = .idle ∧
    judgeBits (List.replicate 7 false) = some .stuffViolation ∧ LineVerdict.stuffViolation ≠ .valid true := by decide +kernel

theorem witness_FramesHeard :
    (frameSource (.held 1 1 1) = some 1 ∧ State.reset.follows = false) ∧ (up.follows = true ∧ 1 = up.slot) ∧
    (frameSource (.position 1 1) = some 9 ∧ { up with startup.step := .build }.follows = true ∧ 9 ≠ up.slot ∧
      { up with startup.step := .build }.startup.step ≠ .up) ∧
    ((⟨1, 9, 15, [1, 0]⟩ : RackFrame).src.toNat ≠ up.slot ∧ up.startup.step = .up ∧
      readFrame up.slot ⟨1, 9, 15, [1, 0]⟩ = .formatError) ∧
    (let t := after (exec (.held 2 30114772 9) relaySent)
     frameSource (.held 2 30114772 9) = some 2 ∧ 2 ≠ relaySent.slot ∧ relaySent.rack.sending = some ⟨3, ⟨5, 1, 2, []⟩⟩ ∧
      answers (exec (.held 2 30114772 9) relaySent) = true ∧ t.startup.powered = true ∧ t.isLive 5 3 = false) := by decide +kernel

theorem witness_OwnFramesSettled :
    (sending errored ⟨5, ⟨2, 1, 15, []⟩⟩).rack.sending = some ⟨5, ⟨2, 1, 15, []⟩⟩ ∧
    up.isLive 2 5 = false ∧ errored.isLive 2 5 = true ∧ { up with relay.heldPending := [⟨5, ⟨1, 1⟩⟩] }.isLive 3 5 = true ∧
    { running with relay.list := [relayEntry 1 .unsent] }.isLive 5 3 = true ∧ { up with engine.notices := [⟨5, 1, 2, 3, 4⟩] }.isLive 6 5 = true ∧
    { up with tracker.tallies := [⟨5, 0⟩] }.isLive 7 5 = true ∧ { up with tracker.reply := some ⟨5, 0⟩ }.isLive 9 5 = true ∧
    (let e := { entry with status := .handing }
     let s := { withEntry e with engine.handing := [⟨5, 40000, 2⟩] }
     s.isLive 4 5 = true ∧ s.engine.handing.find? (fun (i : HandingItem) => i.tag == 5) = some ⟨5, 40000, 2⟩ ∧ s.engine.lookup 40000 = some e ∧
      e.status = .handing ∧ (withEntry entry).engine.lookup 40000 = some entry ∧ entry.status ≠ .handing) ∧
    { up with dock.replies := [⟨5, .fixed []⟩] }.isLive 11 5 = true ∧
    { up with dock.session.data := some ⟨5, 1, []⟩ }.isLive 11 5 = true := by decide +kernel

theorem witness_RunOpenJudged : Hears ready 10 ∧ ∀ r ∈ uploadSent.dock.replies, r.tag ≠ 6 := by unfold Hears; decide +kernel
theorem witness_RunCloseCloses : Hears running 10 ∧ running.relay.unconfirmed ≤ 65535 ∧ running.engine.relayOutOfRun ≤ 65535 := by
  unfold Hears; decide +kernel

theorem witness_PositionFollowed : Hears running 9 ∧ ((at_ running 2000).engine.runState = some .running ∧
    (at_ running 2000).tracker.watchdog = some 0 ∧ (at_ running 2000).settings.positionTimeout ≤ ((at_ running 2000).now - 0).toNat) := by
  unfold Hears; decide +kernel

theorem witness_QueriesAnswered :
    (Hears running 10 ∧ running.rack.sending = none) ∧
    (Hears revisitSent 10 ∧ revisitSent.rack.sending = some ⟨7, ⟨9, 1, 10, [0, 0, 0, 0]⟩⟩ ∧
      readFrame revisitSent.slot ⟨8, 10, 15, [1, 0xFF, 0xFF]⟩ = .delivered (.listRevisit 65535)) ∧
    (let s := { revisitSent with tracker.query := some 7, rack.retry := some ⟨9, 7, 7⟩ }
     s.startup.powered = true ∧ s.isLive 9 7 = true ∧ s.tracker.query = some 7 ∧ s.rack.retry = some ⟨9, 7, 7⟩) ∧
    { revisitSent with rack.retry := some ⟨9, 7, 6⟩ }.rack.retry = some ⟨9, 7, 6⟩ := by
  unfold Hears; decide +kernel

/-- A query waits beside the frame on the bus, and an idle step leaves it so. -/
theorem witness_QueriesAnswered_law :
    let s := { revisitSent with tracker.query := some 7 }
    QueryLaw s ∧ step s = .next { s with startup.now := s.startup.now + 1 } := ⟨fun _ => by decide +kernel, rfl⟩

theorem witness_PresenceFollowed :
    (Hears running 2 ∧ isCollector 2 = true) ∧
    ({ up with presence.timer := some 500 }.presence.timer = some 500 ∧ 500 ≤ ((at_ up 500).now - (500 - 500)).toNat) ∧
    ((at_ up 2000).presence.entry 8 = some ⟨8, 0, none, some 2000⟩ ∧ 2000 ≤ ((at_ up 2000).now - 0).toNat) ∧
    2000 ≤ ((at_ up 2000).now - (2000 - 2000)).toNat := by unfold Hears; decide +kernel

theorem witness_PeerReadingsTaken :
    (Hears running 8 ∧ isCollector 8 = true) ∧
    (∀ e ∈ relaySent.relay.list, e.tag = 3 → e.packet.pair = ⟨30114772, 9⟩) ∧
    (let s := at_ { running with relay.list := [relayEntry 3 .waiting] } 250
     s.startup.powered = true ∧ s.relay.ofPair ⟨30114772, 9⟩ = some (relayEntry 3 .waiting) ∧ (relayEntry 3 .waiting).phase = .waiting ∧
      (relayEntry 3 .waiting).lastSend = some 0 ∧ 250 ≤ (s.now - 0).toNat) := by unfold Hears; decide +kernel

theorem witness_PacketClassified :
    (heard running (packet 1 1)).engine.op = .packet (.intake (packet 1 1)) none ∧
    (busy running (.packet (.intake (packet 1 1)) (some ⟨false, .own⟩))).engine.op = .packet (.intake (packet 1 1)) (some ⟨false, .own⟩) ∧
    (⟨40000, 1⟩ : HeldPair) ∈ { running with relay.heldMemory := [⟨40000, 1⟩] }.relay.heldMemory ∧
    ((⟨40000, 1⟩ : HeldPair) ∉ running.relay.heldMemory ∧ running.shareState (running.shareOf 40000) = .own ∧
      running.shareState (running.shareOf 30114772) = .notMine ∧ (adopting [1, 1, 1, 1]).shareState 2 = .queued ∧
      (adopting [1, 1, 1, 1]).shareState 3 = .loading ∧ (adopting [1, 1, 1, 1]).shareState 4 = .adopted) ∧
    (running.engine.lookup 40000 = none ∧ (withEntry { entry with status := .handing }).engine.lookup 40000 =
      some { entry with status := .handing }) ∧
    (running.isRunning = true ∧ ready.isRunning = false) ∧
    ((0 : MeterId) = 0 ∧ (0x60 : Byte).toNat % 16 ≠ 1 ∧ (0x60 : Byte).toNat % 16 ≠ 2) ∧
    ((1 : MeterId) ≠ 0 ∧ (1 : MeterId) ≠ 0xFFFFFFFF ∧ (0x62 : Byte).toNat % 16 = 2) := by decide +kernel

theorem witness_PacketEvaluated :
    let s := heard (withEntry entry) (packet 1201 483790)
    s.startup.powered = true ∧ s.engine.op = .packet (.intake (packet 1201 483790)) none ∧
      (⟨40000, 1201⟩ : HeldPair) ∉ s.relay.heldMemory ∧ s.shareState (s.shareOf 40000) = .own ∧ s.engine.lookup 40000 = some entry ∧
      entry.status ≠ .handing ∧ (s.engine.table.map (·.meterId)).Nodup ∧ packetKind entry.lastHeard 1201 ≠ .repeated ∧
      entry.status = .unread ∧ s.store.accepts = true := by decide +kernel

/-- The same moved from the relay list, and relayed in by slot 2; a repeat; and an append refused. -/
theorem witness_PacketEvaluated_relayed :
    (let i : Taken := .relayed (.moved (packet 1201 483790) 0 false)
     (busy (withEntry entry) (.packet i (some ⟨false, .adopted⟩))).engine.op = .packet i (some ⟨false, .adopted⟩)) ∧
    (let q : RelayPayload := ⟨40000, 1201, 483790, 0x61, 0, 0x60, 3, 1⟩
     (busy (withEntry entry) (.packet (.relayed (.relay 2 q)) none)).engine.op = .packet (.relayed (.relay 2 q)) none ∧ relayValid q = true ∧
      relayPacket q = packet 1201 483790) ∧
    packetKind (some ⟨1201, 1, 0⟩) 1201 = .repeated ∧
    { withEntry entry with store.seqCounter := 4294967295 }.store.accepts = false := by decide +kernel

/-- CONFLICT raised on a repeat: the entry becomes suspect, its notice is made. -/
theorem witness_PacketEvaluated_suspect :
    let e := { entry with status := .read, lastHeard := some ⟨1201, 483790, 0⟩ }
    let t := after (exec .packetOperation (heard (withEntry e) (packet 1201 483791)))
    e.suspect = false ∧ t.engine.table.map (·.suspect) = [true] ∧
      t.engine.notices.map (fun n => (n.meterId, n.score, n.active, n.segment)) = [(40000, 60, 0x20, 0)] := by decide +kernel

theorem witness_ReleasesAndClosure :
    ((busy (withEntry { entry with origin := .adopted 2, status := .read }) (.release 2)).engine.op = .release 2 ∧
      ((withEntry entry).engine.table.map (·.meterId)).Nodup) ∧
    (busy running .closeRelease).engine.op = .closeRelease ∧ (busy running (.closure 1)).engine.op = .closure 1 := by decide +kernel

/-- A release of share 2: the READ entry turns HANDING, its kept record handed over and its HANDOVER queued after the one that stays; the
MISSED entry goes (R53, R54, R70). -/
theorem witness_ReleasesAndClosure_kept :
    let s := busy { withEntry { entry with origin := .adopted 2, status := .read, kept := some record } with
      engine.handing := [⟨1, 7, 3⟩] } (.release 2)
    let t := after (exec .release { s with engine.table := s.engine.table ++
      [{ entry with meterId := 9, origin := .adopted 2, status := .missed, planIndex := 5 }] })
    t.store.pageBuf.map (·.body) = [record] ∧ t.engine.table.map (fun e => (e.meterId, e.status)) = [(40000, .handing)] ∧
    t.engine.handing.map (fun i => (i.meterId, i.share)) = [(7, 3), (40000, 2)] := by decide +kernel

/-- CLOSING, the close finish waiting for its flush. -/
def closing : State :=
  { ready with
    engine.runState := some .closing
    engine.closeWaits := true }

theorem witness_ReleasesAndClosure_flush : RunLaw closing ∧ closing.engine.runState = some .closing ∧ closing.engine.closeWaits = true ∧
    closing.dock.session.state ≠ .starting :=
  ⟨⟨fun _ _ _ => rfl, fun _ => by decide +kernel, by decide +kernel⟩, rfl, rfl, by decide +kernel⟩

/-- READY with an open in progress. -/
def opening : State := { ready with engine.openingRun := some 6, engine.op := .runReset }

theorem witness_ResetAndRebuild_new : RunLaw opening ∧ opening.startup.powered = true ∧ opening.engine.op = .runReset ∧
    opening.engine.runState = some .ready ∧ opening.engine.openingRun = some 6 :=
  ⟨⟨fun _ _ _ => rfl, fun _ => by decide +kernel, by decide +kernel⟩, rfl, rfl, rfl, rfl⟩

/-- REBUILDING from slot 1 of sector sequence 1, slot 2 read next; `bytes` is what slot 2 holds. -/
def rebuilding (bytes : List Byte) : State :=
  serving (busy { running with
    engine.runState := some .rebuilding
    store.flash := Memory.writeBytes [] (slotAddress 128 2) bytes
    store.head := some (128, 3) } (.rebuild ⟨1, 1⟩ 8)) (.rebuildRead true)

theorem witness_ResetAndRebuild_ends : RunLaw (rebuilding []) ∧ (rebuilding []).engine.runState = some .rebuilding ∧
    running.engine.runState ≠ some .rebuilding :=
  ⟨⟨fun _ _ _ => rfl, fun _ => by decide +kernel, by decide +kernel⟩, rfl, by decide⟩

theorem witness_ResetAndRebuild :
    ((withEntry entry).engine.table.map (·.meterId)).Nodup ∧
    ((busy running (.resumeReset ⟨6, ⟨1, 1⟩, 3⟩)).engine.op = .resumeReset ⟨6, ⟨1, 1⟩, 3⟩ ∧ running.engine.runState ≠ some .rebuilding) ∧
    ((rebuilding []).store.serving = some (.rebuildRead true) ∧ (rebuilding []).engine.op = .rebuild ⟨1, 1⟩ 8) ∧
    ((rebuilding (recordBytes 9 record)).store.nextSlot ⟨1, 1⟩ = some (⟨1, 2⟩, 128) ∧
      (let bs := (rebuilding (recordBytes 9 record)).store.flash.readBytes (slotAddress 128 2) 32
       bs ≠ List.replicate 32 0xFF ∧ crc16 bs = 0 ∧ 8 < fieldOf bs 0 4)) ∧
    ((rebuilding []).store.nextSlot ⟨1, 1⟩ = some (⟨1, 2⟩, 128) ∧
      (rebuilding []).store.flash.readBytes (slotAddress 128 2) 32 = List.replicate 32 0xFF) ∧
    (rebuilding []).store.nextSlot ⟨1, 2⟩ = none ∧
    ((rebuilding (recordBytes 9 record)).store.holdsAt ⟨1, 2⟩ 9 = true ∧
      (rebuilding (recordBytes 9 record)).store.holdsAt ⟨1, 2⟩ 8 = false ∧
      (rebuilding (recordBytes 9 record)).store.tail.map (·.number) = some 9 ∧ (rebuilding []).store.tail = none) ∧
    ((withEntry entry).engine.lookup 40000 = some entry ∧ (5 : BitVec 16) = (withEntry entry).runNumber ∧
      (6 : BitVec 16) ≠ (withEntry entry).runNumber) ∧
    (serving running (.rebuildRead false)).store.serving = some (.rebuildRead false) := by decide +kernel

theorem witness_DepotEngineWork :
    (busy ready .findingsClear).engine.op = .findingsClear ∧ (busy ready .emptying).engine.op = .emptying ∧
    (busy ready (.keptRelease 40000 77)).engine.op = .keptRelease 40000 77 ∧ ready.startup.powered = true ∧
    (ready.engine.table.map (·.meterId)).Nodup := by decide +kernel

theorem witness_PlanReadUsed :
    (let s := serving (busy ready (.load 2 16383)) (.planRead true)
     s.startup.powered = true ∧ s.store.serving = some (.planRead true) ∧ inFlash (planSlotAddress s.planReadIndex) 32 = true) ∧
    (serving ready (.planRead false)).store.serving = some (.planRead false) ∧ (1 : Nat) ≤ 1 ∧
    { up with startup.step := .build }.startup.step = .build ∧
    ((adopting [1, 1, 1, 1]).shareState 3 = .loading ∧ ((adopting [1, 1, 1, 1]).engine.table.map (·.meterId)).Nodup ∧
      ([relayEntry 1 .waiting].map (·.tag)).Nodup ∧
      (adopting [1, 1, 1, 1]).relay.unconfirmed ≤ 65535) ∧
    ({ ready with dock.load.check := some [1, 2] }.dock.load.check = some (1 :: [2]) ∧ ([2] : List Nat) ≠ []) ∧
    (let s := { ready with
      dock.load.check := some [0]
      dock.load.received := [0]
      dock.load.count := 1 }
     s.dock.load.check = some [0] ∧ s.dock.load.received.length = s.dock.load.count ∧ s.dock.load.bad = [] ∧
      planRecordGood (List.replicate 19 0 ++ List.replicate 13 0xFF) = false ∧ s.dock.load.ignored ≤ 65535) ∧
    { ready with dock.load.count := 2 }.dock.load.received.length ≠ { ready with dock.load.count := 2 }.dock.load.count := by
  decide +kernel

/-- The build after PLAN END ends, with a full reply list. -/
def builtAfterEnd : State :=
  { ready with
    dock.load.phase := .ending
    dock.load.count := 4
    dock.load.received := [0, 1, 2, 3]
    dock.replies := List.replicate 8 ⟨0, .fixed [1, 0]⟩ }

theorem witness_PlanReadUsed_built :
    (builtAfterEnd.startup.step ≠ .build ∧ builtAfterEnd.dock.load.phase = .ending ∧ builtAfterEnd.dock.load.ignored ≤ 65535 ∧
      RunLaw builtAfterEnd ∧ builtAfterEnd.isRunning = false) ∧
    (ready.startup.step ≠ .build ∧ ready.dock.load.phase ≠ .ending) ∧
    ((buildEnds builtAfterEnd plan).dock.replies.map (·.body)).drop 7 = [.fixed [8, 1, 0, 0, 4, 0, 0, 0, 0, 0, 0, 0, 0, 0, 0, 0, 0]] ∧
    (buildEnds builtAfterEnd plan).dock.replyDrops = 1 ∧ (buildEnds builtAfterEnd plan).dock.load.phase = .none :=
  ⟨⟨by decide, rfl, by decide, ⟨fun _ _ _ => rfl, fun _ => by decide +kernel, by decide +kernel⟩, by decide⟩, ⟨by decide, by decide⟩,
    by decide +kernel, by decide +kernel, by decide +kernel⟩

theorem witness_DockOperationsJudged :
    running.engine.runState = some .running ∧ { running with engine.runState := some .rebuilding }.engine.runState = some .rebuilding ∧
    (ready.engine.runState = some .ready ∧ ready.engine.openingRun = none) ∧
    (dockColumn (.planData 0 []) = some (.planData, 7) ∧ Hears { up with engine.runState := some .loadingErase } 11 ∧
      judgeDock { up with engine.runState := some .loadingErase } .planData = .ignore) ∧
    (dockColumn .planEnd = some (.planEnd, 8) ∧ Hears running 11 ∧ judgeDock running .planEnd = .refuse .refusedRunning) := by
  unfold Hears; decide +kernel

/-- A session that reads the log, slot 2 of sector sequence 1 next or the tail; `bytes` is what slot 2 holds. -/
def uploading (ask : UploadAsk) (bytes : List Byte) : State :=
  serving { ready with
    dock.session.state := .streaming
    dock.session.start := 9
    dock.session.ask := some ask
    store.flash := Memory.writeBytes [] (slotAddress 128 2) bytes
    store.head := some (128, 3) } (.uploadRead true)

theorem witness_UploadOpensAndCloses :
    (Hears ready 11 ∧ judgeDock ready .general = .pass) ∧
    ({ ready with dock.session.state := .paused }.dock.session.state = .paused ∧ ready.dock.session.state = .none) ∧
    (serving ready (.uploadRead false)).store.serving ≠ some (.uploadRead true) ∧
    ((∀ r ∈ uploadSent.dock.replies, r.tag ≠ 6) ∧ 6 < uploadSent.nextTag) ∧
    (let u := { ready with dock.session.state := .starting }
     u.store.pageBuf = [] ∧ u.store.second = [] ∧ u.engine.closeWaits = false ∧ u.dock.session.state = .starting) ∧
    ({ ready with store.pageBuf := [⟨9, record, 0⟩] }.store.pageBuf ≠ [] ∧ ready.store.programming = false) ∧
    (ready.dock.session.toSynth = [] ∧ ready.dock.replies.length ≤ 5) ∧
    (let u := { ready with
      dock.session.toSynth := [record]
      store.seqCounter := 4294967294
      store.durableBound := 4294967295 }
     u.dock.session.toSynth = record :: [] ∧ u.store.seqCounter < u.store.durableBound ∧ u.store.seqCounter < 4294967295) := by
  unfold Hears; decide +kernel

/-- Synthesis of a kept record with no number left below the bound; `bytes` stands in the header from byte 18 on. -/
def numberless (rows : List SectorRow) (bytes : List Byte) : State :=
  { ready with
    dock.session.toSynth := [record]
    store.rows := rows
    store.flash := Memory.writeBytes [] (slotAddress 128 0 + 18) bytes
    store.seqCounter := 9
    store.durableBound := 9 }

/-- The answers to a request for a number (R169): reserve entry 2, reserve entry 3, all entries used; the candidate opened first, an opening
under way, no candidate ERASED; and the counter at its end (R159). -/
theorem witness_UploadOpensAndCloses_numbers :
    let rows : List SectorRow := [⟨128, .full, some 4, 0, 0, none, none⟩, ⟨129, .retired, some 6, 0, 0, none, none⟩]
    let erased : List SectorRow := [⟨128, .erased, none, 3, 0, none, none⟩]
    (numberless rows []).dock.session.toSynth = record :: [] ∧ (numberless rows []).store.durableBound ≤ (numberless rows []).store.seqCounter ∧
    (synthesizeNext (numberless rows [])).store.marks = [.reserve 128 2 8201] ∧
    (synthesizeNext (numberless rows [0])).store.marks = [.reserve 128 3 8201] ∧
    (synthesizeNext (numberless rows (List.replicate 7 0))).dock.session.unsynthesized = 1 ∧
    ((∀ r ∈ erased, r.state ≠ .retired → r.seq = none) ∧ (numberless erased []).store.opening = none ∧
      (synthesizeNext (numberless erased [])).store.head = some (128, 1)) ∧
    { numberless erased [] with store.opening := some ⟨128, 2, 3, 9⟩ }.store.opening.isSome = true ∧
    (numberless [] []).store.candidate = none ∧
    (4294967295 : Nat) ≤ { numberless rows [] with store.seqCounter := 4294967295 }.store.seqCounter := by decide +kernel

/-- The reads of a next record, of a search and of the tail: a slot accepted, one passed over, no slot left, and no record at all. -/
theorem witness_UploadOpensAndCloses_reads :
    (let s := uploading (.next ⟨1, 1⟩ 8) (recordBytes 9 record)
     s.startup.powered = true ∧ s.store.serving = some (.uploadRead true) ∧ s.dock.session.ask = some (.next ⟨1, 1⟩ 8) ∧
      s.store.nextSlot ⟨1, 1⟩ = some (⟨1, 2⟩, 128) ∧
      (let bs := s.store.flash.readBytes (slotAddress 128 2) 32
       bs ≠ List.replicate 32 0xFF ∧ crc16 bs = 0 ∧ 8 < fieldOf bs 0 4 ∧ fieldOf bs 0 4 = s.dock.session.start) ∧
      s.store.nextSlot ⟨1, 2⟩ = none) ∧
    (let s := uploading (.search ⟨1, 1⟩ 0) (recordBytes 7 record)
     s.dock.session.ask = some (.search ⟨1, 1⟩ 0) ∧
      fieldOf (s.store.flash.readBytes (slotAddress 128 2) 32) 0 4 ≠ s.dock.session.start) ∧
    (uploading (.search ⟨1, 0⟩ 0) []).store.nextSlot ⟨1, 0⟩ = some (⟨1, 1⟩, 128) ∧
    (uploading .tail (recordBytes 9 record)).store.tail.map (·.number) = some 9 ∧
    (uploading .tail []).store.tail = none := by decide +kernel

/-- A session of 32 records outstanding, numbers 1 to 32. -/
def paused : State :=
  { ready with dock.session := { Session.afterStart with
    state := .paused
    outstanding := List.range' 1 32
    highest := 32
    pauseSince := some 0 } }

theorem witness_UploadMarksAndPauses :
    (Hears ready 11 ∧ judgeDock ready .general = .pass) ∧
    (ready.dock.session.state = .none ∧ { ready with dock.session.state := .stalled }.dock.session.state = .stalled) ∧
    (paused.dock.session.state = .paused ∧ 32 ≤ paused.dock.session.outstanding.length ∧
      (raiseMark paused 1).dock.session.outstanding.length < 32) ∧
    ((⟨128, .full, some 1, 0, 0, none, some 9⟩ : SectorRow).state = .full ∧ (9 : Nat) ≤ 9) ∧
    ((at_ paused 3000).dock.session.pauseSince = some 0 ∧ 3000 ≤ ((at_ paused 3000).now - 0).toNat) ∧
    (ready.dock.session.phase = .log ∧ { ready with dock.session.phase := .synthesized }.dock.session.phase = .synthesized ∧
      (finishUpload { ready with dock.session.phase := .synthesized } 9).dock.session.synthCount = 1 ∧
      (finishUpload ready 9).dock.session.synthCount = 0) := by
  unfold Hears; decide +kernel

theorem witness_DepotErasesAndClears : Hears ready 11 ∧ judgeDock ready .general = .pass ∧
    (⟨128, .uploaded, some 1, 0, 0, none, none⟩ : SectorRow).state = .uploaded ∧
    (⟨128, .uploaded, some 1, 0, 0, none, none⟩ : SectorRow).seq.isSome = true := by unfold Hears; decide +kernel

/-- LOADING-DATA, receiving. -/
def loading : State :=
  { up with
    engine.runState := some .loadingData
    dock.load := { PlanLoad.afterStart with
      phase := .receiving
      count := 2
      segments := 1 } }

theorem witness_PlanLoadOrdered :
    (Hears ready 11 ∧ judgeDock ready .general = .pass) ∧
    (Hears loading 11 ∧ judgeDock loading .planData = .pass ∧ judgeDock loading .planEnd = .pass) ∧
    { ready with dock.session.state := .starting }.dock.session.state = .starting ∧
    (loading.dock.load.phase = .receiving ∧ ready.dock.load.phase ≠ .receiving) ∧
    ({ loading with dock.load.phase := .ending }.planWriting = false ∧
      { loading with dock.load.phase := .ending, dock.load.queue := [(0, [])] }.planWriting = true ∧
      (List.range 2).filter { loading with dock.load.received := [1] }.dock.load.received.contains ≠ [] ∧
      (List.range 2).filter loading.dock.load.received.contains = [] ∧ loading.dock.load.count ≠ loading.dock.load.received.length) := by
  unfold Hears; decide +kernel

theorem witness_PlanLoadOrdered_begin : ready.dock.session.state = .none ∧ RunLaw ready ∧ ready.isRunning = false :=
  ⟨rfl, runLaw_ready, by decide⟩

theorem witness_SettingsWrittenAndSaved :
    (Hears ready 11 ∧ judgeDock ready .settings = .pass) ∧
    (ready.startup.image.length = 96 ∧ 1 ≤ (List.replicate 16 (0 : Byte)).length ∧ (List.replicate 16 (0 : Byte)).length ≤ 16) ∧
    (ready.startup.save = none ∧ { ready with startup.save := some ⟨[], 1⟩ }.startup.save ≠ none) ∧
    ({ ready with startup.save := some ⟨[1], 8⟩ }.startup.save = some ⟨[1], 8⟩ ∧ 1 ≤ (⟨[1], 8⟩ : SaveJob).serves ∧
      (⟨[1], 8⟩ : SaveJob).serves ≤ 8 ∧ ready.startup.cfg.wf = true) := by unfold Hears; decide +kernel

theorem witness_LogPrograms :
    (let s := at_ { ready with store.pageBuf := [⟨9, record, 0⟩] } 500
     s.startup.powered = true ∧ s.store.programming = false ∧ s.store.pageBuf = ⟨9, record, 0⟩ :: [] ∧ 500 ≤ (s.now - 0).toNat) ∧
    (let s := serving { ready with store.pageBuf := [⟨9, record, 0⟩], store.head := some (128, 127) } .logPage
     s.store.serving = some .logPage ∧ s.store.head = some (128, 127) ∧
      inFlash (slotAddress 128 127) s.store.pageBytes.length = true ∧ s.store.second = [] ∧ 128 ≤ 127 + s.store.pageBuf.length) ∧
    (let s := { ready with
      store.second := [⟨10, record, 0⟩]
      store.flushing := true }
     s.store.second ≠ [] ∧ s.store.flushing = true) ∧
    (ready.store.row 128 = some ⟨128, .opened, some 1, 0, 0, none, none⟩ ∧ 0 + 1 < 4 ∧ 4 ≤ 3 + 1 ∧ 119 < 120) ∧
    (let s := serving { ready with store.opening := some ⟨511, 2, 0, 1⟩ } .opening
     s.store.serving = some .opening ∧ s.store.opening = some ⟨511, 2, 0, 1⟩ ∧
      inFlash (slotAddress 511 0) (openingBytes ⟨511, 2, 0, 1⟩).length = true) := by decide +kernel

/-- The program that fills the sector: the candidate opened where it is ERASED, the next program begun past 500 ms; else no head (R162). -/
theorem witness_LogPrograms_full :
    let s := at_ (serving { ready with
      store.rows := [⟨128, .opened, some 1, 0, 0, some 2, some 8⟩, ⟨129, .erased, none, 5, 0, none, none⟩]
      store.pageBuf := [⟨9, record, 0⟩]
      store.second := [⟨10, record, 0⟩]
      store.programming := true
      store.head := some (128, 127) } .logPage) 501
    let t := after (exec (.pageProgram true) s)
    let u := after (exec (.pageProgram true) { s with store.rows := s.store.rows.take 1 })
    (t.store.candidate = some ⟨129, .erased, none, 5, 0, none, none⟩ ∧ t.store.head = some (129, 1) ∧
      t.store.opening = some ⟨129, 2, 5, 1⟩ ∧ t.store.programming = true ∧ t.store.pageBuf = [⟨10, record, 0⟩] ∧
      t.store.rows = [⟨128, .full, some 1, 0, 0, some 2, some 9⟩, ⟨129, .erased, none, 5, 0, none, none⟩] ∧ t.store.marks = [.full 128]) ∧
    (u.store.head = none ∧ u.store.second = [⟨10, record, 0⟩] ∧ u.store.programming = false ∧ u.store.candidateErased = false) := by
  decide +kernel

/-- Program failures: the third in the last page ends the sector, the fourth retires it (R164). -/
theorem witness_LogPrograms_lastPage :
    let s := fun n => serving { ready with
      store.rows := [⟨128, .opened, some 1, 0, n, none, none⟩, ⟨129, .erased, none, 5, 0, none, none⟩]
      store.pageBuf := [⟨9, record, 0⟩]
      store.programming := true
      store.head := some (128, 120) } .logPage
    (∀ n, n ≤ 3 → (s n).store.row 128 = some ⟨128, .opened, some 1, 0, n, none, none⟩) ∧
    (after (exec (.pageProgram false) (s 2))).store.rows.map (·.state) = [.full, .erased] ∧
    (after (exec (.pageProgram false) (s 2))).store.marks = [.full 128] ∧
    (after (exec (.pageProgram false) (s 3))).store.rows.map (·.state) = [.retired, .erased] ∧
    (after (exec (.pageProgram false) (s 3))).store.head = some (129, 1) := by decide +kernel

/-- An opening that fails: its sector RETIRED with its sequence kept, and the next candidate opened (R164); with none ERASED none. -/
theorem witness_LogPrograms_retired :
    let s := serving { ready with
      store.rows := [⟨128, .full, some 1, 0, 0, none, none⟩, ⟨129, .erased, none, 0, 0, none, none⟩, ⟨130, .erased, none, 5, 0, none, none⟩]
      store.opening := some ⟨129, 2, 0, 1⟩
      store.head := some (129, 1) } .opening
    let t := after (exec (.sectorOpening false) s)
    (∀ r ∈ s.store.rows, r.state = .erased → r.seq = none) ∧
      (t.store.rows.map fun r => (r.state, r.seq)) = [(.full, some 1), (.retired, some 2), (.erased, none)] ∧
      t.store.head = some (130, 1) ∧ t.store.opening = some ⟨130, 3, 5, 1⟩ ∧
      (∀ r ∈ (after (exec (.sectorOpening false) { s with store.rows := s.store.rows.take 2 })).store.rows, r.state ≠ .erased) := by
  decide +kernel

/-- The ends of a flush, a number that waits for an opening, and what becomes of a record removed. -/
theorem witness_LogPrograms_ends :
    (let u := { ready with store.flushing := true }
     u.store.flushing = true ∧ u.store.pageBuf = [] ∧ u.store.second = [] ∧ ready.store.flushing = false) ∧
    (ready.dock.session.numberWait = false ∧ { ready with dock.session.numberWait := true }.dock.session.numberWait = true ∧
      ready.store.reservePending = false) ∧
    (let e := { entry with status := .read, firstRead := some 9 }
     record.kind = .firstRead ∧ (withEntry e).engine.lookup record.meterId = some e ∧ e.status = .read ∧ e.firstRead = some 9 ∧
      (∀ x, (withEntry entry).engine.lookup record.meterId = some x → ¬ ((x.status = .read ∨ x.status = .late) ∧ x.firstRead = some 9))) ∧
    { record with kind := .suspect }.kind ≠ .firstRead := by
  refine ⟨by decide +kernel, by decide +kernel, ⟨rfl, by decide +kernel, rfl, rfl, ?_⟩, by decide⟩
  intro x h
  have h' : (withEntry entry).engine.lookup record.meterId = some entry := by decide +kernel
  rw [h'] at h; cases h; decide

theorem witness_MarkAndPlanPrograms :
    ((serving ready (.mark (.reserve 511 3 9))).store.serving = some (.mark (.reserve 511 3 9)) ∧ ready.startup.powered = true ∧
      inFlash (slotAddress (MarkReq.reserve 511 3 9).sector 0 + (MarkReq.reserve 511 3 9).offset) (MarkReq.reserve 511 3 9).pattern.length = true ∧
      ready.dock.session.numberWait = false) ∧
    ({ ready with dock.session.numberWait := true, dock.session.toSynth := [record] }.dock.session.numberWait = true ∧
      { ready with dock.session.toSynth := [record] }.dock.session.toSynth = record :: []) ∧
    ((serving loading (.planRecord 16383 (List.replicate 19 0))).store.serving = some (.planRecord 16383 (List.replicate 19 0)) ∧
      inFlash (planSlotAddress 16383) (List.replicate 19 (0 : Byte)).length = true ∧ loading.dock.load.phase ≠ .ending) ∧
    (let s := { loading with
      dock.load.phase := .ending
      dock.load.received := [1] }
     s.dock.load.phase = .ending ∧ s.planWriting = false ∧
      (List.range s.dock.load.count).filter s.dock.load.received.contains ≠ [] ∧
      { s with dock.load.queue := [(0, [])] }.planWriting = true) ∧
    (serving loading .planHeader).store.serving = some .planHeader ∧ loading.dock.load.ignored ≤ 65535 := by decide +kernel

/-- LOADING-ERASE, the last plan sector being erased. -/
def erasing : State :=
  { up with
    engine.runState := some .loadingErase
    store.erase := some ⟨127, 40⟩ }

theorem witness_FlashErases_plan : RunLaw erasing ∧ erasing.isRunning = false ∧ erasing.startup.powered = true ∧
    erasing.store.erase = some ⟨127, 40⟩ ∧ erasing.store.serving = none :=
  ⟨⟨fun r h hp => by cases h; exact absurd hp (by decide), fun _ => by decide +kernel, by decide +kernel⟩, rfl, rfl, rfl, rfl⟩

theorem witness_FlashErases :
    (let s := { ready with store.erase := some ⟨511, 40⟩ }
     s.startup.powered = true ∧ s.store.erase = some ⟨511, 40⟩ ∧ s.store.serving = none ∧ (40 : Nat) ≤ 40 ∧ (128 : Nat) ≤ 511 ∧
      inFlash (slotAddress 511 0) 4096 = true ∧ s.store.head.isSome = true) ∧
    (let s := { up with store.erase := some ⟨127, 40⟩ }
     s.startup.powered = true ∧ s.store.erase = some ⟨127, 40⟩ ∧ s.store.serving = none ∧ (127 : Nat) < 128) ∧
    ((serving ready .logPage).store.serving.isSome = true ∧ (39 : Nat) < 40) ∧
    (126 : Nat) < 127 := by decide +kernel

/-- No sector OPENED, and the erase of 128 ends: with 130 the newest the candidate 131 is UPLOADED; with 128 the newest till then it is
131, ERASED, and opened at once (R160, R162). -/
theorem witness_FlashErases_opens :
    let s := { ready with
      store.rows := [⟨128, .erasing, some 0, 0, 0, none, none⟩, ⟨130, .full, some 5, 0, 0, none, none⟩, ⟨131, .uploaded, some 1, 4, 0, none, none⟩]
      store.head := none
      store.eraseList := [⟨128, false, .ready⟩]
      store.erase := some ⟨128, 40⟩ }
    let u := { s with
      store.rows := [⟨128, .erasing, some 1, 0, 0, none, none⟩, ⟨130, .uploaded, some 0, 0, 0, none, none⟩, ⟨131, .erased, none, 4, 0, none, none⟩] }
    (after (exec .sectorErase s)).store.candidateErased = false ∧ (after (exec .sectorErase s)).store.head = none ∧
    (after (exec .sectorErase u)).store.opening = some ⟨131, 2, 4, 1⟩ ∧ (after (exec .sectorErase u)).store.head = some (131, 1) := by
  decide +kernel

end Sys2Proof.Tests
end

section
/-!
PROOF. The Rack Port's answer at a clear (R35) is an age below the limit. A frame with this station's own slot refreshes that age, and the
eighth transmit error on an item raises TX_FAULT again (R30): what finishes the dropped item can change no condition but STORE_FULL.
-/

namespace Sys2Proof.Machine

/-! ## The answer 'recent' (R9, R35) -/

/-- The elapsed time of R9 as a remainder. -/
theorem elapsed_eq_mod (now since : Time) :
    elapsed now since = (4294967296 + now.toNat - since.toNat) % 4294967296 := by
  have hlt : since.toNat < 4294967296 := since.isLt
  unfold elapsed
  rw [BitVec.toNat_sub]
  omega

theorem elapsed_self (now : Time) : elapsed now now = 0 := by simp [elapsed]

theorem duplicateRecent_iff (s : State) :
    s.duplicateRecent = true ↔ ∃ t, s.rack.lastDuplicate = some t ∧ elapsed s.now t < Config.duplicateTime := by
  unfold State.duplicateRecent
  cases s.rack.lastDuplicate <;> simp

theorem duplicateFrame_recent (s : State) : (duplicateFrame s).duplicateRecent = true := by
  have hage : elapsed (duplicateFrame s).now s.now < Config.duplicateTime :=
    (elapsed_self s.now).trans_lt (by decide)
  exact (duplicateRecent_iff _).2 ⟨s.now, rfl, hage⟩

/-! ## What a finished item leaves of the Start-up Controller (R31, R33) -/

/-- The Start-up Controller is as it was, but for STORE_FULL. -/
def KeepsStartup (s t : State) : Prop :=
  t.startup = { s.startup with conds := { s.startup.conds with storeFull := t.startup.conds.storeFull } }

theorem KeepsStartup.of_eq {s t : State} (h : t.startup = s.startup) : KeepsStartup s t := by
  unfold KeepsStartup; rw [h]

theorem KeepsStartup.txFault {s t : State} (h : KeepsStartup s t) : t.startup.conds.txFault = s.startup.conds.txFault := by
  unfold KeepsStartup at h; rw [h]

theorem removeEntry_keepsStartup (s : State) (e : Entry) : KeepsStartup s (removeEntry s e) := by
  obtain ⟨⟨-, hstartup⟩, -⟩ := onlyAppends_of_apart (giveKept_apart s e)
  exact hstartup

theorem finishHandover_keepsStartup (s : State) (tag : Nat) : KeepsStartup s (finishHandover s tag) := by
  unfold finishHandover
  repeat' split
  · exact removeEntry_keepsStartup s _
  all_goals exact .of_eq rfl

@[simp] theorem synthesizeNext_startup (s : State) : (synthesizeNext s).startup = s.startup := by
  unfold synthesizeNext; repeat' split
  all_goals rfl

@[simp] theorem streamOn_startup (s : State) : (streamOn s).startup = s.startup := by
  unfold streamOn; split
  · rfl
  · exact synthesizeNext_startup s

@[simp] theorem finishUpload_startup (s : State) (n : Nat) : (finishUpload s n).startup = s.startup := by
  unfold finishUpload; dsimp only; split
  · rfl
  · exact streamOn_startup _

@[simp] theorem finishReply_startup (s : State) (tag : Nat) : (finishReply s tag).startup = s.startup := by
  unfold finishReply; repeat' split
  · exact finishUpload_startup s _
  all_goals rfl

/-- Of the conditions, only STORE_FULL can change with an item finished: a HANDOVER's end hands the entry's kept record to the store. -/
theorem finishItem_keepsStartup (s : State) (cls tag dst : Nat) : KeepsStartup s (finishItem s cls tag dst) := by
  unfold finishItem
  split
  case h_3 => exact finishHandover_keepsStartup s tag
  case h_8 => exact .of_eq (finishReply_startup s tag)
  all_goals exact .of_eq rfl

theorem finishFrame_keepsStartup (s : State) (x : Sending) : KeepsStartup s (finishFrame s x) := by
  unfold finishFrame; split
  · exact finishItem_keepsStartup s _ _ _
  · exact .of_eq rfl

/-! ## The eighth transmit error (R30) -/

@[simp] theorem retryCount_same (cls tag n : Nat) : retryCount (some ⟨cls, tag, n⟩) cls tag = n + 1 := by simp [retryCount]

/-- At the limit, an item still with its producer is dropped and TX_FAULT raised, whatever the item. -/
theorem retryItem_txFault {s : State} {x : Sending} (hlive : s.isLive x.frame.cls.toNat x.tag = true)
    (hcount : Config.retryLimit ≤ retryCount s.rack.retry x.frame.cls.toNat x.tag) :
    (retryItem s x).startup.conds.txFault = true := by
  unfold retryItem
  dsimp only
  rw [if_neg (by simp [hlive]), if_neg (by omega)]
  exact (finishFrame_keepsStartup _ x).txFault

theorem transmitError_txFault {s : State} {x : Sending} (hlive : s.isLive x.frame.cls.toNat x.tag = true)
    (hcount : Config.retryLimit ≤ retryCount s.rack.retry x.frame.cls.toNat x.tag) (atStart : Bool) :
    (transmitError atStart s x).startup.conds.txFault = true :=
  retryItem_txFault hlive hcount

theorem clearConditions_isLive (s : State) (cls tag : Nat) : (clearConditions s).isLive cls tag = s.isLive cls tag := rfl

/-! ## The obligation -/

/-- Settles O10: the age of R9 against the limit of R35, the frames of a clear and of a duplicate, and TX_FAULT raised again at the eighth
error of R30. -/
theorem duplicateAnswer : Obligations.DuplicateAnswer := by
  intro s
  refine ⟨?recent, rfl, clearConditions_rack s, rfl, duplicateFrame_recent s, rfl, ?eighth⟩
  case recent =>
    simp only [duplicateRecent_iff, elapsed_eq_mod, Config.duplicateTime]
  case eighth =>
    intro x hlive hretry
    refine transmitError_txFault ((clearConditions_isLive s _ _).trans hlive) ?_
    rw [clearConditions_rack, hretry, retryCount_same]
    exact le_refl 8

end Sys2Proof.Machine
end

section
/-!
PROOF. The reading arithmetic of 5.4. The results of a packet that is no repeat are those of the stages that do not compare counters
(`stageResults`) with the result of COUNTER_REGRESS put in its place; so every statement about a detector reads off one list, and what the
stages take from last-heard is the drive check alone.
-/

namespace Sys2Proof.Machine

/-! ## The kind of a packet (R85) -/

/-- What stage 1 gives COUNTER_REGRESS (the table of R85). -/
def regressResult : PacketKind → Option Bool
  | .first | .repeated => none
  | .advance => some false
  | .regress => some true

@[simp] theorem packetKind_none (c : BitVec 16) : packetKind none c = .first := rfl

/-- The kind by the counter's distance of R85, as a remainder. -/
theorem packetKind_some (l : LastHeard) (c : BitVec 16) :
    packetKind (some l) c =
      if (65536 + c.toNat - l.counter.toNat) % 65536 = 0 then .repeated
      else if (65536 + c.toNat - l.counter.toNat) % 65536 ≤ 32767 then .advance else .regress := by
  have hdistance : (c - l.counter).toNat = (65536 + c.toNat - l.counter.toNat) % 65536 := by
    have hlt : l.counter.toNat < 65536 := l.counter.isLt
    rw [BitVec.toNat_sub]
    omega
  simp only [packetKind, hdistance]

/-- Of last-heard, the kind of a packet takes the counter alone. -/
theorem packetKind_withReading (l : LastHeard) (x : BitVec 32) (c : BitVec 16) :
    packetKind (some { l with reading := x }) c = packetKind (some l) c := rfl

/-! ## The drive check (R87) -/

theorem smallDrop_iff {w high low : Nat} : smallDrop w high low = true ↔ low < high ∧ high - low ≤ w := by
  simp [smallDrop]

/-- For an advance or a regress the drive check compares with the last reading. -/
theorem driveReverse_moved {st : Settings} {e : Entry} {p : Packet} {l : LastHeard} (hl : e.lastHeard = some l)
    (hkind : packetKind e.lastHeard p.counter = .advance ∨ packetKind e.lastHeard p.counter = .regress) :
    driveReverse st e p = smallDrop (reverseWindow st e) l.reading.toNat p.reading.toNat := by
  unfold driveReverse
  rcases hkind with hkind | hkind <;> rw [hkind, hl]

/-- A first packet and a repeat take no drive check. -/
theorem driveReverse_unmoved {st : Settings} {e : Entry} {p : Packet}
    (hkind : packetKind e.lastHeard p.counter = .first ∨ packetKind e.lastHeard p.counter = .repeated) :
    driveReverse st e p = false := by
  unfold driveReverse
  rcases hkind with hkind | hkind <;> rw [hkind]

theorem driveReverse_iff {st : Settings} {e : Entry} {p : Packet} :
    driveReverse st e p = true ↔
      ∃ l, e.lastHeard = some l ∧ (packetKind e.lastHeard p.counter = .advance ∨ packetKind e.lastHeard p.counter = .regress) ∧
        p.reading.toNat < l.reading.toNat ∧ l.reading.toNat - p.reading.toNat ≤ reverseWindow st e := by
  constructor
  · intro h
    have hkind : packetKind e.lastHeard p.counter = .advance ∨ packetKind e.lastHeard p.counter = .regress := by
      cases hk : packetKind e.lastHeard p.counter with
      | first => simp [driveReverse_unmoved (.inl hk)] at h
      | repeated => simp [driveReverse_unmoved (.inr hk)] at h
      | advance => exact .inl rfl
      | regress => exact .inr rfl
    obtain ⟨l, hl⟩ : ∃ l, e.lastHeard = some l := by
      cases hl : e.lastHeard with
      | none => simp [hl] at hkind
      | some l => exact ⟨l, rfl⟩
    rw [driveReverse_moved hl hkind] at h
    exact ⟨l, hl, hkind, smallDrop_iff.1 h⟩
  · rintro ⟨l, hl, hkind, hdrop⟩
    rw [driveReverse_moved hl hkind]
    exact smallDrop_iff.2 hdrop

/-! ## The reverse window and the billing check (R87, R88) -/

theorem reverseWindow_zero {st : Settings} (h : st.reverseWindow = 0) (e : Entry) : reverseWindow st e = 0 := by
  simp [reverseWindow, h]

/-- The window's greatest value: nine digits and 500 ten-thousandths. -/
theorem reverseWindow_le {st : Settings} {e : Entry} (hdigits : e.digits ≤ 9) (hw : st.reverseWindow ≤ 500) :
    reverseWindow st e ≤ 50000000 :=
  calc 10 ^ e.digits * st.reverseWindow / 10000
      ≤ 10 ^ 9 * 500 / 10000 :=
        Nat.div_le_div_right (Nat.mul_le_mul (Nat.pow_le_pow_right (by decide) hdigits) hw)
    _ = 50000000 := by norm_num

theorem consumption_eq (st : Settings) (e : Entry) (p : Packet) :
    consumption st e p =
      if e.billed ≤ p.reading.toNat then some (p.reading.toNat - e.billed)
      else if e.billed - p.reading.toNat ≤ reverseWindow st e then none
      else some (p.reading.toNat + 10 ^ e.digits - e.billed) := by
  unfold consumption
  dsimp only
  split
  · rfl
  · next hbelow => simp only [smallDrop_iff, Nat.lt_of_not_le hbelow, true_and]

/-- With the reading and the billed reading on the register, so is the consumption. -/
theorem consumption_lt {st : Settings} {e : Entry} {p : Packet} {q : Nat} (hbilled : e.billed < 10 ^ e.digits)
    (hreading : p.reading.toNat < 10 ^ e.digits) (hq : consumption st e p = some q) : q < 10 ^ e.digits := by
  rw [consumption_eq] at hq
  split at hq
  · cases hq; omega
  · split at hq
    · cases hq
    · cases hq; omega

theorem rangePassed_iff {e : Entry} {p : Packet} :
    rangePassed e p = true ↔ p.digits.toNat = e.digits ∧ p.reading.toNat < 10 ^ e.digits := by
  simp [rangePassed]

/-! ## The rate tests (R90) -/

/-- RATE_HIGH is the exact form of "q above h per cent of e / 16 units a day for d days". -/
theorem rateHigh_iff_percent {st : Settings} {e : Entry} {q d : Nat} :
    rateHigh st e q d = true ↔ (q : ℚ) > ((st.band e.band).high : ℚ) / 100 * ((e.rate : ℚ) / 16) * (d : ℚ) := by
  have hlimit : ((st.band e.band).high : ℚ) / 100 * ((e.rate : ℚ) / 16) * (d : ℚ) =
      ((e.rate * d * (st.band e.band).high : ℕ) : ℚ) / 1600 := by
    push_cast; ring
  rw [hlimit, gt_iff_lt, div_lt_iff₀ (by norm_num), rateHigh, decide_eq_true_iff]
  exact_mod_cast Iff.rfl

/-- Where the low percentage is 0, only the zero-days part of RATE_LOW can hold. -/
theorem rateLow_iff_of_low_zero {st : Settings} {e : Entry} {q d : Nat} (hlow : (st.band e.band).low = 0) :
    rateLow st e q d = true ↔ q = 0 ∧ st.zeroDays ≤ d := by
  simp [rateLow, hlow]

/-! ## The results of a packet (R84 to R91) -/

/-- The rate detectors are tested (R90), where the billing check gives a consumption. -/
def rateTested (e : Entry) (p : Packet) : Bool := rangePassed e p && decide (0 < e.rate)

/-- The results of a packet that is no repeat, but for COUNTER_REGRESS. -/
def stageResults (st : Settings) (day : BitVec 16) (e : Entry) (p : Packet) : List (Option Bool) :=
  [some (tamperFlag p.flags),
    if rangePassed e p then some (driveReverse st e p || (consumption st e p).isNone || reverseFlow p.flags) else none,
    if rateTested e p then (consumption st e p).map (rateHigh st e · (elapsedDays day.toNat e.billedDay)) else none,
    if rateTested e p then (consumption st e p).map (rateLow st e · (elapsedDays day.toNat e.billedDay)) else none,
    none,
    none,
    some (!rangePassed e p)]

/-- On a repeat only CONFLICT is tested (R86). -/
theorem packetResults_repeated {st : Settings} {day : BitVec 16} {e : Entry} {p : Packet}
    (hkind : packetKind e.lastHeard p.counter = .repeated) :
    ∃ conflict, packetResults st day e p = [none, none, none, none, none, some conflict, none] := by
  unfold packetResults
  rw [hkind]
  exact ⟨_, rfl⟩

theorem packetResults_of_ne_repeated {st : Settings} {day : BitVec 16} {e : Entry} {p : Packet}
    (hkind : packetKind e.lastHeard p.counter ≠ .repeated) :
    packetResults st day e p = (stageResults st day e p).set 4 (regressResult (packetKind e.lastHeard p.counter)) := by
  unfold packetResults
  cases hk : packetKind e.lastHeard p.counter with
  | repeated => exact absurd hk hkind
  | first | advance | regress => rfl

/-- COUNTER_REGRESS takes the result of stage 1, whatever the other stages give. -/
theorem packetResults_counterRegress (st : Settings) (day : BitVec 16) (e : Entry) (p : Packet) :
    (packetResults st day e p).getD 4 none = regressResult (packetKind e.lastHeard p.counter) := by
  by_cases hkind : packetKind e.lastHeard p.counter = .repeated
  · obtain ⟨conflict, hresults⟩ := packetResults_repeated (st := st) (day := day) hkind
    rw [hresults, hkind]
    rfl
  · rw [packetResults_of_ne_repeated hkind]
    rfl

/-- Of last-heard, the stages take the drive check alone. -/
theorem stageResults_withLastHeard {st : Settings} {e : Entry} {p : Packet} {last : Option LastHeard}
    (hdrive : driveReverse st { e with lastHeard := last } p = driveReverse st e p) (day : BitVec 16) :
    stageResults st day { e with lastHeard := last } p = stageResults st day e p := by
  unfold stageResults
  rw [hdrive]
  rfl

/-- Of the stages' results, last-heard reaches REVERSE alone. -/
theorem stageResults_getElem?_withLastHeard (st : Settings) (day : BitVec 16) (e : Entry) (p : Packet) (last : Option LastHeard)
    {i : Nat} (hi : i ≠ 1) :
    (stageResults st day { e with lastHeard := last } p)[i]? = (stageResults st day e p)[i]? := by
  match i, hi with
  | 0, _ | n + 2, _ => rfl

/-- The rate tests of a packet that is no repeat do not depend on last-heard. -/
theorem packetResults_getElem?_withLastHeard {st : Settings} {day : BitVec 16} {e : Entry} {p : Packet} {last : Option LastHeard}
    (hkind : packetKind e.lastHeard p.counter ≠ .repeated) (hkind' : packetKind last p.counter ≠ .repeated) {i : Nat} (hreverse : i ≠ 1)
    (hregress : i ≠ 4) :
    (packetResults st day { e with lastHeard := last } p)[i]? = (packetResults st day e p)[i]? := by
  rw [packetResults_of_ne_repeated hkind, packetResults_of_ne_repeated (e := { e with lastHeard := last }) hkind',
    List.getElem?_set_ne hregress.symm, List.getElem?_set_ne hregress.symm]
  exact stageResults_getElem?_withLastHeard st day e p last hreverse

/-- Where a rate detector is tested, its result is that of the rate test. -/
theorem packetResults_rates_tested {st : Settings} {day : BitVec 16} {e : Entry} {p : Packet} {q : Nat}
    (hkind : packetKind e.lastHeard p.counter ≠ .repeated) (hrange : rangePassed e p = true) (hrate : 0 < e.rate)
    (hq : consumption st e p = some q) :
    (packetResults st day e p).getD 2 none = some (rateHigh st e q (elapsedDays day.toNat e.billedDay)) ∧
    (packetResults st day e p).getD 3 none = some (rateLow st e q (elapsedDays day.toNat e.billedDay)) := by
  have htested : rateTested e p = true := by simp [rateTested, hrange, hrate]
  rw [packetResults_of_ne_repeated hkind]
  simp [stageResults, htested, hq]

/-- The cases of R90 in which neither rate detector is tested, and a repeat (R86). -/
theorem packetResults_rates_untested {st : Settings} {e : Entry} {p : Packet} (day : BitVec 16)
    (h : packetKind e.lastHeard p.counter = .repeated ∨ rangePassed e p = false ∨ e.rate = 0 ∨ consumption st e p = none) :
    (packetResults st day e p).getD 2 none = none ∧ (packetResults st day e p).getD 3 none = none := by
  by_cases hkind : packetKind e.lastHeard p.counter = .repeated
  · obtain ⟨conflict, hresults⟩ := packetResults_repeated (st := st) (day := day) hkind
    rw [hresults]
    exact ⟨rfl, rfl⟩
  · have huntested : rateTested e p = false ∨ consumption st e p = none := by
      rcases h with hrepeat | hrange | hrate | hq
      · exact absurd hrepeat hkind
      · exact .inl (by simp [rateTested, hrange])
      · exact .inl (by simp [rateTested, hrate])
      · exact .inr hq
    rw [packetResults_of_ne_repeated hkind]
    rcases huntested with hfalse | hq
    · simp [stageResults, hfalse]
    · simp [stageResults, hq]

/-- REVERSE is tested for every packet that is no repeat and whose range check passed (R88). -/
theorem packetResults_reverse (st : Settings) (day : BitVec 16) (e : Entry) (p : Packet) :
    (packetResults st day e p).getD 1 none =
      if packetKind e.lastHeard p.counter = .repeated ∨ rangePassed e p = false then none
      else some (driveReverse st e p || (consumption st e p).isNone || p.flags.getLsbD 4) := by
  by_cases hkind : packetKind e.lastHeard p.counter = .repeated
  · obtain ⟨conflict, hresults⟩ := packetResults_repeated (st := st) (day := day) hkind
    rw [hresults, if_pos (.inl hkind)]
    rfl
  · rw [packetResults_of_ne_repeated hkind]
    cases hrange : rangePassed e p <;> simp [stageResults, hrange, hkind, reverseFlow]

/-! ## The obligations -/

/-- Settles O2: the table of R85 from the counter's distance, and a regress given the results of an advance because both make the same
drive check. -/
theorem packetKinds : Obligations.PacketKinds := by
  refine ⟨packetKind_none, packetKind_some, ?result, ?others, fun st e p hfirst => driveReverse_unmoved (.inl hfirst), ?wraps, ?regresses⟩
  case result =>
    intro st day e p
    rw [packetResults_counterRegress]
    cases packetKind e.lastHeard p.counter <;> rfl
  case others =>
    intro st day e p l c i hi hl hadvance hregress
    have hdrive : driveReverse st { e with lastHeard := some { l with counter := c } } p = driveReverse st e p := by
      rw [driveReverse_moved hl (.inl (hl ▸ hadvance)), driveReverse_moved rfl (.inr hregress)]
      rfl
    rw [packetResults_of_ne_repeated (e := e) (by simp [hl, hadvance]), packetResults_of_ne_repeated (by simp [hregress]),
      List.getElem?_set_ne hi.symm, List.getElem?_set_ne hi.symm, stageResults_withLastHeard hdrive]
  case wraps => decide
  case regresses => decide

/-- Settles O3: the window's range, the drive check by the kind of packet, the billing check's cases and what REVERSE gathers of them. -/
theorem reverseChecks : Obligations.ReverseChecks := by
  intro st day e p
  refine ⟨rfl, fun h => reverseWindow_zero h e, reverseWindow_le, driveReverse_iff, consumption_eq st e p, ?bound,
    packetResults_reverse st day e p, ?rates⟩
  case bound =>
    intro hbilled hrange q hq
    obtain ⟨-, hreading⟩ := rangePassed_iff.1 hrange
    exact consumption_lt hbilled hreading hq
  case rates =>
    intro l x hl hkind
    have hkind' : packetKind (some { l with reading := x }) p.counter ≠ .repeated := by
      rw [packetKind_withReading, ← hl]
      exact hkind
    exact ⟨packetResults_getElem?_withLastHeard hkind hkind' (by decide) (by decide),
      packetResults_getElem?_withLastHeard hkind hkind' (by decide) (by decide)⟩

/-- Settles O4: the cases in which the rate detectors are tested, and the rational form of the high limit with its denominators 100 and 16
cleared to 1,600. -/
theorem rateBand : Obligations.RateBand := by
  intro st day e p
  refine ⟨rfl, packetResults_rates_untested day, ?tested⟩
  intro hkind hrange hrate q hq
  obtain ⟨hhigh, hlow⟩ := packetResults_rates_tested (day := day) hkind hrange hrate hq
  refine ⟨hhigh, hlow, ?percent, ?zero⟩
  case percent =>
    rw [hhigh, Option.some_inj]
    exact rateHigh_iff_percent
  case zero =>
    intro hzero
    rw [hlow, Option.some_inj]
    exact rateLow_iff_of_low_zero hzero

end Sys2Proof.Machine
end

section
/-!
PROOF. A detector's transitions (6.3), one lemma for a shown result in ACTIVE, one for a shown result outside it and one for a clean result
of each kind. A shown result leaves the clean count at 0 and a clean result the consecutive count at 0, so the next count begins from 1.
-/

namespace Sys2Proof.Machine

/-! ## The counts (R105) -/

@[simp] theorem shownCount_ordinary (k c : Nat) : shownCount k false c = c + 1 := rfl

@[simp] theorem shownCount_alarm (k c : Nat) : shownCount k true c = min 8 (max k (c + 1)) := rfl

/-! ## One detector's result (R102) -/

@[simp] theorem detectorStep_shown (ds : DetectorSetting) (jump : Bool) (d : Detector) :
    detectorStep ds jump (some true) d = detectorShown ds jump d := rfl

@[simp] theorem detectorStep_clean (ds : DetectorSetting) (jump : Bool) (d : Detector) :
    detectorStep ds jump (some false) d = (detectorClean ds d, false) := rfl

theorem disposition_latch_or_release {x : Disposition} (hoff : x ≠ .off) (hnote : x ≠ .note) : x = .latch ∨ x = .release := by
  cases x with
  | latch => exact .inl rfl
  | release => exact .inr rfl
  | note => exact absurd rfl hnote
  | off => exact absurd rfl hoff

/-! ## Shown results (R103, R106) -/

/-- In ACTIVE a shown result counts up to 8 and raises nothing (R106). -/
theorem detectorShown_active {ds : DetectorSetting} {d : Detector} (hdisp : ds.disposition = .latch ∨ ds.disposition = .release)
    (hactive : d.state = .active) (jump : Bool) :
    detectorShown ds jump d = (⟨.active, min 8 (shownCount ds.debounce jump d.consecutive), 0, some true⟩, false) := by
  unfold detectorShown
  rcases hdisp with hdisp | hdisp <;> rw [hactive, hdisp]

/-- Outside ACTIVE a shown result raises the detector exactly when its count reaches the debounce (R103). -/
theorem detectorShown_of_not_active {ds : DetectorSetting} {d : Detector}
    (hdisp : ds.disposition = .latch ∨ ds.disposition = .release) (hstate : d.state ≠ .active) (jump : Bool) :
    detectorShown ds jump d =
      if shownCount ds.debounce jump d.consecutive = ds.debounce then
        (⟨.active, shownCount ds.debounce jump d.consecutive, 0, some true⟩, true)
      else (⟨.pending, shownCount ds.debounce jump d.consecutive, 0, some true⟩, false) := by
  unfold detectorShown
  cases hs : d.state with
  | active => exact absurd hs hstate
  | idle | pending => rcases hdisp with hdisp | hdisp <;> rw [hdisp]

/-- Raised or not, the detector holds the count of its shown results (R103). -/
theorem detectorShown_consecutive {ds : DetectorSetting} {d : Detector}
    (hdisp : ds.disposition = .latch ∨ ds.disposition = .release) (hstate : d.state ≠ .active) (jump : Bool) :
    (detectorShown ds jump d).1.consecutive = shownCount ds.debounce jump d.consecutive := by
  rw [detectorShown_of_not_active hdisp hstate]
  split <;> rfl

/-! ## Clean results (R107, R108) -/

/-- Outside ACTIVE a clean result forgets the shown ones (R107). -/
theorem detectorClean_of_not_active {ds : DetectorSetting} {d : Detector} (hoff : ds.disposition ≠ .off) (hstate : d.state ≠ .active) :
    detectorClean ds d = ⟨.idle, 0, d.clean, some false⟩ := by
  unfold detectorClean
  cases hdisp : ds.disposition with
  | off => exact absurd hdisp hoff
  | latch | release | note =>
    cases hs : d.state with
    | active => exact absurd hs hstate
    | idle | pending => rfl

/-- Under RELEASE a clean result in ACTIVE counts toward the release (R108). -/
theorem detectorClean_release {ds : DetectorSetting} {d : Detector} (hdisp : ds.disposition = .release) (hactive : d.state = .active) :
    detectorClean ds d =
      if d.clean + 1 = ds.releaseCount then ⟨.idle, 0, 0, some false⟩ else ⟨.active, 0, d.clean + 1, some false⟩ := by
  unfold detectorClean
  rw [hactive, hdisp]

/-- A shown result in ACTIVE makes the next clean one the first toward a release that takes more than one (R106). -/
theorem detectorClean_after_shown {ds : DetectorSetting} {d : Detector} (hdisp : ds.disposition = .release) (hactive : d.state = .active)
    (hrelease : 1 < ds.releaseCount) (jump : Bool) :
    (detectorClean ds (detectorShown ds jump d).1).clean = 1 := by
  rw [detectorShown_active (.inr hdisp) hactive, detectorClean_release hdisp rfl, if_neg (by dsimp only; omega)]

/-! ## The obligation -/

/-- Settles O6: a shown result in ACTIVE with its two counts, and a clean result outside ACTIVE, each followed by the result that begins the
other count again from 1. -/
theorem detectorWithoutRaise : Obligations.DetectorWithoutRaise := by
  refine ⟨fun ds d hdisp hactive => ⟨?ordinary, ?release, ?alarm⟩, fun ds d jump hoff hstate hclean => ?clean⟩
  case ordinary => rw [detectorStep_shown, detectorShown_active hdisp hactive, shownCount_ordinary]
  case release => exact fun hrelease hcount => detectorClean_after_shown hrelease hactive hcount false
  case alarm =>
    rw [detectorStep_shown, detectorShown_active hdisp hactive, shownCount_alarm, Nat.min_self_assoc]
  case clean =>
    have hinactive : d.state ≠ .active := by rcases hstate with h | h <;> simp [h]
    have hidle : detectorStep ds jump (some false) d = (⟨.idle, 0, 0, some false⟩, false) := by
      rw [detectorStep_clean, detectorClean_of_not_active hoff hinactive, hclean]
    refine ⟨hidle, fun hnote _ => ?_⟩
    rw [hidle, detectorStep_shown, detectorShown_consecutive (disposition_latch_or_release hoff hnote) (by decide), shownCount_ordinary]

end Sys2Proof.Machine
end

section
/-!
PROOF. What a command can do, said once. Every command but START, POWER_LOSS and the two of the intake line has one effect (`commandEffect`),
after which the end of a command follows; so a law of every step is a law of the effects, of the end of a command, of a restart and of the
idle millisecond (`StepLaw`).
-/

namespace Sys2Proof.Machine

/-! ## The effect of a command -/

/-- The delivery of a command that is a frame (R25): peers' classes from collectors alone, and any other frame as the filter reads it. -/
def State.deliveryOf (s : State) : Instr → State → State
  | .rackFrameOther f => deliverReading (readFrame s.slot f)
  | .presence src p => fromPeer src.toNat (deliverCommand (.presence src p))
  | .held src m k => fromPeer src.toNat (deliverCommand (.held src m k))
  | .relay src p => fromPeer src.toNat (deliverCommand (.relay src p))
  | .handover src p => fromPeer src.toNat (deliverCommand (.handover src p))
  | c => deliverCommand c

/-- The effect of a command that is no frame, before what follows at its end; absent where the state excludes its event (log 2), and for
the commands that no settling follows. -/
def ownEffect : Instr → State → Option State
  | .configRead => fun s => onlyIf (s.startup.step == .config) (configAnswered s)
  | .configAnswerTimeout => fun s => onlyIf s.answerOverdue (takeImage defaultImage true s)
  | .startUpScan => fun s => onlyIf (s.startup.step == .scan) (scanEnds s)
  | .gapExpiry => fun s => onlyIf (s.radio.gapRunning && !s.radio.awaitHigh && s.radio.line != .idle) (gapExpires s)
  | .searchingComplete => fun s => onlyIf (s.rack.rx == .searching) { s with rack.rx := .idle }
  | .receiveError bits => receiveFault (judgeBits bits)
  | .duplicateFrame => fun s => onlyIf s.follows (duplicateFrame s)
  | .frameSent => whileSending frameSent
  | .arbitrationLoss => whileSending arbitrationLost
  | .transmitError atStart => whileSending (transmitError atStart)
  | .positionWatchdogExpiry => fun s => onlyIf (s.isRunning && s.watchdogOver) (watchdogExpires s)
  | .presenceTimerExpiry => fun s => onlyIf s.presenceDue (presenceExpires s)
  | .absenceExpiry slot => fun s => onlyIf (s.absent slot.toNat) (recompute s)
  | .presumptionExpiry slot => fun s => onlyIf (s.presumptionOver slot.toNat) (presumptionExpires s slot.toNat)
  | .packetOperation => packetEnds
  | .pageBufferTimeout => fun s => onlyIf (s.store.pageDue s.now) { s with store := s.store.startProgram }
  | .release => fun s => match s.engine.op with
    | .release share => some (releaseEnds s share)
    | _ => none
  | .closeRelease => fun s => match s.engine.op with
    | .closeRelease => some (closeReleaseEnds s)
    | _ => none
  | .closureMarking => fun s => match s.engine.op with
    | .closure segment => some (closureEnds s segment)
    | _ => none
  | .runReset => runResetEnds
  | .rebuildRead => logReadEnds
  | .findingsClear => fun s => onlyIf (s.engine.op == .findingsClear) (findingsClearEnds s)
  | .routeTableEmptying => fun s => onlyIf (s.engine.op == .emptying) (emptyingEnds s)
  | .keptRecordRelease => fun s => match s.engine.op with
    | .keptRelease m n => some (keptReleaseEnds s m n)
    | _ => none
  | .planRead => slotReadEnds
  | .relayWaitExpiry m k => relayWaitExpires ⟨m, k⟩
  | .uploadRead => sessionReadEnds
  | .uploadPauseTimeout => fun s => onlyIf (s.dock.session.pauseOver s.now)
    { s with dock.session := { s.dock.session with
      state := .stalled
      pauseSince := none } }
  | .saveCompletion ok => fun s => match s.startup.save with
    | some job => some (saveEnds job ok s)
    | none => none
  | .pageProgram ok => pageProgramEnds ok
  | .sectorOpening ok => openingEnds ok
  | .headerMarkProgram ok => headerMarkEnds ok
  | .sectorErase => fun s => match s.eraseDue false with
    | some n => some { s with store := s.store.sectorErased n }
    | none => none
  | .planSectorErase => fun s => match s.eraseDue true with
    | some n => some (planSectorErased n s)
    | none => none
  | .planRecordProgram ok => planRecordEnds ok
  | .planHeaderProgram ok => planHeaderEnds ok
  | _ => fun _ => none

/-- The effect of a command, frame or not. -/
def commandEffect (c : Instr) (s : State) : Option State :=
  match frameSource c with
  | some n => onFrame n (s.deliveryOf c) s
  | none => ownEffect c s

/-- What a command but START and POWER_LOSS answers with: the state as it was, a change of the line receiver alone, or the state of its
effect settled. -/
inductive Answered (c : Instr) (s : State) : State → Prop where
  | same : Answered c s s
  | character (data : Byte) (parity stop : Bool) : Answered c s { s with radio := s.radio.character data parity stop }
  | lineHigh : Answered c s { s with radio := s.radio.lineHigh }
  | settled {u : State} (effect : commandEffect c s = some u) : Answered c s (settle u)

/-! ## Every command has the form of its effect -/

theorem act_answered {f : State → Option State} {c : Instr} {s t : State} (hf : f s = commandEffect c s) (h : act f s = .next t) :
    Answered c s t := by
  unfold act at h
  split at h
  · split at h
    · next u hu =>
      cases h
      exact .settled (hf ▸ hu)
    · cases h; exact .same
  · cases h; exact .same

theorem next_of_atFlash {a n : Nat} {x : Answer} {t : State} (h : atFlash a n x = .next t) : x = .next t := by
  unfold atFlash at h
  split at h
  · exact h
  · cases h

theorem next_of_actProgram {f : State → Option State} {s t : State} (h : actProgram f s = .next t) : act f s = .next t := by
  unfold actProgram at h
  split at h
  · exact next_of_atFlash h
  · exact h

/-- Every command but START and POWER_LOSS has one of these answers. -/
theorem exec_answered {c : Instr} {s t : State} (h : exec c s = .next t) (hstart : ∀ x, c ≠ .start x) (hloss : c ≠ .powerLoss) :
    Answered c s t := by
  cases c
  case start x => exact absurd rfl (hstart x)
  case powerLoss => exact absurd rfl hloss
  case intakeCharacter data parity stop =>
    change execIntakeCharacter data parity stop s = _ at h
    unfold execIntakeCharacter at h
    split at h <;> cases h
    · exact .character data parity stop
    · exact .same
  case lineReturnHigh =>
    change execLineReturnHigh s = _ at h
    unfold execLineReturnHigh at h
    split at h <;> cases h
    · exact .lineHigh
    · exact .same
  case sectorErase =>
    change execSectorErase s = _ at h
    unfold execSectorErase at h
    split at h
    · next n _ hn => exact act_answered (show _ = (match s.eraseDue false with
        | some n => some { s with store := s.store.sectorErased n }
        | none => none) by rw [hn]) (next_of_atFlash h)
    · cases h; exact .same
  case planSectorErase =>
    change execPlanSectorErase s = _ at h
    unfold execPlanSectorErase at h
    split at h
    · next n _ hn => exact act_answered (show _ = (match s.eraseDue true with
        | some n => some (planSectorErased n s)
        | none => none) by rw [hn]) (next_of_atFlash h)
    · cases h; exact .same
  case planRead =>
    change execPlanRead s = _ at h
    unfold execPlanRead at h
    split at h
    · exact act_answered rfl (next_of_atFlash h)
    · exact act_answered rfl h
  case pageProgram | sectorOpening | headerMarkProgram | planRecordProgram | planHeaderProgram =>
    exact act_answered rfl (next_of_actProgram h)
  all_goals exact act_answered rfl h

/-! ## Laws of every step -/

/-- What makes a predicate a law of every step. A delivery is past step 6 (R26). -/
structure StepLaw (P : State → Prop) : Prop where
  queue : ∀ s q, P s → P { s with pending := q }
  idle : ∀ s, P s → P (tick s)
  restarts : ∀ powered straps s, P s → P (restart powered straps s)
  cuts : ∀ s, P s → P (cutOff s)
  character : ∀ s data parity stop, P s → P { s with radio := s.radio.character data parity stop }
  lineHigh : ∀ s, P s → P { s with radio := s.radio.lineHigh }
  duplicate : ∀ s, P s → P (duplicateFrame s)
  received : ∀ s, P s → P s.received
  heard : ∀ s n, P s → P (heardReport s n)
  formatError : ∀ s, P s → P { s with rack.rxFormat := countUp s.rack.rxFormat }
  runReject : ∀ s, P s → P (rejectRun s)
  dockReject : ∀ s, P s → P { s with dock.rejects := countUp s.dock.rejects }
  delivers : ∀ c s, s.isUp = true → P s → P (deliverCommand c s)
  effects : ∀ c s u, ownEffect c s = some u → P s → P u
  settles : ∀ s, P s → P (settle s)

namespace StepLaw
variable {P : State → Prop}

theorem reports (L : StepLaw P) (s : State) (n : Nat) (h : P s) : P (reportFrame s n) := by
  have hr : reportFrame s n = if isCollector n then heardReport s.received n else s.received := rfl
  rw [hr]
  split
  · exact L.heard _ _ (L.received _ h)
  · exact L.received _ h

theorem readings (L : StepLaw P) (r : Reading) (s : State) (hup : s.isUp = true) (h : P s) : P (deliverReading r s) := by
  cases r with
  | setAside => exact h
  | formatError => exact L.formatError _ h
  | runReject => exact L.runReject _ h
  | dockReject => exact L.dockReject _ h
  | delivered c => exact L.delivers c s hup h

theorem fromPeers (L : StepLaw P) (c : Instr) (n : Nat) (s : State) (hup : s.isUp = true) (h : P s) :
    P (fromPeer n (deliverCommand c) s) := by
  unfold fromPeer
  split
  · exact L.delivers c s hup h
  · exact h

theorem deliveries (L : StepLaw P) (c : Instr) (s u : State) (hup : u.isUp = true) (h : P u) : P (s.deliveryOf c u) := by
  unfold State.deliveryOf
  split
  · exact L.readings _ u hup h
  iterate 4 exact L.fromPeers _ _ u hup h
  · exact L.delivers _ u hup h

theorem frames (L : StepLaw P) {n : Nat} {c : Instr} {s u : State} (hu : onFrame n (s.deliveryOf c) s = some u) (h : P s) : P u := by
  unfold onFrame at hu
  split at hu
  · cases hu
  split at hu
  · cases hu; exact L.duplicate s h
  · dsimp only at hu
    have hr := L.reports s n h
    split at hu <;> cases hu
    · exact L.deliveries c s _ (by assumption) hr
    · exact hr

theorem effect (L : StepLaw P) {c : Instr} {s u : State} (hu : commandEffect c s = some u) (h : P s) : P u := by
  unfold commandEffect at hu
  split at hu
  · exact L.frames hu h
  · exact L.effects c s u hu h

theorem powerLoss (L : StepLaw P) {powered : Bool} {straps : BitVec 3} {s t : State} (ht : restartPowered powered straps s = .next t)
    (h : P s) : P t := by
  unfold restartPowered at ht
  split at ht <;> cases ht
  exact L.restarts _ _ _ (L.cuts s h)

/-- A command keeps the law. -/
theorem exec (L : StepLaw P) {c : Instr} {s t : State} (ht : exec c s = .next t) (h : P s) : P t := by
  by_cases hstart : ∃ x, c = .start x
  · obtain ⟨x, rfl⟩ := hstart
    change execStart x s = _ at ht
    unfold execStart at ht
    split at ht
    · exact L.powerLoss ht h
    · cases ht; exact L.restarts _ _ _ h
  by_cases hloss : c = .powerLoss
  · subst hloss
    change execPowerLoss s = _ at ht
    unfold execPowerLoss at ht
    split at ht
    · exact L.powerLoss ht h
    · cases ht; exact h
  cases exec_answered ht (fun x hx => hstart ⟨x, hx⟩) hloss with
  | same => exact h
  | character data parity stop => exact L.character s data parity stop h
  | lineHigh => exact L.lineHigh s h
  | settled hu => exact L.settles _ (L.effect hu h)

/-- A step keeps the law. -/
theorem step (L : StepLaw P) {s t : State} (h : P s) (ht : step s = .next t) : P t := by
  unfold Machine.step at ht
  split at ht
  · cases ht; exact L.idle s h
  · exact L.exec ht (L.queue _ _ h)

end StepLaw

end Sys2Proof.Machine
end

section
/-!
PROOF. The calm changes of a state: those that leave the route table, the plan, the run state, the shares and the segment figures as they
are, keep every counter and every list within its range, and let nothing begin that reads the plan. Most of what a command does is calm; a
law of every step has to be looked at only where something is not.
-/

namespace Sys2Proof.Machine

/-! ## Counters (R194) -/

/-- A counter is as it was, or within the range of R194. -/
def CountKept (a b : Nat) : Prop := b ≤ max a 65535

@[simp] theorem countKept_refl (a : Nat) : CountKept a a := Nat.le_max_left _ _

@[simp] theorem countKept_countUp (a : Nat) : CountKept a (countUp a) :=
  (Nat.min_le_right _ _).trans (Nat.le_max_right _ _)

@[simp] theorem countKept_countUpBy (a k : Nat) : CountKept a (countUpBy a k) :=
  (Nat.min_le_right _ _).trans (Nat.le_max_right _ _)

@[simp] theorem countKept_zero (a : Nat) : CountKept a 0 := Nat.zero_le _

theorem countKept_ite {a b c : Nat} {p : Prop} [Decidable p] (hb : CountKept a b) (hc : CountKept a c) :
    CountKept a (if p then b else c) := by split <;> assumption

theorem CountKept.trans {a b c : Nat} (h : CountKept a b) (k : CountKept b c) : CountKept a c := by
  unfold CountKept at *; omega

theorem CountKept.inRange {a b : Nat} (h : CountKept a b) (ha : a ≤ 65535) : b ≤ 65535 := by
  unfold CountKept at h; omega

/-- Every counter is kept. -/
def CountersKept (s t : State) : Prop := List.Forall₂ CountKept s.counters t.counters

theorem CountersKept.refl (s : State) : CountersKept s s := List.forall₂_same.2 fun _ _ => countKept_refl _

theorem forall₂_countKept_trans {as bs cs : List Nat} (h : List.Forall₂ CountKept as bs) (k : List.Forall₂ CountKept bs cs) :
    List.Forall₂ CountKept as cs := by
  induction h generalizing cs with
  | nil => exact k
  | cons hab _ ih =>
    cases k with
    | cons hbc k => exact .cons (hab.trans hbc) (ih k)

theorem CountersKept.trans {s t u : State} (h : CountersKept s t) (k : CountersKept t u) : CountersKept s u :=
  forall₂_countKept_trans h k

/-- The counters block by block (R14, R34, R98, R115, R135, R138, R148, R173, R174). -/
theorem countersKept_iff {s t : State} : CountersKept s t ↔
    (CountKept s.radio.lineErrors t.radio.lineErrors ∧ CountKept s.radio.intakeCrc t.radio.intakeCrc ∧
      CountKept s.radio.malformed t.radio.malformed ∧ CountKept s.radio.outOfRun t.radio.outOfRun ∧
      CountKept s.radio.overrun t.radio.overrun) ∧
    (CountKept s.rack.rxCrc t.rack.rxCrc ∧ CountKept s.rack.rxFormat t.rack.rxFormat ∧
      CountKept s.rack.txErrors t.rack.txErrors ∧ CountKept s.rack.txDrops t.rack.txDrops) ∧
    (CountKept s.engine.heldDrop t.engine.heldDrop ∧ CountKept s.engine.unlistedDrop t.engine.unlistedDrop ∧
      CountKept s.engine.relayReject t.engine.relayReject ∧ CountKept s.engine.handoverDrop t.engine.handoverDrop ∧
      CountKept s.engine.suspectDrop t.engine.suspectDrop ∧ CountKept s.engine.runReject t.engine.runReject ∧
      CountKept s.engine.relayOverrun t.engine.relayOverrun ∧ CountKept s.engine.relayOutOfRun t.engine.relayOutOfRun) ∧
    CountKept s.tracker.tallyDrop t.tracker.tallyDrop ∧
    (CountKept s.relay.duplicates t.relay.duplicates ∧ CountKept s.relay.confirmed t.relay.confirmed ∧
      CountKept s.relay.unconfirmed t.relay.unconfirmed ∧ CountKept s.relay.heldDrop t.relay.heldDrop) ∧
    (CountKept s.dock.rejects t.dock.rejects ∧ CountKept s.dock.replyDrops t.dock.replyDrops) ∧
    CountKept s.store.dropped t.store.dropped ∧ CountKept s.store.faults t.store.faults := by
  simp only [CountersKept, State.counters, State.counters2, State.counters3, List.cons_append, List.nil_append,
    List.forall₂_cons, List.forall₂_nil_left_iff, and_true]
  tauto

/-- No counter is touched. -/
theorem CountersKept.of_same {s t : State}
    (radio : [t.radio.lineErrors, t.radio.intakeCrc, t.radio.malformed, t.radio.outOfRun, t.radio.overrun] =
      [s.radio.lineErrors, s.radio.intakeCrc, s.radio.malformed, s.radio.outOfRun, s.radio.overrun])
    (rack : [t.rack.rxCrc, t.rack.rxFormat, t.rack.txErrors, t.rack.txDrops] =
      [s.rack.rxCrc, s.rack.rxFormat, s.rack.txErrors, s.rack.txDrops])
    (engine : [t.engine.heldDrop, t.engine.unlistedDrop, t.engine.relayReject, t.engine.handoverDrop, t.engine.suspectDrop,
        t.engine.runReject, t.engine.relayOverrun, t.engine.relayOutOfRun] =
      [s.engine.heldDrop, s.engine.unlistedDrop, s.engine.relayReject, s.engine.handoverDrop, s.engine.suspectDrop,
        s.engine.runReject, s.engine.relayOverrun, s.engine.relayOutOfRun])
    (tracker : t.tracker.tallyDrop = s.tracker.tallyDrop)
    (relay : [t.relay.duplicates, t.relay.confirmed, t.relay.unconfirmed, t.relay.heldDrop] =
      [s.relay.duplicates, s.relay.confirmed, s.relay.unconfirmed, s.relay.heldDrop])
    (dock : [t.dock.rejects, t.dock.replyDrops] = [s.dock.rejects, s.dock.replyDrops])
    (store : [t.store.dropped, t.store.faults] = [s.store.dropped, s.store.faults]) : CountersKept s t := by
  rw [countersKept_iff]
  simp_all

theorem CountersKept.inRange {s t : State} (h : CountersKept s t) (hs : CountersInRange s) : CountersInRange t := by
  unfold CountersInRange CountersKept at *
  generalize s.counters = as, t.counters = bs at *
  induction h with
  | nil => exact hs
  | cons hab _ ih =>
    intro n hn
    rcases List.mem_cons.1 hn with rfl | hn
    · exact hab.inRange (hs _ (by simp))
    · exact ih (fun n hn => hs n (by simp [hn])) n hn

/-! ## Lists within their capacity -/

/-- The Relay Unit's lists are within their capacities and hold nothing twice (R121, R131, R133). -/
structure RelayFits (relays : List RelayEntry) (held : List HeldPair) (items : List HeldItem) : Prop where
  list : relays.length ≤ 32
  pairs : (relays.map (·.packet.pair)).Nodup
  memory : held.length ≤ 32
  memoryPairs : held.Nodup
  pending : items.length ≤ 16
  pendingPairs : (items.map (·.pair)).Nodup

/-- The suspect pending list is within its capacity and holds no meter twice (R114). -/
def NoticesFit (l : List Notice) : Prop := l.length ≤ 64 ∧ (l.map (·.meterId)).Nodup

/-- The page buffer is within its capacity, and FILLING it is not full (R161). -/
def PageFits (buf : List Buffered) (programming : Bool) : Prop := buf.length ≤ 8 ∧ (programming = false → buf.length < 8)

/-- The rows are those of log sectors, and the erase list holds log sectors, none twice (R156, R168). -/
structure SectorsFit (rows : List SectorRow) (list : List EraseItem) : Prop where
  rows : ∀ r ∈ rows, 128 ≤ r.sector ∧ r.sector < 512
  nodup : (list.map (·.sector)).Nodup
  range : ∀ i ∈ list, 128 ≤ i.sector ∧ i.sector < 512

/-- Nothing at the flash arbiter, waiting or served, is a plan header's program. -/
def NoHeader (progs : List ProgramReq) (serving : Option Serving) : Prop := .planHeader ∉ progs ∧ serving ≠ some .planHeader

/-- No plan load is at its end (R186). -/
def NotEnding (check : Option (List Nat)) (phase : LoadPhase) : Prop := check = none ∧ phase ≠ .ending

/-! ## Calm changes -/

/-- The figures of a row, its state apart (R144). -/
def SegmentRow.figures (r : SegmentRow) : Nat × Nat × Nat × Nat × Nat := (r.segment, r.expected, r.read, r.missed, r.suspect)

/-- The share that an operation loads. -/
def EngineOp.loads : EngineOp → Option Nat
  | .load n _ => some n
  | _ => none

/-- The operation is the own-share build. -/
def EngineOp.builds : EngineOp → Bool
  | .ownBuild _ => true
  | _ => false

/-- An operation is replaced by one that loads what it loads, and builds or reads the plan only if it does. -/
structure OpKept (a b : EngineOp) : Prop where
  loads : b.loads = a.loads
  builds : b.builds = true → a.builds = true
  readsPlan : b.readsPlan = true → a.readsPlan = true

theorem OpKept.refl (a : EngineOp) : OpKept a a := ⟨rfl, id, id⟩

theorem OpKept.trans {a b c : EngineOp} (h : OpKept a b) (k : OpKept b c) : OpKept a c :=
  ⟨k.loads.trans h.loads, h.builds ∘ k.builds, h.readsPlan ∘ k.readsPlan⟩

/-- An operation that reads no plan loads nothing and builds nothing. -/
theorem EngineOp.quiet_of_readsPlan {o : EngineOp} (h : o.readsPlan = false) : o.loads = none ∧ o.builds = false := by
  cases o <;> first | exact ⟨rfl, rfl⟩ | cases h

/-- Neither operation reads the plan. -/
theorem OpKept.of_readsPlan {a b : EngineOp} (ha : a.readsPlan = false) (hb : b.readsPlan = false) : OpKept a b := by
  obtain ⟨hla, -⟩ := EngineOp.quiet_of_readsPlan ha
  obtain ⟨hlb, hbb⟩ := EngineOp.quiet_of_readsPlan hb
  exact ⟨hlb.trans hla.symm, by simp [hbb], by simp [hb]⟩

/-- From `s` to `t` a calm change. -/
structure Calm (s t : State) : Prop where
  counters : CountersKept s t
  intake : t.radio.queue.length ≤ max s.radio.queue.length 16
  relayQueue : t.engine.relayQueue.length ≤ max s.engine.relayQueue.length 8
  relay : RelayFits s.relay.list s.relay.heldMemory s.relay.heldPending →
    RelayFits t.relay.list t.relay.heldMemory t.relay.heldPending
  notices : NoticesFit s.engine.notices → NoticesFit t.engine.notices
  replies : t.dock.replies.length ≤ max s.dock.replies.length 8
  writeQueue : t.dock.load.queue.length ≤ max s.dock.load.queue.length 64
  page : PageFits s.store.pageBuf s.store.programming → PageFits t.store.pageBuf t.store.programming
  sectors : SectorsFit s.store.rows s.store.eraseList → SectorsFit t.store.rows t.store.eraseList
  seq : s.store.seqCounter ≤ t.store.seqCounter
  header : NoHeader s.store.progs s.store.serving → NoHeader t.store.progs t.store.serving
  ending : NotEnding s.dock.load.check s.dock.load.phase → NotEnding t.dock.load.check t.dock.load.phase
  requests : ∀ r, r = .ownBuild ∨ r = .planCheck → r ∈ t.engine.requests → r ∈ s.engine.requests
  op : OpKept s.engine.op t.engine.op
  table : t.engine.table = s.engine.table
  runState : t.engine.runState = s.engine.runState
  plan : t.engine.plan = s.engine.plan
  shares : t.presence.shares = s.presence.shares
  adoptQueue : t.presence.adoptQueue = s.presence.adoptQueue
  settings : t.startup.settings = s.startup.settings
  straps : t.startup.straps = s.startup.straps
  step : t.startup.step = .config → s.startup.step = .config
  rows : t.tracker.rows.map SegmentRow.figures = s.tracker.rows.map SegmentRow.figures
  revisit : t.tracker.revisit = s.tracker.revisit

theorem Calm.refl (s : State) : Calm s s where
  counters := .refl s
  intake := Nat.le_max_left _ _
  relayQueue := Nat.le_max_left _ _
  relay := id
  notices := id
  replies := Nat.le_max_left _ _
  writeQueue := Nat.le_max_left _ _
  page := id
  sectors := id
  seq := Nat.le_refl _
  header := id
  ending := id
  requests _ _ := id
  op := .refl _
  table := rfl
  runState := rfl
  plan := rfl
  shares := rfl
  adoptQueue := rfl
  settings := rfl
  straps := rfl
  step := id
  rows := rfl
  revisit := rfl

theorem Calm.trans {s t u : State} (h : Calm s t) (k : Calm t u) : Calm s u where
  counters := h.counters.trans k.counters
  intake := by have := h.intake; have := k.intake; omega
  relayQueue := by have := h.relayQueue; have := k.relayQueue; omega
  relay := k.relay ∘ h.relay
  notices := k.notices ∘ h.notices
  replies := by have := h.replies; have := k.replies; omega
  writeQueue := by have := h.writeQueue; have := k.writeQueue; omega
  page := k.page ∘ h.page
  sectors := k.sectors ∘ h.sectors
  seq := h.seq.trans k.seq
  header := k.header ∘ h.header
  ending := k.ending ∘ h.ending
  requests r hr hm := h.requests r hr (k.requests r hr hm)
  op := h.op.trans k.op
  table := k.table.trans h.table
  runState := k.runState.trans h.runState
  plan := k.plan.trans h.plan
  shares := k.shares.trans h.shares
  adoptQueue := k.adoptQueue.trans h.adoptQueue
  settings := k.settings.trans h.settings
  straps := k.straps.trans h.straps
  step := h.step ∘ k.step
  rows := k.rows.trans h.rows
  revisit := k.revisit.trans h.revisit

theorem Calm.ite {p : Prop} [Decidable p] {s a b : State} (ha : p → Calm s a) (hb : ¬ p → Calm s b) : Calm s (if p then a else b) := by
  split
  · exact ha (by assumption)
  · exact hb (by assumption)

theorem Calm.foldl {α : Type} {f : State → α → State} (h : ∀ s x, Calm s (f s x)) (l : List α) (s : State) : Calm s (l.foldl f s) := by
  induction l generalizing s with
  | nil => exact .refl s
  | cons x l ih => exact (h s x).trans (ih _)

end Sys2Proof.Machine
end

section
/-!
PROOF. The Store Controller's operations and what every block does with its own lists and counters are calm changes.
-/

namespace Sys2Proof.Machine

/-! ## Store (chapter 9) -/

/-- A calm change of the store. -/
structure Store.Calm (a b : Store) : Prop where
  page : PageFits a.pageBuf a.programming → PageFits b.pageBuf b.programming
  sectors : SectorsFit a.rows a.eraseList → SectorsFit b.rows b.eraseList
  seq : a.seqCounter ≤ b.seqCounter
  header : NoHeader a.progs a.serving → NoHeader b.progs b.serving
  dropped : CountKept a.dropped b.dropped
  faults : CountKept a.faults b.faults

namespace Store

theorem Calm.refl (a : Store) : a.Calm a := ⟨id, id, Nat.le_refl _, id, countKept_refl _, countKept_refl _⟩

theorem Calm.trans {a b c : Store} (h : a.Calm b) (k : b.Calm c) : a.Calm c where
  page := k.page ∘ h.page
  sectors := k.sectors ∘ h.sectors
  seq := h.seq.trans k.seq
  header := k.header ∘ h.header
  dropped := h.dropped.trans k.dropped
  faults := h.faults.trans k.faults

theorem target_le (st : Store) : st.target ≤ 8 := by
  unfold target; split <;> omega

/-- A page buffer that is filled beyond what FILLING allows begins its program (R161). -/
theorem programIfDue_pageFits {st : Store} (h : st.pageBuf.length ≤ 8) : PageFits st.programIfDue.pageBuf st.programIfDue.programming := by
  have ht := st.target_le
  unfold programIfDue
  split
  · exact ⟨h, fun hp => by cases hp⟩
  · next hdue =>
    refine ⟨h, fun hp => ?_⟩
    rcases Nat.lt_or_ge st.pageBuf.length 8 with hlt | hge
    · exact hlt
    · have hne : st.pageBuf.isEmpty = false := by cases hb : st.pageBuf <;> simp_all
      exact absurd (by simp [hp, hne, ht.trans hge]) hdue

theorem startProgram_calm (st : Store) : st.Calm st.startProgram :=
  { Calm.refl _ with
    page := fun h => ⟨h.1, fun hp => by cases hp⟩
    header := fun h => ⟨by simpa [startProgram] using h.1, h.2⟩ }

theorem programIfDue_calm (st : Store) : st.Calm st.programIfDue := by
  unfold programIfDue; split
  · exact st.startProgram_calm
  · exact .refl _

/-- A row changed keeps its sector. -/
theorem updateRow_calm (st : Store) (n : Nat) {f : SectorRow → SectorRow} (hf : ∀ r, (f r).sector = r.sector) :
    st.Calm (st.updateRow n f) := by
  refine { Calm.refl st with sectors := fun h => ?_ }
  · refine ⟨fun r hr => ?_, h.nodup, h.range⟩
    obtain ⟨x, hx, rfl⟩ := List.mem_map.1 hr
    have := h.rows x hx
    split
    · rw [hf]; exact this
    · exact this

theorem requestMark_calm (st : Store) (m : MarkReq) : st.Calm (st.requestMark m) := by
  unfold requestMark; split
  · exact .refl _
  · exact { Calm.refl _ with }

theorem openCandidate_calm (st : Store) : st.Calm st.openCandidate := by
  unfold openCandidate
  repeat' split
  · exact { Calm.refl _ with header := fun h => ⟨by simpa using h.1, h.2⟩ }
  · exact { Calm.refl _ with }
  · exact { Calm.refl _ with }

theorem sectorEnd_calm (st : Store) (n : Nat) : st.Calm (st.sectorEnd n) :=
  (st.updateRow_calm n (f := fun r => { r with state := .full }) fun _ => rfl).trans
    ((requestMark_calm _ (.full n)).trans (openCandidate_calm _))

theorem sectorRetired_calm (st : Store) (n : Nat) : st.Calm (st.sectorRetired n) :=
  (st.updateRow_calm n (f := fun r => { r with state := .retired }) fun _ => rfl).trans
    ((requestMark_calm _ (.retired n)).trans (openCandidate_calm _))

/-- Steps 3 and 4 of R162 fill the page buffer up to the target, and begin its program where that fills it. -/
theorem refill_calm (st : Store) (now : Time) : st.Calm (st.refill now) := by
  have hlen (h : PageFits st.pageBuf st.programming) : (st.pageBuf ++ st.second.take (st.target - st.pageBuf.length)).length ≤ 8 := by
    have := st.target_le
    have := h.1
    simp only [List.length_append, List.length_take]
    omega
  unfold refill
  dsimp only
  split
  · exact { Calm.refl _ with page := fun h => ⟨hlen h, fun hp => by cases hp⟩, header := fun h => ⟨by simpa [startProgram] using h.1, h.2⟩ }
  · have k := programIfDue_calm { st with
      programming := false
      pageBuf := st.pageBuf ++ st.second.take (st.target - st.pageBuf.length)
      second := st.second.drop (st.target - st.pageBuf.length) }
    exact ⟨fun h => programIfDue_pageFits (hlen h), k.sectors, k.seq, k.header, k.dropped, k.faults⟩

theorem pageVerified_calm (st : Store) (sector slot : Nat) : st.Calm (st.pageVerified sector slot) := by
  have h1 : st.Calm { st with
      flash := st.flash.program (slotAddress sector slot) st.pageBytes
      head := some (sector, slot + st.pageBuf.length)
      pageBuf := [] } := { Calm.refl _ with page := fun _ => ⟨by simp, fun _ => by simp⟩ }
  have h2 := h1.trans (updateRow_calm _ sector (f := fun r =>
    { r with first := r.first.or (st.pageBuf.head?.map (·.number)), last := (st.pageBuf.getLast?.map (·.number)).or r.last })
    fun _ => rfl)
  unfold pageVerified
  dsimp only
  split
  · exact h2.trans (sectorEnd_calm _ sector)
  · exact h2

theorem pageAbandoned_calm (st : Store) (use sector slot : Nat) : st.Calm (st.pageAbandoned use sector slot) := by
  have h1 : st.Calm { st with
      flash := st.flash.tornProgram use (slotAddress sector slot) st.pageBytes
      head := some (sector, nextPage slot) } := { Calm.refl _ with }
  have h2 := h1.trans (updateRow_calm _ sector (f := fun r => { r with abandoned := r.abandoned + 1 }) fun _ => rfl)
  unfold pageAbandoned
  extract_lets st1 st2 retires
  split
  · exact h2.trans (sectorRetired_calm _ sector)
  · split
    · exact h2.trans (sectorEnd_calm _ sector)
    · exact h2

theorem opened_calm (st : Store) (o : Opening) : st.Calm (st.opened o) := by
  have h : st.Calm { st with
      flash := st.flash.program (slotAddress o.sector 0) (openingBytes o)
      opening := none
      sectorSeq := st.sectorSeq + 1 } := ⟨id, id, Nat.le_refl _, id, countKept_refl _, countKept_refl _⟩
  exact h.trans (updateRow_calm _ o.sector (f := fun r =>
    { r with state := .opened, seq := some o.seq, abandoned := 0, first := none, last := none }) fun _ => rfl)

theorem openingFailed_calm (st : Store) (use : Nat) (o : Opening) : st.Calm (st.openingFailed use o) := by
  have h : st.Calm { st with
      flash := st.flash.tornProgram use (slotAddress o.sector 0) (openingBytes o)
      opening := none
      sectorSeq := st.sectorSeq + 1 } := ⟨id, id, Nat.le_refl _, id, countKept_refl _, countKept_refl _⟩
  exact h.trans ((updateRow_calm _ o.sector (f := fun r => { r with seq := some o.seq }) fun _ => rfl).trans
    (sectorRetired_calm _ o.sector))

/-- The page buffer keeps no more than it held (R164). -/
theorem resplit_calm (st : Store) : st.Calm st.resplit.1 := by
  refine { Calm.refl st with page := fun h => ?_ }
  · have hle : st.resplit.1.pageBuf.length ≤ st.pageBuf.length := by
      unfold resplit
      simp only [List.length_take]
      omega
    exact ⟨hle.trans h.1, fun hp => hle.trans_lt (h.2 hp)⟩

theorem reprogram_calm (st : Store) : st.Calm st.reprogram := by
  have hrest : .planHeader ∉ st.progs → .planHeader ∉ st.progs.filter (· != .logPage) :=
    fun h hm => h (List.mem_filter.1 hm).1
  unfold reprogram
  dsimp only
  split
  · next hempty =>
    have hnil : st.pageBuf = [] := List.isEmpty_iff.1 hempty
    exact { Calm.refl _ with page := fun _ => ⟨by simp [hnil], fun _ => by simp [hnil]⟩, header := fun h => ⟨hrest h.1, h.2⟩ }
  · split
    · exact { Calm.refl _ with header := fun h => ⟨by simpa using hrest h.1, h.2⟩ }
    · exact .refl _

/-- The head of the erase list goes on in its phase, its sector's row with it (R168). -/
theorem serviceEraseList_calm (st : Store) : st.Calm st.serviceEraseList := by
  unfold serviceEraseList
  split
  · next n scanPlaced rest hlist =>
    have h1 (p : ErasePhase) : st.Calm { st with eraseList := ⟨n, scanPlaced, p⟩ :: rest } := by
      refine { Calm.refl _ with sectors := fun h => ⟨h.rows, ?_, fun i hi => ?_⟩ }
      · have := h.nodup
        rwa [hlist] at this
      · rcases List.mem_cons.1 hi with rfl | hi
        · exact h.range ⟨n, scanPlaced, .listed⟩ (by simp [hlist])
        · exact h.range i (by simp [hlist, hi])
    split
    · exact (h1 .ready).trans (updateRow_calm _ n (f := fun r => { r with state := .erasing }) fun _ => rfl)
    · exact (h1 .marking).trans (requestMark_calm _ _)
  · exact .refl _

theorem eraseBegun_calm (st : Store) (n : Nat) : st.Calm (st.eraseBegun n) := by
  have h1 : st.Calm { st with
      eraseList := st.eraseList.map fun (e : EraseItem) => if e.sector = n then { e with phase := .ready } else e } := by
    have hsector : ∀ e : EraseItem, (if e.sector = n then { e with phase := .ready } else e).sector = e.sector :=
      fun e => by split <;> rfl
    refine { Calm.refl _ with sectors := fun h => ⟨h.rows, ?_, fun i hi => ?_⟩ }
    · have hmap : ((fun i : EraseItem => i.sector) ∘ fun e => if e.sector = n then { e with phase := .ready } else e) = (·.sector) :=
        funext hsector
      rw [List.map_map, hmap]
      exact h.nodup
    · obtain ⟨e, he, rfl⟩ := List.mem_map.1 hi
      rw [hsector]
      exact h.range e he
  exact h1.trans (updateRow_calm _ n (f := fun r => { r with state := .erasing }) fun _ => rfl)

theorem sectorErased_calm (st : Store) (n : Nat) : st.Calm (st.sectorErased n) := by
  have h1 : st.Calm { st with
      flash := st.flash.erase (slotAddress n 0) Config.sectorBytes
      erase := none
      eraseList := st.eraseList.filter (·.sector != n) } :=
    { Calm.refl _ with sectors := fun h => ⟨h.rows, h.nodup.sublist (List.filter_sublist.map _), fun i hi => h.range i (List.mem_filter.1 hi).1⟩ }
  have h2 := h1.trans (updateRow_calm _ n (f := fun r => { r with
      state := .erased
      seq := none
      eraseCount := min (r.eraseCount + 1) Config.eraseCountMax
      abandoned := 0
      first := none
      last := none }) fun _ => rfl)
  unfold sectorErased
  dsimp only
  split
  · exact h2.trans (openCandidate_calm _)
  · exact h2

/-! ## The erase list (R168, R182) -/

theorem mem_insertErase (st : Store) (i j : EraseItem) (l : List EraseItem) : j ∈ st.insertErase i l ↔ j = i ∨ j ∈ l := by
  induction l with
  | nil => simp [insertErase]
  | cons x l ih =>
    unfold insertErase
    split
    · simp
    · simp only [List.mem_cons, ih]
      tauto

theorem insertErase_nodup (st : Store) {i : EraseItem} {l : List EraseItem} (hl : (l.map (·.sector)).Nodup)
    (hi : ∀ j ∈ l, j.sector ≠ i.sector) : ((st.insertErase i l).map (·.sector)).Nodup := by
  induction l with
  | nil => simp [insertErase]
  | cons x l ih =>
    obtain ⟨hx, hl'⟩ := List.nodup_cons.1 (List.map_cons ▸ hl)
    unfold insertErase
    split
    · refine List.nodup_cons.2 ⟨fun hm => ?_, hl⟩
      obtain ⟨j, hj, he⟩ := List.mem_map.1 hm
      exact hi j hj he
    · refine List.nodup_cons.2 ⟨fun hm => ?_, ih hl' fun j hj => hi j (by simp [hj])⟩
      obtain ⟨j, hj, he⟩ := List.mem_map.1 hm
      rcases (mem_insertErase st i j l).1 hj with rfl | hj
      · exact hi x (by simp) he.symm
      · exact hx (List.mem_map.2 ⟨j, hj, he⟩)

/-- A log sector that joins the erase list leaves it a list of log sectors, none twice. -/
theorem listErase_fits (st : Store) {rows : List SectorRow} {l : List EraseItem} {n : Nat} (hn : 128 ≤ n ∧ n < 512)
    (h : SectorsFit rows l) : SectorsFit rows (st.listErase l n) := by
  unfold listErase
  split
  · exact h
  · next hnot =>
    refine ⟨h.rows, insertErase_nodup st h.nodup fun j hj he => hnot ?_, fun i hi => ?_⟩
    · exact List.any_eq_true.2 ⟨j, hj, by simpa using he⟩
    · rcases (mem_insertErase st _ i l).1 hi with rfl | hi
      · exact hn
      · exact h.range i hi

/-! ## Reads, erases and marks (R166, R178) -/

theorem orphanEngineRead_calm (st : Store) : st.Calm st.orphanEngineRead := by
  unfold orphanEngineRead
  split
  · exact { Calm.refl _ with header := fun h => ⟨h.1, by simp⟩ }
  · exact { Calm.refl _ with header := fun h => ⟨h.1, by simp⟩ }
  · exact .refl _

theorem orphanUploadRead_calm (st : Store) : st.Calm st.orphanUploadRead := by
  unfold orphanUploadRead
  split
  · exact { Calm.refl _ with header := fun h => ⟨h.1, by simp⟩ }
  · exact .refl _

theorem requestUploaded_calm (st : Store) (mark : Nat) : st.Calm (st.requestUploaded mark) := by
  unfold requestUploaded
  generalize st.rows.filter _ = l
  induction l generalizing st with
  | nil => exact .refl st
  | cons r l ih => exact (st.requestMark_calm _).trans (ih _)

end Store

theorem beginErase_calm (st : Store) : st.Calm (beginErase st) := by
  unfold beginErase
  repeat' split
  · exact .refl st
  · exact { Store.Calm.refl st with }
  · exact { Store.Calm.refl st with }
  · exact .refl st

/-! ## The sorted rows (R158) -/

theorem mem_insertRow (r x : Nat × SectorRow) (l : List (Nat × SectorRow)) : x ∈ insertRow r l ↔ x = r ∨ x ∈ l := by
  induction l with
  | nil => simp [insertRow]
  | cons y l ih =>
    unfold insertRow
    split
    · simp
    · simp only [List.mem_cons, ih]
      tauto

theorem insertRow_perm (r : Nat × SectorRow) (l : List (Nat × SectorRow)) : (insertRow r l).Perm (r :: l) := by
  induction l with
  | nil => exact .refl _
  | cons y l ih =>
    unfold insertRow
    split
    · exact .refl _
    · exact (ih.cons y).trans (.swap r y l)

/-- The rows that carry a sequence, in their order. -/
theorem sortRows_perm (rows : List SectorRow) :
    (sortRows rows).Perm (rows.filterMap fun r => r.seq.map fun q => (q, r)) := by
  unfold sortRows
  induction rows.filterMap fun r => r.seq.map fun q => (q, r) with
  | nil => exact .refl _
  | cons r l ih => exact (insertRow_perm r _).trans (ih.cons r)

theorem mem_sortRows {rows : List SectorRow} {q : Nat} {r : SectorRow} :
    (q, r) ∈ sortRows rows ↔ r ∈ rows ∧ r.seq = some q := by
  rw [(sortRows_perm rows).mem_iff]
  simp only [List.mem_filterMap, Option.map_eq_some_iff, Prod.mk.injEq]
  constructor
  · rintro ⟨r', hr', q', hq', rfl, rfl⟩
    exact ⟨hr', hq'⟩
  · rintro ⟨hr, hq⟩
    exact ⟨r, hr, q, hq, rfl, rfl⟩

/-! ## Appends (R160) -/

theorem calm_store {s : State} {st : Store} (h : s.store.Calm st) : Calm s { s with store := st } :=
  { Calm.refl s with
    page := h.page
    sectors := h.sectors
    seq := h.seq
    header := h.header
    counters := by simp [countersKept_iff, h.dropped, h.faults] }

/-- A calm change of the store beside one of the conditions. -/
theorem calm_store_conds {s : State} {st : Store} (c : Conditions) (h : s.store.Calm st) :
    Calm s { s with store := st, startup := { s.startup with conds := c } } :=
  { Calm.refl s with
    page := h.page
    sectors := h.sectors
    seq := h.seq
    header := h.header
    counters := by simp [countersKept_iff, h.dropped, h.faults] }

theorem noteFull_calm (s : State) : Calm s s.noteFull := by
  unfold State.noteFull; split
  · exact { Calm.refl _ with }
  · exact .refl s

theorem countFault_calm (s : State) : Calm s s.countFault := calm_store_conds _ { Store.Calm.refl _ with faults := by simp }

theorem countDropped_calm (s : State) : Calm s s.countDropped := calm_store { Store.Calm.refl _ with dropped := by simp }

theorem useFree_calm (s : State) : Calm s (useFree s) := { Calm.refl _ with }

theorem append_calm (s : State) (b : RecordBody) : Calm s (append s b).1 := by
  unfold append
  dsimp only
  split
  · exact .refl s
  · split
    · next hp =>
      refine .trans (calm_store ?_) (noteFull_calm _)
      have hp : s.store.programming = false := by simpa using hp
      have k := Store.programIfDue_calm (s.store.givenNumber.enterPage ⟨s.store.seqCounter, b, s.now⟩)
      refine ⟨fun h => Store.programIfDue_pageFits ?_, k.sectors, ?_, k.header, k.dropped, k.faults⟩
      · have := h.2 hp
        simpa [Store.enterPage, Store.givenNumber] using this
      · exact (Nat.le_succ _).trans k.seq
    · split
      · have h : s.store.Calm (s.store.givenNumber.enterSecond ⟨s.store.seqCounter, b, s.now⟩) :=
          { Store.Calm.refl s.store with seq := Nat.le_succ _ }
        exact .trans (calm_store h) (noteFull_calm _)
      · exact .refl s

theorem appendOrDrop_calm (s : State) (b : RecordBody) : Calm s (appendOrDrop s b) := by
  have h := append_calm s b
  unfold appendOrDrop
  split <;> rename_i heq <;> rw [heq] at h
  · exact h
  · exact h.trans (countDropped_calm _)

theorem giveKept_calm (s : State) (e : Entry) : Calm s (giveKept s e) := by
  unfold giveKept; split
  · exact appendOrDrop_calm s _
  · exact .refl s

end Sys2Proof.Machine
end

section
/-!
PROOF. Of every block, the operations that are calm changes: relays, notices, replies, the session, settings, the receiver and the intake
line, and the end of a command apart from the engine's choice.
-/

namespace Sys2Proof.Machine

/-! ## Relay Unit (chapter 7) -/

/-- A calm change of the Relay Unit: its lists stay within their capacities, its counters in range. -/
theorem calm_relay {s : State} {r : Relay}
    (fits : RelayFits s.relay.list s.relay.heldMemory s.relay.heldPending → RelayFits r.list r.heldMemory r.heldPending)
    (duplicates : CountKept s.relay.duplicates r.duplicates) (confirmed : CountKept s.relay.confirmed r.confirmed)
    (unconfirmed : CountKept s.relay.unconfirmed r.unconfirmed) (heldDrop : CountKept s.relay.heldDrop r.heldDrop) :
    Calm s { s with relay := r } :=
  { Calm.refl s with
    relay := fits
    counters := by simp [countersKept_iff, duplicates, confirmed, unconfirmed, heldDrop] }

/-- Fewer relay list entries, or the same ones changed in what is not their pair. -/
theorem RelayFits.of_sublist {l l' : List RelayEntry} {m : List HeldPair} {p : List HeldItem} (h : RelayFits l m p)
    (hl : (l'.map (·.packet.pair)).Sublist (l.map (·.packet.pair))) : RelayFits l' m p :=
  ⟨by simpa using hl.length_le.trans (by simpa using h.list), h.pairs.sublist hl, h.memory, h.memoryPairs, h.pending, h.pendingPairs⟩

theorem calm_relayList {s : State} {l : List RelayEntry} (hl : (l.map (·.packet.pair)).Sublist (s.relay.list.map (·.packet.pair))) :
    Calm s { s with relay.list := l } :=
  calm_relay (fun h => h.of_sublist hl) (by simp) (by simp) (by simp) (by simp)

theorem selfStore_calm (s : State) (p : Packet) (segment : Nat) (stale : Bool) (target : Option Nat) :
    Calm s (selfStore s p segment stale target) :=
  (appendOrDrop_calm s _).trans (calm_relay id (by simp) (by simp) (by simp) (by simp))

theorem selfStoreEntry_calm (s : State) (e : RelayEntry) : Calm s (selfStoreEntry s e) := selfStore_calm s _ _ _ _

theorem updateEntry_calm (s : State) (tag : Nat) {f : RelayEntry → RelayEntry} (hf : ∀ e, (f e).packet = e.packet) :
    Calm s { s with relay := s.relay.updateEntry tag f } := by
  refine calm_relayList ?_
  have hmap : ((fun e : RelayEntry => e.packet.pair) ∘ fun e => if e.tag = tag then f e else e) = fun e => e.packet.pair := by
    funext e
    dsimp only [Function.comp]
    split
    · rw [hf]
    · rfl
  rw [List.map_map, hmap]

theorem removeRelay_calm (s : State) (tag : Nat) : Calm s { s with relay := s.relay.removeEntry tag } :=
  calm_relayList (List.filter_sublist.map _)

theorem expireWait_calm (s : State) (e : RelayEntry) : Calm s (expireWait s e) := by
  unfold expireWait; split
  · exact updateEntry_calm s _ (f := fun x => { x with phase := .due }) fun _ => rfl
  · exact (selfStoreEntry_calm s e).trans (removeRelay_calm _ _)

theorem judgeHeldEntries_calm (s : State) (n : Nat) : Calm s (judgeHeldEntries s n) := Calm.foldl expireWait_calm _ s

theorem nodup_append_singleton {α : Type} {l : List α} {a : α} (hl : l.Nodup) (ha : a ∉ l) : (l ++ [a]).Nodup :=
  List.nodup_append.2 ⟨hl, by simp, fun x hx y hy hxy => ha (by simp_all)⟩

/-- A list that loses its oldest where it is full and takes one more stays within its capacity. -/
theorem length_push_le {α : Type} {cap : Nat} (hcap : 0 < cap) (l : List α) (x : α) :
    ((if cap ≤ l.length then l.drop 1 else l) ++ [x]).length ≤ max l.length cap := by
  split <;> simp <;> omega

/-- The same for a list that holds nothing twice and takes something new. -/
theorem nodup_push {α β : Type} {f : α → β} {p : Prop} [Decidable p] {l : List α} {x : α} (hl : (l.map f).Nodup)
    (hx : f x ∉ l.map f) : (((if p then l.drop 1 else l) ++ [x]).map f).Nodup := by
  rw [List.map_append]
  split
  · exact nodup_append_singleton (hl.sublist ((List.drop_sublist _ _).map _)) fun hm => hx (((List.drop_sublist _ _).map _).mem hm)
  · exact nodup_append_singleton hl hx

theorem requestHeld_calm (s : State) (p : HeldPair) : Calm s (requestHeld s p) := by
  unfold requestHeld
  split
  · exact .refl s
  · next hnot =>
    refine .trans (t := { s with nextTag := s.nextTag + 1 }) { Calm.refl _ with } (calm_relay (fun h => ?_) (by simp) (by simp) (by simp) ?_)
    · have hp : p ∉ s.relay.heldPending.map (·.pair) := by
        intro hm
        obtain ⟨i, hi, rfl⟩ := List.mem_map.1 hm
        exact hnot (List.any_eq_true.2 ⟨i, hi, by simp⟩)
      refine ⟨h.list, h.pairs, h.memory, h.memoryPairs, ?_, ?_⟩
      · have := length_push_le (cap := Config.heldPendingCapacity) (by decide) s.relay.heldPending ⟨s.nextTag, p⟩
        have hle : s.relay.heldPending.length ≤ 16 := h.pending
        simp only [decide_eq_true_eq]
        exact this.trans (max_le hle (by decide))
      · exact nodup_push h.pendingPairs hp
    · exact countKept_ite (countKept_countUp _) (countKept_refl _)

/-- The list of a station that is full has its oldest entry self-stored and removed (R122). -/
theorem evictRelay_calm (s : State) : Calm s (evictRelay s) := by
  unfold evictRelay
  repeat' split
  · exact .refl s
  · exact .refl s
  · next e rest hlist =>
    have hl : (selfStoreEntry s e).relay.list = e :: rest := by
      have h := onlyAppends_of_apart (appendOrDrop_apart s (unconfirmedRecord s e.packet e.segment e.stale e.target))
      change (appendOrDrop s _).relay.list = _
      rw [h.2]
      exact hlist
    exact (selfStoreEntry_calm s e).trans (calm_relayList (by rw [hl]; simp))

theorem evictRelay_list (s : State) : (evictRelay s).relay.list.Sublist s.relay.list ∧
    (s.relay.list.length ≤ 32 → (evictRelay s).relay.list.length < 32) := by
  unfold evictRelay
  split
  · exact ⟨.refl _, fun _ => by assumption⟩
  · split
    · next hnil => exact ⟨by rw [hnil], fun _ => by simp [hnil]⟩
    · next e rest hlist =>
      rw [hlist]
      exact ⟨List.sublist_cons_self e rest, fun h => by simp at h ⊢; omega⟩

theorem newRelay_calm (s : State) (p : Packet) : Calm s (newRelay s p) := by
  unfold newRelay
  split
  · exact selfStore_calm s _ _ _ _
  split
  · exact calm_relay id (by simp) (by simp) (by simp) (by simp)
  · next hnot =>
    obtain ⟨hsub, hlen⟩ := evictRelay_list s
    have h1 := evictRelay_calm s
    generalize evictRelay s = u at hsub hlen h1
    have h2 : Calm u { u with nextTag := u.nextTag + 1 } := { Calm.refl _ with }
    have hp : p.pair ∉ s.relay.list.map (·.packet.pair) := by
      intro hm
      obtain ⟨i, hi, he⟩ := List.mem_map.1 hm
      exact hnot (List.any_eq_true.2 ⟨i, hi, by simpa using he⟩)
    refine { h1 with relay := fun h => ?_ }
    have hu := h1.relay h
    have := hlen h.list
    refine ⟨by simp; omega, ?_, hu.memory, hu.memoryPairs, hu.pending, hu.pendingPairs⟩
    dsimp only
    rw [List.map_append]
    exact nodup_append_singleton hu.pairs fun hm => hp ((hsub.map _).mem hm)

theorem enterHeld_fits {l : List RelayEntry} {m : List HeldPair} {q : List HeldItem} (p : HeldPair) (h : RelayFits l m q) :
    RelayFits l (enterHeld p m) q := by
  refine ⟨h.list, h.pairs, ?_, ?_, h.pending, h.pendingPairs⟩
  · unfold enterHeld
    split
    · exact h.memory
    · exact (length_push_le (cap := Config.heldMemoryCapacity) (by decide) m p).trans (max_le h.memory (by decide))
  · unfold enterHeld
    split
    · exact h.memoryPairs
    · next hnot =>
      have hp : p ∉ m := by simpa using hnot
      have := nodup_push (f := id) (p := Config.heldMemoryCapacity ≤ m.length) (x := p) (by simpa using h.memoryPairs) (by simpa using hp)
      simpa using this

theorem withReading_calm (s : State) : Calm s s.withReading := by
  unfold State.withReading
  split
  · next item hop => exact { Calm.refl _ with op := .of_readsPlan (by rw [hop]; rfl) rfl }
  · exact .refl s

theorem raceReading_calm (s : State) : Calm s (raceReading s) := by
  unfold raceReading
  split
  · refine .trans (t := if Config.readsFirst s.freeIndex = true then s.withReading else s) ?_ { Calm.refl _ with }
    exact .ite (fun _ => withReading_calm s) fun _ => .refl s
  · exact .refl s

theorem deliverHeld_calm (p : HeldPair) (s : State) : Calm s (deliverHeld p s) := by
  refine (raceReading_calm s).trans (calm_relay (fun h => ?_) (by simp) ?_ (by simp) (by simp))
  · have h1 := h.of_sublist (l' := (raceReading s).relay.list.filter fun e => e.packet.pair != p) (List.filter_sublist.map _)
    have h2 := enterHeld_fits p h1
    exact ⟨h2.list, h2.pairs, h2.memory, h2.memoryPairs, (List.length_filter_le _ _).trans h2.pending,
      h2.pendingPairs.sublist (List.filter_sublist.map _)⟩
  · exact countKept_ite (countKept_countUp _) (countKept_refl _)

theorem finishRelay_calm (s : State) (tag dst : Nat) : Calm s (finishRelay s tag dst) :=
  updateEntry_calm s tag (f := fun e => { e with sends := e.sends + 1, lastSend := some s.now, target := some dst, phase := .waiting })
    fun _ => rfl

theorem relayWaitExpires_calm {p : HeldPair} {s u : State} (h : relayWaitExpires p s = some u) : Calm s u := by
  unfold relayWaitExpires onlyIf at h
  repeat' split at h
  all_goals cases h
  · exact expireWait_calm s _
  · exact .refl s

theorem disposeRelays_calm (s : State) : Calm s (disposeRelays s) :=
  (Calm.foldl selfStoreEntry_calm _ s).trans (calm_relayList (List.nil_sublist _))

/-! ## Evaluation Engine: counters, notices, the relay intake queue (chapters 5 to 7) -/

theorem storeUnlisted_calm (s : State) (h : Heard) (o : Origin) : Calm s (storeUnlisted s h o) := by
  unfold storeUnlisted; split
  · exact appendOrDrop_calm s _
  · exact { Calm.refl _ with counters := by simp [countersKept_iff] }

theorem heldForRelayed_calm (s : State) (h : Heard) : Calm s (heldForRelayed s h) := by
  unfold heldForRelayed; split
  · exact requestHeld_calm s _
  · exact .refl s

theorem placeNotice_calm (s : State) (n : Notice) : Calm s (placeNotice s n) := by
  have hothers (h : NoticesFit s.engine.notices) : NoticesFit (s.engine.notices.filter (·.meterId != n.meterId)) :=
    ⟨(List.length_filter_le _ _).trans h.1, h.2.sublist (List.filter_sublist.map _)⟩
  have hnew : n.meterId ∉ (s.engine.notices.filter (·.meterId != n.meterId)).map (·.meterId) := by
    intro hm
    obtain ⟨x, hx, he⟩ := List.mem_map.1 hm
    simpa [he] using (List.mem_filter.1 hx).2
  unfold placeNotice
  refine { Calm.refl _ with notices := fun h => ?notices, counters := ?counters }
  case notices =>
    obtain ⟨hlen, hnodup⟩ := hothers h
    have := length_push_le (cap := Config.noticeCapacity) (by decide) (s.engine.notices.filter (·.meterId != n.meterId))
      { n with tag := s.nextTag }
    simp only [decide_eq_true_eq]
    exact ⟨this.trans (max_le hlen (by decide)), nodup_push hnodup hnew⟩
  case counters =>
    simp only [countersKept_iff, countKept_refl, and_true, true_and]
    exact countKept_ite (countKept_countUp _) (countKept_refl _)

theorem deliverRelayItem_calm (i : RelayItem) (s : State) : Calm s (deliverRelayItem i s) := by
  unfold deliverRelayItem
  split
  · exact { Calm.refl _ with counters := by simp [countersKept_iff] }
  · split
    · next hroom =>
      have hroom : s.engine.relayQueue.length < 8 := hroom
      exact { Calm.refl _ with relayQueue := by simp; omega }
    · exact { Calm.refl _ with counters := by simp [countersKept_iff] }

theorem moveRelayEntry_calm (s : State) (e : RelayEntry) : Calm s (moveRelayEntry s e) := by
  unfold moveRelayEntry
  dsimp only
  split
  · next hroom =>
    have hroom : s.engine.relayQueue.length < 8 := hroom
    exact .trans (t := { s with engine.relayQueue := s.engine.relayQueue ++ [.moved e.packet e.segment e.stale] })
      { Calm.refl _ with relayQueue := by simp; omega } (removeRelay_calm _ _)
  · exact (selfStoreEntry_calm s e).trans (removeRelay_calm _ _)

/-- A request of the station that is neither a build nor a plan check (R76). -/
theorem requestStation_calm (s : State) {r : StationReq} (hb : r ≠ .ownBuild) (hc : r ≠ .planCheck) : Calm s (requestStation s r) :=
  { Calm.refl s with
    requests := fun x hx hm => by
      rcases List.mem_append.1 hm with hm | hm
      · exact hm
      · rcases hx with rfl | rfl
        · exact absurd (List.mem_singleton.1 hm).symm hb
        · exact absurd (List.mem_singleton.1 hm).symm hc }

theorem requestClosures_calm (s : State) (l : List Nat) : Calm s (requestClosures s l) :=
  { Calm.refl s with
    requests := fun x hx hm => by
      rcases List.mem_append.1 hm with hm | hm
      · exact hm
      · obtain ⟨n, -, rfl⟩ := List.mem_map.1 hm
        rcases hx with hx | hx <;> cases hx }

/-- An operation that does not read the plan ends. -/
theorem endOperation_calm {s : State} (h : s.engine.op.readsPlan = false) : Calm s (endOperation s) :=
  { Calm.refl s with
    op := .of_readsPlan h rfl }

theorem rejectRun_calm (s : State) : Calm s (rejectRun s) :=
  { Calm.refl s with
    counters := by simp [countersKept_iff, rejectRun] }

theorem emptyRelayItem_calm (s : State) (i : RelayItem) : Calm s (emptyRelayItem s i) := by
  cases i with
  | moved p segment stale => exact selfStore_calm s _ _ _ _
  | _ => exact { Calm.refl _ with counters := by simp [countersKept_iff, emptyRelayItem] }

theorem emptyQueues_calm (s : State) : Calm s (emptyQueues s) := by
  refine .trans (t := { s with radio.outOfRun := countUpBy s.radio.outOfRun s.radio.queue.length, radio.queue := [] })
    { Calm.refl _ with counters := by simp [countersKept_iff], intake := Nat.zero_le _ } ?_
  exact (Calm.foldl emptyRelayItem_calm _ _).trans { Calm.refl _ with relayQueue := Nat.zero_le _ }

/-! ## Route Tracker (chapter 8) -/

theorem map_figures {f : SegmentRow → SegmentRow} (hf : ∀ r, (f r).figures = r.figures) (l : List SegmentRow) :
    (l.map f).map SegmentRow.figures = l.map SegmentRow.figures := by
  rw [List.map_map]
  exact List.map_congr_left fun r _ => hf r

theorem endSession_calm (s : State) : Calm s (endSession s) :=
  .trans (t := { s with dock.session := s.dock.session.ended }) { Calm.refl _ with } (calm_store (Store.orphanUploadRead_calm _))

theorem tallies_calm (s : State) (l : List TallyItem) (n : Nat) : Calm s { s with tracker.tallies := l, nextTag := n } :=
  { Calm.refl s with }

theorem acceptRun_calm (s : State) : Calm s (acceptRun s) :=
  .trans (t := { s with tracker := s.tracker.startRun })
    { Calm.refl _ with
      rows := map_figures (f := fun r => { r with state := .ahead }) (fun _ => rfl) _
      counters := by simp [countersKept_iff, Tracker.startRun] } (endSession_calm _)

theorem closeSegments_calm (s : State) : Calm s (closeSegments s) :=
  .trans (t := { s with
    tracker.rows := s.tracker.rows.map fun r => { r with state := .closed }
    tracker.watchdog := none }) { Calm.refl _ with rows := map_figures (f := fun r => { r with state := .closed }) (fun _ => rfl) _ } (requestClosures_calm _ _)

theorem takePosition_calm (n : Nat) (s : State) : Calm s (takePosition n s) := by
  have hreach (p : Nat) (r : SegmentRow) : (r.reach p).figures = r.figures := by unfold SegmentRow.reach; split <;> rfl
  have hpass (p l : Nat) (r : SegmentRow) : (r.pass p l).figures = r.figures := by unfold SegmentRow.pass; split <;> rfl
  refine .trans ?_ (requestClosures_calm _ _)
  exact { Calm.refl _ with rows := (map_figures (hpass _ _) _).trans (map_figures (hreach _) _) }

theorem deliverPosition_calm (valid : Byte) (segment : BitVec 16) (s : State) : Calm s (deliverPosition valid segment s) := by
  unfold deliverPosition; split
  · exact takePosition_calm _ s
  · exact .refl s

theorem watchdogExpires_calm (s : State) : Calm s (watchdogExpires s) := { Calm.refl _ with }

theorem askRevisit_calm (x : BitVec 16) (s : State) : Calm s (askRevisit x s) := by
  unfold askRevisit; split <;> exact { Calm.refl _ with }

theorem deliverRevisit_calm (x : BitVec 16) (s : State) : Calm s (deliverRevisit x s) := by
  unfold deliverRevisit; split
  · exact { Calm.refl _ with }
  · exact askRevisit_calm x s

theorem answerQuery_calm (s : State) : Calm s (answerQuery s) := by
  unfold answerQuery
  repeat' split
  · exact .refl s
  · exact askRevisit_calm _ s
  · exact .refl s

/-! ## Presence (chapter 3) -/

theorem remap_calm (s : State) : Calm s (remap s) := { Calm.refl _ with }

theorem presumeAll_calm (s : State) : Calm s (presumeAll s) := { Calm.refl _ with }

theorem presenceExpires_calm (s : State) : Calm s (presenceExpires s) := by
  unfold presenceExpires; dsimp only; split <;> exact { Calm.refl _ with }

theorem startStepSix_calm (s : State) : Calm s (startStepSix s) :=
  { Calm.refl s with
    step := fun h => by cases h }

/-! ## Replies and the session (chapter 10) -/

theorem makeReply_calm (s : State) (b : ReplyBody) : Calm s (makeReply s b) := by
  unfold makeReply
  refine { Calm.refl s with replies := ?replies, counters := ?counters }
  case replies =>
    simp only [decide_eq_true_eq]
    exact length_push_le (cap := Config.replyCapacity) (by decide) _ _
  case counters =>
    simp only [countersKept_iff, countKept_refl, and_true, true_and]
    exact countKept_ite (countKept_countUp _) (countKept_refl _)

theorem replyWith_calm (s : State) (e : Byte) (x : DockStatus) (o : List Byte) : Calm s (replyWith s e x o) := makeReply_calm s _

theorem calm_session (s : State) (x : Session) : Calm s { s with dock.session := x } := { Calm.refl _ with }

theorem uploadEnd_calm (s : State) : Calm s (uploadEnd s) :=
  ((makeReply_calm s _).trans ((makeReply_calm _ _).trans (makeReply_calm _ _))).trans (calm_session _ _)

theorem endSynthesis_calm (s : State) : Calm s (endSynthesis s) := (calm_session s _).trans (uploadEnd_calm _)

theorem synthesize_calm (s : State) (k : RecordBody) (r : List RecordBody) : Calm s (synthesize s k r) :=
  { Calm.refl s with
    seq := Nat.le_succ _ }

theorem synthesizeNext_calm (s : State) : Calm s (synthesizeNext s) := by
  unfold synthesizeNext
  split
  · exact uploadEnd_calm s
  · split
    · exact synthesize_calm s _ _
    · exact (calm_store (Store.requestMark_calm _ _)).trans (calm_session _ _)
    · exact (calm_store (Store.openCandidate_calm _)).trans (calm_session _ _)
    · exact calm_session s _
    · exact endSynthesis_calm s

theorem numberAfterOpening_calm (s : State) : Calm s (numberAfterOpening s) :=
  .ite (fun _ => synthesizeNext_calm s) fun _ => .refl s

theorem reserveAnswers_calm (s : State) (ok : Bool) : Calm s (reserveAnswers s ok) := by
  unfold reserveAnswers; split
  · exact synthesize_calm s _ _
  · exact endSynthesis_calm s

theorem reserveEnded_calm (s : State) (n : Nat) (ok : Bool) : Calm s (reserveEnded s n ok) := by
  have h1 : Calm s (if ok then { s with store.durableBound := n } else s) := .ite (fun _ => { Calm.refl _ with }) fun _ => .refl s
  have h2 (t : State) (ht : Calm s t) : Calm s (if t.dock.session.numberWait then reserveAnswers t ok else t) :=
    .ite (fun _ => ht.trans (reserveAnswers_calm t ok)) fun _ => ht
  exact h2 _ h1

theorem headReached_calm (s : State) : Calm s (headReached s) := (calm_session s _).trans (synthesizeNext_calm _)

theorem holdRecord_calm (s : State) (r : LogRecord) : Calm s (holdRecord s r) := { Calm.refl _ with }

theorem readOn_calm (s : State) (p : LogPos) (n : Nat) : Calm s (readOn s p n) := by
  unfold readOn; split
  · exact calm_session s _
  · exact headReached_calm s

theorem searchOn_calm (s : State) (p : LogPos) (n : Nat) : Calm s (searchOn s p n) := by
  unfold searchOn; split <;> exact calm_session s _

theorem uploadReadEnds_calm (s : State) : Calm s (uploadReadEnds s) := by
  unfold uploadReadEnds
  split
  · exact .refl s
  · unfold searchReadEnds
    repeat' split
    · exact holdRecord_calm s _
    · exact searchOn_calm s _ _
    · exact searchOn_calm s _ _
    · exact calm_session s _
  · unfold tailReadEnds
    split
    · exact holdRecord_calm s _
    · exact headReached_calm s
  · unfold nextReadEnds
    repeat' split
    · exact holdRecord_calm s _
    · exact readOn_calm s _ _
    · exact headReached_calm s

theorem streamOn_calm (s : State) : Calm s (streamOn s) := by
  unfold streamOn; split
  · exact calm_session s _
  · exact synthesizeNext_calm s

theorem finishUpload_calm (s : State) (n : Nat) : Calm s (finishUpload s n) := by
  unfold finishUpload
  dsimp only
  split
  · exact calm_session s _
  · exact (calm_session s _).trans (streamOn_calm _)

theorem finishReply_calm (s : State) (tag : Nat) : Calm s (finishReply s tag) := by
  have hgone : Calm s { s with dock.replies := s.dock.replies.filter (·.tag != tag) } :=
    { Calm.refl _ with replies := (List.length_filter_le _ _).trans (Nat.le_max_left _ _) }
  unfold finishReply
  repeat' split
  · exact finishUpload_calm s _
  · exact hgone
  · exact hgone

theorem raiseMark_calm (s : State) (m : Nat) : Calm s (raiseMark s m) := by
  refine .trans (t := { s with store := { s.store with uploadMark := m }.requestUploaded m })
    (calm_store (.trans (b := { s.store with uploadMark := m }) { Store.Calm.refl _ with } (Store.requestUploaded_calm _ m))) ?_
  refine { Calm.refl _ with requests := fun x hx hm => ?_ }
  rcases List.mem_append.1 hm with hm | hm
  · exact hm
  · obtain ⟨y, -, rfl⟩ := List.mem_map.1 hm
    rcases hx with hx | hx <;> cases hx

theorem pauseAfterMark_calm (s : State) : Calm s (pauseAfterMark s) := by
  unfold pauseAfterMark
  repeat' split
  · exact (calm_session s _).trans (streamOn_calm _)
  · exact calm_session s _
  · exact .refl s

theorem uploadMark_calm (m : Nat) (s : State) : Calm s (uploadMark m s) := by
  unfold uploadMark
  split
  · exact replyWith_calm s _ _ _
  · exact (Calm.ite (fun _ => raiseMark_calm s m) fun _ => .refl s).trans (pauseAfterMark_calm _)

theorem uploadClose_calm (s : State) : Calm s (uploadClose s) := (endSession_calm s).trans (replyWith_calm _ _ _ _)

/-- The sectors that ERASE UPLOADED lists are sectors of the table. -/
theorem mem_uploadedSectors {st : Store} {n : Nat} (h : n ∈ st.uploadedSectors) : ∃ r ∈ st.rows, r.sector = n := by
  obtain ⟨⟨q, r⟩, hr, rfl⟩ := List.mem_map.1 h
  exact ⟨r, (List.mem_filter.1 (mem_sortRows.1 hr).1).1, rfl⟩

theorem eraseUploaded_calm (s : State) : Calm s (eraseUploaded s) := by
  have hfold (l : List Nat) (items : List EraseItem) (rows : List SectorRow) (hl : ∀ n ∈ l, 128 ≤ n ∧ n < 512)
      (h : SectorsFit rows items) : SectorsFit rows (l.foldl s.store.listErase items) := by
    induction l generalizing items with
    | nil => exact h
    | cons n l ih => exact ih _ (fun n hn => hl n (by simp [hn])) (Store.listErase_fits _ (hl n (by simp)) h)
  refine .trans ?_ (replyWith_calm _ _ _ _)
  refine calm_store { Store.Calm.refl _ with sectors := fun h => ?_ }
  have hl : ∀ n ∈ s.store.uploadedSectors, 128 ≤ n ∧ n < 512 := by
    intro n hn
    obtain ⟨r, hr, rfl⟩ := mem_uploadedSectors hn
    exact h.rows r hr
  have h1 := hfold _ _ _ hl h
  refine ⟨fun r hr => ?_, h1.nodup, h1.range⟩
  obtain ⟨x, hx, rfl⟩ := List.mem_map.1 hr
  have := h.rows x hx
  split <;> exact this

theorem clearFindings_calm (s : State) : Calm s (clearFindings s) := by
  unfold clearFindings; split
  · exact requestStation_calm s (by simp) (by simp)
  · exact replyWith_calm s _ _ _

/-! ## The plan load and settings (chapters 10 and 11) -/

theorem planData_calm (index : Nat) (record : List Byte) (s : State) : Calm s (planData index record s) := by
  unfold planData
  split
  · next htakes =>
    have hlen : s.dock.load.queue.length < 64 := by
      simp only [PlanLoad.takes, Bool.and_eq_true, decide_eq_true_eq] at htakes
      exact htakes.2
    exact { Calm.refl _ with writeQueue := by simp; omega }
  · exact { Calm.refl _ with }

theorem planStatus_calm (s : State) (result : Byte) : Calm s (planStatus s result) :=
  .trans (t := { s with dock.load.phase := .none }) { Calm.refl _ with ending := fun h => ⟨h.1, by simp⟩ } (replyWith_calm _ _ _ _)

theorem settingWrite_calm (offset : Nat) (data : List Byte) (s : State) : Calm s (settingWrite offset data s) :=
  .trans (t := { s with startup.image := placeBytes s.startup.image offset data }) { Calm.refl _ with } (replyWith_calm _ _ _ _)

theorem settingSave_calm (s : State) : Calm s (settingSave s) := by unfold settingSave; split <;> exact { Calm.refl _ with }

theorem saveReplies_calm (result : Byte) (n : Nat) (s : State) : Calm s (saveReplies result n s) := by
  induction n generalizing s with
  | zero => exact .refl s
  | succ n ih => exact (replyWith_calm s _ _ _).trans (ih _)

theorem nextSave_calm (s : State) : Calm s (nextSave s) := by unfold nextSave; split <;> exact { Calm.refl _ with }

theorem saveEnds_calm (job : SaveJob) (ok : Bool) (s : State) : Calm s (saveEnds job ok s) := by
  have h (c : Memory) (x : Conditions) (n : Nat) : Calm s { s with startup := { s.startup with cfg := c, conds := x }, freeIndex := n } :=
    { Calm.refl s with }
  unfold saveEnds
  dsimp only
  generalize s.startup.cfg.tornWrite s.freeIndex 0 savedImageBytes = torn
  refine .trans ?_ ((saveReplies_calm _ _ _).trans (nextSave_calm _))
  exact .ite (fun _ => h _ _ _) fun _ => h _ _ _

theorem clearConditions_calm (s : State) : Calm s (clearConditions s) := { Calm.refl _ with }

theorem dockClear_calm (s : State) : Calm s (dockClear s) := (clearConditions_calm s).trans (replyWith_calm _ _ _ _)

/-! ## Intake line (chapter 1) -/

/-- A calm change of the Radio Intake. -/
theorem calm_radio {s : State} {r : Radio} (hqueue : r.queue.length ≤ max s.radio.queue.length 16)
    (hline : CountKept s.radio.lineErrors r.lineErrors) (hcrc : CountKept s.radio.intakeCrc r.intakeCrc)
    (hmalformed : CountKept s.radio.malformed r.malformed) (hrun : CountKept s.radio.outOfRun r.outOfRun)
    (hoverrun : CountKept s.radio.overrun r.overrun) : Calm s { s with radio := r } :=
  { Calm.refl s with
    intake := hqueue
    counters := by simp [countersKept_iff, hline, hcrc, hmalformed, hrun, hoverrun] }

theorem character_calm (s : State) (data : Byte) (parity stop : Bool) : Calm s { s with radio := s.radio.character data parity stop } := by
  have hspoil (r : Radio) : r.spoil.queue = r.queue ∧ CountKept r.lineErrors r.spoil.lineErrors ∧ r.spoil.intakeCrc = r.intakeCrc ∧
      r.spoil.malformed = r.malformed ∧ r.spoil.outOfRun = r.outOfRun ∧ r.spoil.overrun = r.overrun :=
    ⟨rfl, countKept_countUp _, rfl, rfl, rfl, rfl⟩
  have hsame (r : Radio) : r.queue = r.queue ∧ CountKept r.lineErrors r.lineErrors ∧ r.intakeCrc = r.intakeCrc ∧
      r.malformed = r.malformed ∧ r.outOfRun = r.outOfRun ∧ r.overrun = r.overrun := ⟨rfl, countKept_refl _, rfl, rfl, rfl, rfl⟩
  have hgood (r : Radio) : (r.goodCharacter data).queue = r.queue ∧ CountKept r.lineErrors (r.goodCharacter data).lineErrors ∧
      (r.goodCharacter data).intakeCrc = r.intakeCrc ∧ (r.goodCharacter data).malformed = r.malformed ∧
      (r.goodCharacter data).outOfRun = r.outOfRun ∧ (r.goodCharacter data).overrun = r.overrun := by
    unfold Radio.goodCharacter
    repeat' split
    · exact hsame r
    · exact hspoil r
    · exact hsame r
    · exact hspoil r
    · exact hsame r
  have hbad (r : Radio) : r.spoiledCharacter.queue = r.queue ∧ CountKept r.lineErrors r.spoiledCharacter.lineErrors ∧
      r.spoiledCharacter.intakeCrc = r.intakeCrc ∧ r.spoiledCharacter.malformed = r.malformed ∧
      r.spoiledCharacter.outOfRun = r.outOfRun ∧ r.spoiledCharacter.overrun = r.overrun := by
    unfold Radio.spoiledCharacter
    split
    · exact hsame r
    · exact hspoil r
  unfold Radio.character
  dsimp only
  split
  · obtain ⟨hq, hl, hc, hm, ho, hv⟩ := hbad s.radio
    exact calm_radio (by simp [hq]) hl (by simp [hc]) (by simp [hm]) (by simp [ho]) (by simp [hv])
  · obtain ⟨hq, hl, hc, hm, ho, hv⟩ := hgood s.radio
    exact calm_radio (by simp [hq]) hl (by simp [hc]) (by simp [hm]) (by simp [ho]) (by simp [hv])

theorem lineHigh_calm (s : State) : Calm s { s with radio := s.radio.lineHigh } := { Calm.refl _ with }

theorem admitPacket_calm (s : State) (p : Packet) : Calm s (admitPacket s p) := by
  unfold admitPacket
  repeat' split
  · exact { Calm.refl _ with counters := by simp [countersKept_iff] }
  · next hroom =>
    have hroom : s.radio.queue.length < 16 := hroom
    exact { Calm.refl _ with intake := by simp; omega }
  · exact { Calm.refl _ with counters := by simp [countersKept_iff] }

theorem completeFrame_calm (s : State) (bs : List Byte) : Calm s (completeFrame s bs) := by
  unfold completeFrame judgeBubble
  dsimp only
  repeat' split
  · exact { Calm.refl _ with counters := by simp [countersKept_iff] }
  · exact { Calm.refl _ with counters := by simp [countersKept_iff] }
  · exact { Calm.refl _ with counters := by simp [countersKept_iff] }
  · exact admitPacket_calm s _

theorem gapExpires_calm (s : State) : Calm s (gapExpires s) := by
  have hidle : Calm s { s with radio := { s.radio with line := .idle, gapRunning := false } } := { Calm.refl _ with }
  unfold gapExpires
  dsimp only
  split
  · split
    · exact hidle.trans (completeFrame_calm _ _)
    · exact { Calm.refl _ with counters := by simp [countersKept_iff] }
  · exact hidle

/-! ## Rack line (chapter 2) -/

theorem received_calm (s : State) : Calm s s.received :=
  { Calm.refl s with
    counters := by simp [countersKept_iff] }

theorem duplicateFrame_calm (s : State) : Calm s (duplicateFrame s) := { Calm.refl _ with }

theorem receiveTo_calm (s : State) (x : RxState) : Calm s (receiveTo s x) := { Calm.refl _ with }

theorem countFormat_calm (s : State) : Calm s (countFormat s) := by
  unfold countFormat; split
  · exact .refl s
  · exact { Calm.refl _ with counters := by simp [countersKept_iff] }

theorem countCrc_calm (s : State) : Calm s (countCrc s) := by
  unfold countCrc; split
  · exact .refl s
  · exact { Calm.refl _ with counters := by simp [countersKept_iff] }

theorem receiveFault_calm {v : Option LineVerdict} {s u : State} (h : receiveFault v s = some u) : Calm s u := by
  unfold receiveFault at h
  repeat' split at h
  all_goals cases h
  · exact receiveTo_calm s _
  · exact (countFormat_calm s).trans (receiveTo_calm _ _)
  · exact (countFormat_calm s).trans (receiveTo_calm _ _)
  · exact (countFormat_calm s).trans (receiveTo_calm _ _)
  · exact (countCrc_calm s).trans (receiveTo_calm _ _)
  · exact (countCrc_calm s).trans (receiveTo_calm _ _)

theorem cleanRetry_calm (s : State) : Calm s (cleanRetry s) := by
  unfold cleanRetry
  repeat' split
  all_goals first
    | exact .refl s
    | exact { Calm.refl _ with }

theorem offer_calm (s : State) : Calm s (offer s) := by
  unfold offer
  repeat' split
  all_goals first
    | exact .refl s
    | exact { Calm.refl _ with }

/-! ## Flash (chapter 9) -/

theorem programFlash_calm (ok : Bool) (a : Nat) (bs : List Byte) (s : State) : Calm s (programFlash ok a bs s) := by
  unfold programFlash
  split
  · exact calm_store { Store.Calm.refl _ with }
  · refine .trans (t := { s.countFault with store := { s.countFault.store with
      flash := s.store.flash.tornProgram s.freeIndex a bs } }) ?_ (useFree_calm _)
    exact (countFault_calm s).trans (calm_store { Store.Calm.refl _ with })

/-- The flash is free: what it served has ended. -/
theorem served_calm (s : State) : Calm s { s with store.serving := none } :=
  calm_store { Store.Calm.refl _ with header := fun h => ⟨h.1, by simp⟩ }

theorem headerMarkEnds_calm {ok : Bool} {s u : State} (h : headerMarkEnds ok s = some u) : Calm s u := by
  unfold headerMarkEnds at h
  split at h
  · next m _ =>
    cases h
    refine ((served_calm s).trans (programFlash_calm ok (slotAddress m.sector 0 + m.offset) m.pattern _)).trans ?_
    generalize programFlash ok (slotAddress m.sector 0 + m.offset) m.pattern _ = t
    cases m with
    | full n | retired n => exact .refl t
    | uploaded n =>
      exact .ite (fun _ => calm_store (Store.updateRow_calm _ _ (f := fun r =>
        { r with state := if r.state = .full then .uploaded else r.state }) fun _ => rfl)) fun _ => .refl t
    | eraseBegun n => exact calm_store (Store.eraseBegun_calm _ _)
    | reserve n k bound => exact reserveEnded_calm t bound ok
  · cases h

theorem requestPlanRecord_calm (s : State) : Calm s (requestPlanRecord s) := by
  unfold requestPlanRecord
  split
  all_goals first
    | exact .refl s
    | exact calm_store { Store.Calm.refl _ with header := fun h => ⟨by simpa using h.1, h.2⟩ }

/-- What a program requested at rank 1 is served as (R166). -/
theorem serveProgram_calm (s : State) {p : ProgramReq} (hp : p ∈ s.store.progs) : Calm s (serveProgram s p) := by
  have hrest : .planHeader ∉ s.store.progs → .planHeader ∉ s.store.progs.erase p := fun h hm => h (List.mem_of_mem_erase hm)
  have herase : Calm s { s with store.progs := s.store.progs.erase p } := calm_store { Store.Calm.refl _ with header := fun h => ⟨hrest h.1, h.2⟩ }
  unfold serveProgram
  dsimp only
  split
  · exact calm_store { Store.Calm.refl _ with header := fun h => ⟨hrest h.1, by simp⟩ }
  · exact calm_store { Store.Calm.refl _ with header := fun h => ⟨hrest h.1, by simp⟩ }
  · exact calm_store { Store.Calm.refl _ with header := fun h => absurd hp h.1 }
  · unfold servePlanRecord
    split
    · next i bs rest hq =>
      refine { Calm.refl _ with header := fun h => ⟨hrest h.1, by simp⟩, writeQueue := ?_ }
      have hq : s.dock.load.queue = (i, bs) :: rest := hq
      simp [hq]
    · exact herase

theorem arbitrate_calm (s : State) : Calm s (arbitrate s) := by
  have hserve (x : Serving) (hx : x ≠ .planHeader) : Calm s { s with store.serving := some x } :=
    calm_store { Store.Calm.refl _ with header := fun h => ⟨h.1, by simpa using hx⟩ }
  unfold arbitrate
  split
  · exact .refl s
  split
  · next p hp => exact serveProgram_calm s (List.mem_of_find?_eq_some hp)
  split
  · exact hserve _ (by simp)
  split
  · exact hserve _ (by simp)
  split
  · exact hserve _ (by simp)
  split
  · exact calm_store { Store.Calm.refl _ with header := fun h => ⟨h.1, by simp⟩ }
  · exact calm_store (beginErase_calm _)

/-- What follows at the end of a command after the engine's choice is calm (log 12). -/
theorem settle_calm_after_choice (s : State) : Calm (engineChoose (engineChoose s)) (settle s) := by
  unfold settle
  dsimp only
  exact (calm_store (Store.serviceEraseList_calm _)).trans ((requestPlanRecord_calm _).trans ((arbitrate_calm _).trans
    ((noteFull_calm _).trans ((answerQuery_calm _).trans ((cleanRetry_calm _).trans (offer_calm _))))))

theorem tick_calm (s : State) : Calm s (tick s) := by
  unfold tick; split
  · exact { Calm.refl _ with }
  · exact .refl s

end Sys2Proof.Machine
end

section
/-!
PROOF. The moves of the station: beside the calm changes, the few changes of the route table, the plan, the run state, the shares and the
engine's operation that commands are made of, each with what is known where it happens. A law of every step is a law of the moves.
-/

namespace Sys2Proof.Machine

/-! ## Moves of the shares (R45, R46, R52, R53) -/

/-- One move of a recomputation. -/
inductive ShareMove : State → State → Prop where
  | calm {s t : State} (h : Calm s t) : ShareMove s t
  | queues {s : State} (n : Nat) (range : 1 ≤ n ∧ n ≤ s.settings.collectors) (state : s.shareState n = .notMine)
      (running : s.isRunning = true) : ShareMove s (queueShare s n)
  | unqueues {s : State} (n : Nat) (range : 1 ≤ n) (state : s.shareState n = .queued) :
      ShareMove s { s with presence :=
        { s.presence.setShare n .notMine with adoptQueue := s.presence.adoptQueue.filter (· != n) } }
  | abandons {s : State} (n : Nat) (range : 1 ≤ n ∨ s.engine.op.loads = some n) (state : s.shareState n = .loading) :
      ShareMove s { stopLoad s n with presence := s.presence.setShare n .notMine }
  | releases {s : State} (n : Nat) (state : s.shareState n = .adopted) : ShareMove s (requestRelease s n)

/-- A chain of moves of the shares. -/
abbrev ShareMoves : State → State → Prop := Relation.ReflTransGen ShareMove

theorem Calm.shareMoves {s t : State} (h : Calm s t) : ShareMoves s t := .single (.calm h)

theorem compareShare_moves (s : State) {n : Nat} (hn : 1 ≤ n ∧ n ≤ s.settings.collectors) : ShareMoves s (compareShare s n) := by
  unfold compareShare
  split
  · next hstate hmine =>
    have hrun : s.isRunning = true := by simp only [Bool.and_eq_true] at hmine; exact hmine.2
    exact .single (.queues n hn hstate hrun)
  · next hstate _ => exact .tail (.single (.unqueues n hn.1 hstate)) (.calm (judgeHeldEntries_calm _ _))
  · next hstate _ => exact .tail (.single (.abandons n (.inl hn.1) hstate)) (.calm (judgeHeldEntries_calm _ _))
  · next hstate _ => exact .single (.releases n hstate)
  · exact .refl

/-- The queues and lists that only calm changes touch are within their capacities (`WithinCapacity`). -/
def ListsFit (s : State) : Prop :=
  s.radio.queue.length ≤ 16 ∧ s.engine.relayQueue.length ≤ 8 ∧ RelayFits s.relay.list s.relay.heldMemory s.relay.heldPending ∧
  NoticesFit s.engine.notices ∧ s.dock.replies.length ≤ 8 ∧ PageFits s.store.pageBuf s.store.programming ∧
  s.dock.load.queue.length ≤ 64 ∧ SectorsFit s.store.rows s.store.eraseList

theorem Calm.listsFit {s t : State} (h : Calm s t) (hs : ListsFit s) : ListsFit t := by
  obtain ⟨hintake, hqueue, hrelay, hnotices, hreplies, hpage, hwrite, hsectors⟩ := hs
  exact ⟨h.intake.trans (max_le hintake le_rfl), h.relayQueue.trans (max_le hqueue le_rfl), h.relay hrelay, h.notices hnotices,
    h.replies.trans (max_le hreplies le_rfl), h.page hpage, h.writeQueue.trans (max_le hwrite le_rfl), h.sectors hsectors⟩

/-- What every move keeps: the settings, the straps, the counters' range, the lists' capacities; and the sequence counter never falls. -/
structure Kept (s t : State) : Prop where
  settings : t.startup.settings = s.startup.settings
  straps : t.startup.straps = s.startup.straps
  step : t.startup.step = .config → s.startup.step = .config
  counters : CountersKept s t
  seq : s.store.seqCounter ≤ t.store.seqCounter
  lists : ListsFit s → ListsFit t

theorem Kept.refl (s : State) : Kept s s := ⟨rfl, rfl, id, .refl s, Nat.le_refl _, id⟩

theorem Kept.trans {s t u : State} (h : Kept s t) (k : Kept t u) : Kept s u :=
  ⟨k.settings.trans h.settings, k.straps.trans h.straps, h.step ∘ k.step, h.counters.trans k.counters, h.seq.trans k.seq,
    k.lists ∘ h.lists⟩

theorem Calm.kept {s t : State} (h : Calm s t) : Kept s t := ⟨h.settings, h.straps, h.step, h.counters, h.seq, h.listsFit⟩

/-- What the moves of the shares keep beside: the run state and the plan; and none begins to read the plan. -/
structure ShareFrame (s t : State) : Prop extends Kept s t where
  runState : t.engine.runState = s.engine.runState
  plan : t.engine.plan = s.engine.plan
  quiet : s.engine.op.readsPlan = false → t.engine.op.readsPlan = false

theorem ShareFrame.refl (s : State) : ShareFrame s s := ⟨.refl s, rfl, rfl, id⟩

theorem ShareFrame.trans {s t u : State} (h : ShareFrame s t) (k : ShareFrame t u) : ShareFrame s u :=
  ⟨h.toKept.trans k.toKept, k.runState.trans h.runState, k.plan.trans h.plan, k.quiet ∘ h.quiet⟩

theorem Calm.quiet {s t : State} (h : Calm s t) (hq : s.engine.op.readsPlan = false) : t.engine.op.readsPlan = false :=
  Bool.eq_false_iff.2 fun ht => by simp [h.op.readsPlan ht] at hq

theorem Calm.shareFrame {s t : State} (h : Calm s t) : ShareFrame s t := ⟨h.kept, h.runState, h.plan, h.quiet⟩

theorem stopLoad_shareFrame (s : State) (n : Nat) : ShareFrame s (stopLoad s n) := by
  let t : State := { dropLoadEntries s n with engine.op := .idle, engine.untracked := s.engine.untracked.filter (·.1 != n) }
  have h1 : ShareFrame s t := { ShareFrame.refl s with quiet := fun _ => rfl }
  exact h1.trans (calm_store (s := t) (Store.orphanEngineRead_calm s.store)).shareFrame

theorem ShareMove.frame {s t : State} (h : ShareMove s t) : ShareFrame s t := by
  cases h with
  | calm h => exact h.shareFrame
  | queues n _ _ _ => exact { ShareFrame.refl _ with }
  | unqueues n _ _ => exact { ShareFrame.refl _ with }
  | abandons n _ _ => exact (stopLoad_shareFrame s n).trans { ShareFrame.refl _ with }
  | releases n _ => exact { ShareFrame.refl _ with }

theorem ShareMoves.frame {s t : State} (h : ShareMoves s t) : ShareFrame s t := by
  induction h with
  | refl => exact { ShareFrame.refl _ with }
  | tail _ h ih => exact ih.trans h.frame

theorem compareShares_moves (l : List Nat) (s : State) (hl : ∀ n ∈ l, 1 ≤ n ∧ n ≤ s.settings.collectors) :
    ShareMoves s (l.foldl compareShare s) := by
  induction l generalizing s with
  | nil => exact .refl
  | cons n l ih =>
    have h1 := compareShare_moves s (hl n (by simp))
    refine h1.trans (ih _ fun m hm => ?_)
    have : (compareShare s n).settings = s.settings := h1.frame.settings
    rw [this]
    exact hl m (by simp [hm])

theorem mem_allShares {s : State} {n : Nat} : n ∈ s.allShares ↔ 1 ≤ n ∧ n ≤ s.settings.collectors := by
  simp only [State.allShares, List.mem_map, List.mem_range]
  constructor
  · rintro ⟨i, hi, rfl⟩; omega
  · rintro ⟨h1, h2⟩; exact ⟨n - 1, by omega, by omega⟩

/-- A recomputation is a chain of moves of the shares (R45). -/
theorem recompute_moves (s : State) : ShareMoves s (recompute s) := by
  have h1 : Calm s (remap (raceReading s)) := (raceReading_calm s).trans (remap_calm _)
  refine h1.shareMoves.trans (compareShares_moves _ _ fun n hn => ?_)
  have : (remap (raceReading s)).settings = s.settings := h1.settings
  rw [this]
  exact mem_allShares.1 hn

/-! ## Moves -/

/-- What a command finds when it begins: whether the station may build, being past step 2 of the start or building already; whether no
meter stands twice in the route table (R64), and whether every score is that of its detectors (R111), by the settings in use. -/
structure Known where
  awake : Prop
  meters : Prop
  scored : Prop
  settings : Settings

/-- No meter stands twice in the route table (R64). -/
def OneOfEachMeter (s : State) : Prop := (s.engine.table.map (·.meterId)).Nodup

/-- Every score is that of the entry's detectors (R111). -/
def Scored (s : State) : Prop := ∀ e ∈ s.engine.table, e.score = scoreOf s.startup.settings e.detectors

/-- What a command that begins in `s` finds. -/
def State.known (s : State) : Known where
  awake := s.startup.step = .config → ¬ NothingBuilt s
  meters := OneOfEachMeter s
  scored := Scored s
  settings := s.startup.settings

/-- The route table is as the command has found it, as far as meters and scores go. -/
structure Knows (K : Known) (s : State) : Prop where
  meters : K.meters → OneOfEachMeter s
  scored : K.scored → ∀ e ∈ s.engine.table, e.score = scoreOf K.settings e.detectors

theorem knows_known (s : State) : Knows s.known s := ⟨id, id⟩

/-- An entry of the route table, or one that the command has found in it. -/
structure Listed (K : Known) (s : State) (e : Entry) : Prop where
  mem : K.meters → e ∈ s.engine.table
  scored : e ∈ s.engine.table ∨ (K.scored → e.score = scoreOf K.settings e.detectors)

/-- An entry as a plan record makes it, for its place in the laws (R59, R63, R100). -/
structure Entry.IsFresh (e : Entry) : Prop where
  status : e.status = .unread
  score : e.score = 0
  detectors : e.detectors = List.replicate 7 Detector.fresh

/-- A changed entry is of the same meter, origin and place in the plan; its score stands with its detectors, or is that of them (R111). -/
structure ChangesTo (st : Settings) (e e' : Entry) : Prop where
  meterId : e'.meterId = e.meterId
  origin : e'.origin = e.origin
  segment : e'.segment = e.segment
  planIndex : e'.planIndex = e.planIndex
  score : (e'.score = e.score ∧ e'.detectors = e.detectors) ∨ e'.score = scoreOf st e'.detectors

theorem ChangesTo.refl (st : Settings) (e : Entry) : ChangesTo st e e := ⟨rfl, rfl, rfl, rfl, .inl ⟨rfl, rfl⟩⟩

/-- An entry changed in its first-read reference and kept record alone (R69). -/
structure SameReport (e e' : Entry) : Prop where
  meterId : e'.meterId = e.meterId
  origin : e'.origin = e.origin
  segment : e'.segment = e.segment
  planIndex : e'.planIndex = e.planIndex
  status : e'.status = e.status
  suspect : e'.suspect = e.suspect
  score : e'.score = e.score
  detectors : e'.detectors = e.detectors

theorem SameReport.refl (e : Entry) : SameReport e e := ⟨rfl, rfl, rfl, rfl, rfl, rfl, rfl, rfl⟩

/-- The entries of a loaded share have been counted, and the share is ADOPTED (R49). -/
def admitShare (s : State) (n : Nat) : State :=
  let s := (s.engine.entriesOf n).foldl admitEntry s
  { s with presence := s.presence.setShare n .adopted }

/-- A run state that needs a VALID plan is entered with one, by a station that may build, or from such a run state (R137). -/
def ReadyFor (K : Known) (s : State) (p : Option Plan) (r : RunState) : Prop :=
  r.needsPlan = true → (K.awake ∧ p.isSome = true) ∨ (p = s.engine.plan ∧ ∃ x, s.engine.runState = some x ∧ x.needsPlan = true)

/-- One move of the station in a command that has found `K`. -/
inductive Move (K : Known) : State → State → Prop where
  | share {s t : State} (h : ShareMove s t) : Move K s t
  | changes {s : State} (e e' : Entry) (listed : Listed K s e) (change : ChangesTo s.settings e e') (quiet : s.engine.op.readsPlan = false) :
      Move K s (changeEntry s e e')
  | replaces {s : State} (e e' : Entry) (listed : Listed K s e) (same : SameReport e e') :
      Move K s { s with engine := s.engine.replaceEntry e e' }
  | removes {s : State} (e : Entry) (listed : Listed K s e) (quiet : s.engine.op.readsPlan = false ∨ e.status = .handing) :
      Move K s { s with engine := s.engine.dropEntry e, tracker := s.tracker.forget e }
  | checks {s : State} (awake : K.awake) (idle : s.engine.op = .idle) : Move K s { s with engine.op := .planCheckHeader }
  | beginsBuild {s : State} (awake : K.awake) (idle : s.engine.op = .idle) :
      Move K s { s with engine.op := .ownBuild 0, engine.ownUntracked := 0, engine.duplicates := 0, tracker.rows := [] }
  | inserts {s : State} (e : Entry) (fresh : e.IsFresh) (room : s.engine.table.length < 8192)
      (new : s.engine.lookup e.meterId = none)
      (reader : (s.engine.op.builds = true ∧ e.origin = .own) ∨ ∃ n, s.engine.op.loads = some n ∧ e.origin = .adopted n) :
      Move K s { s with engine.table := insertEntry e s.engine.table }
  | builds {s : State} (p : Plan) (reader : s.engine.op.builds = true) :
      Move K s { endOperation s with tracker.rows := freshRows p.segments s.engine.table }
  | beginsLoad {s : State} (n : Nat) (rest : List Nat) (idle : s.engine.op = .idle) (running : s.isRunning = true)
      (front : s.presence.adoptQueue = n :: rest) (none : ∀ e ∈ s.engine.table, e.origin ≠ .adopted n) :
      Move K s { s with
        presence := { s.presence.setShare n .loading with adoptQueue := s.presence.adoptQueue.drop 1 }
        engine.untracked := s.engine.untracked ++ [(n, 0)]
        engine.op := .load n 0 }
  | completes {s u : State} (n : Nat) (reader : s.engine.op.loads = some n) (state : s.shareState n = .loading)
      (calm : Calm (admitShare s n) u) : Move K s (endOperation u)
  | stops {s : State} (n : Nat) (reader : s.engine.op.loads = some n) (state : s.shareState n ≠ .loading) : Move K s (stopLoad s n)
  | closes {s u : State} (state : s.engine.runState = some .rebuilding ∨ s.engine.runState = some .running)
      (calm : Calm { s with engine.runState := some .closing } u) : Move K s (endAdoption u)
  | setsRun {s : State} (p : Option Plan) (r : RunState) (ready : ReadyFor K s p r) :
      Move K s (setRunState { s with engine.plan := p } r)
  | plans {s : State} (awake : K.awake) (p : Plan) : Move K s { s with engine.plan := some p }
  | asks {s : State} (awake : K.awake) : Move K s (requestStation s .ownBuild)
  | header {s : State} (awake : K.awake) : Move K s { s with store.progs := s.store.progs ++ [.planHeader] }
  | loads {s : State} (awake : K.awake) (l : PlanLoad) (queue : l.queue.length ≤ s.dock.load.queue.length) : Move K s { s with dock.load := l }
  | clearsRows {s : State} : Move K s { s with tracker.rows := [] }

/-- A chain of moves. -/
abbrev Moves (K : Known) : State → State → Prop := Relation.ReflTransGen (Move K)

/-- A chain of moves after which the engine reads no plan that it did not read before. -/
structure Goes (K : Known) (s t : State) : Prop where
  moves : Moves K s t
  quiet : s.engine.op.readsPlan = false → t.engine.op.readsPlan = false

section
variable {K : Known} {s t u : State}

theorem Goes.refl (s : State) : Goes K s s := ⟨.refl, id⟩

theorem Goes.trans (h : Goes K s t) (k : Goes K t u) : Goes K s u := ⟨h.moves.trans k.moves, k.quiet ∘ h.quiet⟩

theorem ShareMoves.goes (h : ShareMoves s t) : Goes K s t := ⟨Relation.ReflTransGen.mono (fun _ _ => .share) _ _ h, h.frame.quiet⟩

theorem Calm.goes (h : Calm s t) : Goes K s t := h.shareMoves.goes

theorem Calm.moves (h : Calm s t) : Moves K s t := (h.goes (K := K)).moves

theorem Goes.ite {p : Prop} [Decidable p] (ht : p → Goes K s t) (hu : ¬ p → Goes K s u) : Goes K s (if p then t else u) := by
  split
  · exact ht (by assumption)
  · exact hu (by assumption)

theorem Moves.ite {p : Prop} [Decidable p] (ht : p → Moves K s t) (hu : ¬ p → Moves K s u) : Moves K s (if p then t else u) := by
  split
  · exact ht (by assumption)
  · exact hu (by assumption)

theorem recompute_goes (s : State) : Goes K s (recompute s) := (recompute_moves s).goes

/-- A change of the run state after calm changes. -/
theorem setRunState_goes {r : RunState} (ready : ReadyFor K s s.engine.plan r) : Goes K s (setRunState s r) :=
  ⟨.single (.setsRun s.engine.plan r ready), fun h => (recompute_moves _).frame.quiet h⟩

theorem setRunState_plan_goes (p : Option Plan) {r : RunState} (ready : ReadyFor K s p r) :
    Goes K s (setRunState { s with engine.plan := p } r) :=
  ⟨.single (.setsRun p r ready), fun h => (recompute_moves _).frame.quiet h⟩

theorem setRunState_runState (s : State) (r : RunState) : (setRunState s r).engine.runState = some r :=
  (recompute_moves _).frame.runState

theorem readyFor_of_not (p : Option Plan) {r : RunState} (h : r.needsPlan = false) : ReadyFor K s p r := fun hr => by simp [h] at hr

theorem readyFor_of_runState {r x : RunState} (h : s.engine.runState = some x) (hx : x.needsPlan = true) :
    ReadyFor K s s.engine.plan r := fun _ => .inr ⟨rfl, x, h, hx⟩

end

end Sys2Proof.Machine
end

section
/-!
PROOF. What the commands are made of, as chains of moves: changes of the route table entry by entry, evaluation, the engine's operations,
the changes of the run, the plan load, and the ends of flash programs.
-/

namespace Sys2Proof.Machine

section
variable {K : Known}

/-! ## Entries (R65, R70, R74) -/

theorem Calm.listed {s t : State} {e : Entry} (h : Calm s t) (he : Listed K s e) : Listed K t e := by
  obtain ⟨hmem, hscored⟩ := he
  rw [← h.table] at hmem hscored
  exact ⟨hmem, hscored⟩

theorem listed_of_mem {s : State} {e : Entry} (h : e ∈ s.engine.table) : Listed K s e := ⟨fun _ => h, .inl h⟩

theorem listed_of_lookup {s : State} {m : MeterId} {e : Entry} (h : s.engine.lookup m = some e) : Listed K s e :=
  listed_of_mem (List.mem_of_find?_eq_some h)

/-- The changed entry stands in the place of the old one. -/
theorem mem_replaceEntry {g : Engine} {e : Entry} (e' : Entry) (he : e ∈ g.table) : e' ∈ (g.replaceEntry e e').table :=
  List.mem_map.2 ⟨e, he, by simp⟩

/-- From `s` to `t` every entry but those of the meter of `e` has stayed in the table. -/
def Spares (e : Entry) (s t : State) : Prop := ∀ x ∈ s.engine.table, x.meterId ≠ e.meterId → x ∈ t.engine.table

theorem Calm.spares {e : Entry} {s t u : State} (h : Calm s t) (k : Spares e t u) : Spares e s u := fun x hx => k x (h.table ▸ hx)

theorem spares_of_replace {e e' : Entry} {s t : State} (ht : t.engine.table = (s.engine.replaceEntry e e').table) : Spares e s t := by
  intro x hx hne
  rw [ht]
  exact List.mem_map.2 ⟨x, hx, by simp [hne]⟩

theorem spares_of_drop {e : Entry} {s t : State} (ht : t.engine.table = (s.engine.dropEntry e).table) : Spares e s t := by
  intro x hx hne
  rw [ht]
  exact List.mem_filter.2 ⟨hx, by simpa using hne⟩

/-- Entries of the table taken in turn, each by an operation that spares the others. -/
theorem foldl_goes {f : State → Entry → State}
    (hf : ∀ s e, Listed K s e → s.engine.op.readsPlan = false → Goes K s (f s e) ∧ Spares e s (f s e))
    {l : List Entry} {s : State} (hl : l.Sublist s.engine.table) (hk : Knows K s) (hq : s.engine.op.readsPlan = false) :
    Goes K s (l.foldl f s) := by
  have hnd : K.meters → (l.map (·.meterId)).Nodup := fun h => (hk.meters h).sublist (hl.map _)
  have hmem : ∀ e ∈ l, K.meters → e ∈ s.engine.table := fun e he _ => hl.mem he
  have hscored : ∀ e ∈ l, K.scored → e.score = scoreOf K.settings e.detectors := fun e he h => hk.scored h e (hl.mem he)
  clear hl hk
  induction l generalizing s with
  | nil => exact .refl s
  | cons e l ih =>
    obtain ⟨hgo, hsp⟩ := hf s e ⟨hmem e (by simp), .inr (hscored e (by simp))⟩ hq
    refine hgo.trans (ih (hgo.quiet hq) (fun h => (List.nodup_cons.1 (List.map_cons ▸ hnd h)).2) (fun x hx hk => ?_)
      fun x hx => hscored x (by simp [hx]))
    refine hsp x (hmem x (by simp [hx]) hk) fun he => ?_
    exact (List.nodup_cons.1 (List.map_cons ▸ hnd hk)).1 (List.mem_map.2 ⟨x, hx, he⟩)

theorem changeEntry_goes {s : State} {e e' : Entry} (he : Listed K s e) (hc : ChangesTo s.settings e e')
    (hq : s.engine.op.readsPlan = false) : Goes K s (changeEntry s e e') :=
  ⟨.single (.changes e e' he hc hq), id⟩

theorem replaceEntry_goes {s : State} {e e' : Entry} (he : Listed K s e) (hc : SameReport e e') :
    Goes K s { s with engine := s.engine.replaceEntry e e' } :=
  ⟨.single (.replaces e e' he hc), id⟩

theorem removeEntry_goes {s : State} {e : Entry} (he : Listed K s e) (hq : s.engine.op.readsPlan = false ∨ e.status = .handing) :
    Goes K s (removeEntry s e) := by
  have h1 := giveKept_calm s e
  exact h1.goes.trans ⟨.single (.removes e (h1.listed he) (hq.imp_left h1.quiet)), id⟩

theorem removeEntry_spares (s : State) (e : Entry) : Spares e s (removeEntry s e) := (giveKept_calm s e).spares (spares_of_drop rfl)

theorem handEntry_goes {s : State} {e : Entry} (n : Nat) (he : Listed K s e) (hq : s.engine.op.readsPlan = false) :
    Goes K s (handEntry s n e) ∧ Spares e s (handEntry s n e) := by
  have h1 := giveKept_calm s e
  have h2 : Goes K (giveKept s e) (changeEntry (giveKept s e) e { e with status := .handing, kept := none }) :=
    changeEntry_goes (h1.listed he) { ChangesTo.refl _ _ with } (h1.quiet hq)
  exact ⟨h1.goes.trans (h2.trans (Calm.goes { Calm.refl _ with })), h1.spares (spares_of_replace (e' := { e with status := .handing, kept := none }) rfl)⟩

theorem releaseEntry_goes (n : Nat) {s : State} {e : Entry} (he : Listed K s e) (hq : s.engine.op.readsPlan = false) :
    Goes K s (releaseEntry n s e) ∧ Spares e s (releaseEntry n s e) := by
  unfold releaseEntry
  split
  · exact handEntry_goes n he hq
  · exact handEntry_goes n he hq
  · exact ⟨removeEntry_goes he (.inl hq), removeEntry_spares s e⟩
  · exact ⟨removeEntry_goes he (.inl hq), removeEntry_spares s e⟩
  · exact ⟨removeEntry_goes he (.inl hq), removeEntry_spares s e⟩
  · exact ⟨.refl s, fun x hx _ => hx⟩

theorem resetEntry_goes {s : State} {e : Entry} (he : Listed K s e) (hq : s.engine.op.readsPlan = false) :
    Goes K s (resetEntry s e) ∧ Spares e s (resetEntry s e) := by
  have h1 := giveKept_calm s e
  exact ⟨h1.goes.trans (changeEntry_goes (h1.listed he) { ChangesTo.refl _ _ with } (h1.quiet hq)),
    h1.spares (spares_of_replace (e' := { e with status := .unread, lastHeard := none, firstRead := none, kept := none }) rfl)⟩

/-! ## Evaluation (5.3, 5.4) -/

theorem storeFirstRead_goes {s : State} {e : Entry} (b : RecordBody) (he : Listed K s e) : Goes K s (storeFirstRead s e b) := by
  have h1 := append_calm s b
  unfold storeFirstRead
  split <;> rename_i heq <;> rw [heq] at h1 <;> exact h1.goes.trans (replaceEntry_goes (h1.listed he) { SameReport.refl _ with })

theorem evaluate_goes {s : State} {e : Entry} (p : Packet) (o : Origin) (he : e ∈ s.engine.table) (hq : s.engine.op.readsPlan = false) :
    Goes K s (evaluate s e p o) := by
  unfold evaluate
  extract_lets st new suspectNow s1 s2 s3 s4
  have h1 : Goes K s s1 := changeEntry_goes (listed_of_mem he) { ChangesTo.refl st e with score := .inr rfl } hq
  have hnew : Listed K s1 new := listed_of_mem (mem_replaceEntry new he)
  have h2 : Goes K s1 s2 := .ite (fun _ => storeFirstRead_goes _ hnew) fun _ => .refl _
  have h3 : Calm s2 s3 := Calm.foldl (f := fun s j => appendOrDrop s (evaluatedRecord s .exception o new p j))
    (fun s _ => appendOrDrop_calm s _) _ s2
  have h4 : Calm s3 s4 := .ite (fun _ => appendOrDrop_calm s3 _) fun _ => .refl s3
  refine h1.trans (h2.trans (Calm.goes (h3.trans (h4.trans (.ite (fun _ => placeNotice_calm s4 _) fun _ => .refl s4)))))

theorem lookUpAndEvaluate_goes {s : State} (h : Heard) (x : ShareState) (n : Nat) (hq : s.engine.op.readsPlan = false) :
    Goes K s (lookUpAndEvaluate s h x n) := by
  unfold lookUpAndEvaluate
  dsimp only
  split
  · next e he =>
    have hl : s.engine.lookup h.packet.meterId = some e := by
      split at he
      · split at he
        · cases he
        · cases he; assumption
      · cases he
    have h1 : Goes K s (evaluate s e h.packet (recordOrigin h x n)) := evaluate_goes _ _ (List.mem_of_find?_eq_some hl) hq
    exact h1.trans (.ite (fun _ => (heldForRelayed_calm _ h).goes) fun _ => (requestHeld_calm _ _).goes)
  · exact ((storeUnlisted_calm s h _).trans (heldForRelayed_calm _ h)).goes

theorem classify_goes {s : State} (h : Heard) (r : PacketReading) (hq : s.engine.op.readsPlan = false) : Goes K s (classify s h r) := by
  unfold classify
  dsimp only
  split
  · exact (Calm.trans (s := s) (t := { s with engine.heldDrop := countUp s.engine.heldDrop }) { Calm.refl _ with counters := by simp [countersKept_iff] }
      (heldForRelayed_calm _ h)).goes
  · split
    · exact ((appendOrDrop_calm s _).trans (requestHeld_calm _ _)).goes
    · exact ((appendOrDrop_calm s _).trans (requestHeld_calm _ _)).goes
    · exact lookUpAndEvaluate_goes h _ _ hq
    · exact lookUpAndEvaluate_goes h _ _ hq
    · split
      · exact (newRelay_calm s _).goes
      · exact ((storeUnlisted_calm s h _).trans (heldForRelayed_calm _ h)).goes

theorem receiveHandover_goes {s : State} (p : HandoverPayload) (r : PacketReading) (hq : s.engine.op.readsPlan = false) :
    Goes K s (receiveHandover s p r) := by
  have hdrop : Calm s { s with engine.handoverDrop := countUp s.engine.handoverDrop } := { Calm.refl _ with counters := by simp [countersKept_iff] }
  unfold receiveHandover
  dsimp only
  split
  · exact hdrop.goes
  · split
    · exact hdrop.goes
    · next e he => exact .ite (fun _ => changeEntry_goes (listed_of_lookup he) { ChangesTo.refl _ _ with } hq) fun _ => .refl s

theorem finishPacket_goes {s : State} (i : Taken) (r : PacketReading) (hq : s.engine.op.readsPlan = false) :
    Goes K s (finishPacket s i r) := by
  unfold finishPacket
  split
  · exact classify_goes _ r hq
  · exact receiveHandover_goes _ r hq
  · exact classify_goes _ r hq
  · exact .ite (fun _ => classify_goes _ r hq) fun _ => Calm.goes { Calm.refl _ with counters := by simp [countersKept_iff] }

/-- An operation that reads no plan has done its work, and ends. -/
theorem Goes.endOperation {s t : State} (h : Goes K s t) (hq : s.engine.op.readsPlan = false) : Goes K s (endOperation t) :=
  h.trans (endOperation_calm (h.quiet hq)).goes

theorem packetEnds_goes {s u : State} (h : packetEnds s = some u) : Goes K s u := by
  unfold packetEnds at h
  split at h <;> cases h
  next hop =>
    have hq : s.engine.op.readsPlan = false := by rw [hop]; rfl
    exact (finishPacket_goes _ _ hq).endOperation hq

/-! ## The end of a flush and of a close (R143, R163) -/

theorem finishClose_goes {s : State} (h : s.engine.runState = some .closing) : Goes K s (finishClose s) := by
  have h1 : Calm s { s with engine.closeWaits := false, engine.currentRun := none } := { Calm.refl _ with }
  exact h1.goes.trans (setRunState_goes (readyFor_of_runState (x := .closing) h rfl))

theorem flushEnded_goes (s : State) : Goes K s (flushEnded s) := by
  have hclose (t : State) : Goes K t (if t.engine.closeWaits && t.engine.runState == some .closing then finishClose t else t) :=
    .ite (fun hc => finishClose_goes (by simpa using (Bool.and_eq_true_iff.1 hc).2)) fun _ => .refl t
  have hask (t : State) : Goes K t (if t.dock.session.state = .starting then
      { t with dock.session.ask := some (if t.dock.session.start = 0 then .tail else .search LogPos.start 0) } else t) :=
    .ite (fun _ => (calm_session t _).goes) fun _ => .refl t
  exact ((calm_store (s := s) (st := { s.store with flushing := false }) { Store.Calm.refl s.store with }).goes.trans (hclose { s with store.flushing := false })).trans (hask _)

theorem requestFlush_goes (s : State) : Goes K s (requestFlush s) :=
  .ite (fun _ => flushEnded_goes s) fun _ =>
    (calm_store (.trans (b := { s.store with flushing := true }) { Store.Calm.refl _ with } (Store.programIfDue_calm _))).goes

theorem checkFlush_goes (s : State) : Goes K s (checkFlush s) := .ite (fun _ => flushEnded_goes s) fun _ => .refl s

theorem closeFinish_goes (s : State) : Goes K s (closeFinish s) := by
  have h1 := appendOrDrop_calm s (runMarkRecord s false s.runNumber)
  exact h1.goes.trans ((Calm.goes (s := appendOrDrop s (runMarkRecord s false s.runNumber))
    (t := { appendOrDrop s (runMarkRecord s false s.runNumber) with engine.closeWaits := true }) { Calm.refl _ with }).trans
    (requestFlush_goes _))

theorem closeIfDone_goes (s : State) : Goes K s (closeIfDone s) := .ite (fun _ => closeFinish_goes s) fun _ => .refl s

/-! ## The engine's operations (chapters 3, 4, 6, 8) -/

section
variable {s : State} (hk : Knows K s)
include hk

theorem releaseEnds_goes (n : Nat) (hq : s.engine.op.readsPlan = false) : Goes K s (releaseEnds s n) := by
  have h1 := foldl_goes (f := releaseEntry n) (fun s e he hq => releaseEntry_goes n he hq) (l := s.engine.entriesOf n)
    List.filter_sublist hk hq
  exact (h1.trans (Calm.goes (s := (s.engine.entriesOf n).foldl (releaseEntry n) s) (t := { (s.engine.entriesOf n).foldl (releaseEntry n) s with
    engine.untracked := ((s.engine.entriesOf n).foldl (releaseEntry n) s).engine.untracked.filter (·.1 != n) }) { Calm.refl _ with })).endOperation hq

theorem closeReleaseEnds_goes (hq : s.engine.op.readsPlan = false) : Goes K s (closeReleaseEnds s) := by
  have h1 := foldl_goes (f := removeEntry) (fun s e he hq => ⟨removeEntry_goes he (.inl hq), removeEntry_spares s e⟩)
    (l := s.engine.table.filter fun e => e.origin != .own || e.status == .handing) List.filter_sublist hk hq
  exact (h1.endOperation hq).trans (closeIfDone_goes _)

theorem closureEnds_goes (n : Nat) (hq : s.engine.op.readsPlan = false) : Goes K s (closureEnds s n) := by
  have h1 := foldl_goes (f := missEntry) (fun s e he hq =>
      ⟨changeEntry_goes he { ChangesTo.refl _ _ with } hq, spares_of_replace (e' := { e with status := .missed }) rfl⟩)
    (l := s.engine.table.filter fun e => e.segment == n && e.status == .unread) List.filter_sublist hk hq
  exact ((h1.trans (tallies_calm _ _ _).goes).endOperation hq).trans (closeIfDone_goes _)

theorem resetTable_goes (hq : s.engine.op.readsPlan = false) : Goes K s (resetTable s) :=
  foldl_goes (f := resetEntry) (fun _ _ he hq => resetEntry_goes he hq) (.refl _) hk hq

end

theorem enterRunning_goes {s : State} (run : BitVec 16) {x : RunState} (h : s.engine.runState = some x) (hx : x.needsPlan = true) :
    Goes K s (enterRunning s run) := by
  have h1 : Calm s { presumeAll s with
      engine.currentRun := some run
      engine.openingRun := none
      tracker.watchdog := some s.now
      tracker.stale := true } := { Calm.refl _ with }
  exact h1.goes.trans (setRunState_goes (readyFor_of_runState (x := x) h hx))

theorem newRunBegins_goes {s : State} (hq : s.engine.op.readsPlan = false) : Goes K s (newRunBegins s) := by
  have h1 := endOperation_calm hq
  unfold newRunBegins
  split
  · next run hrun _ =>
    have h2 := h1.trans (appendOrDrop_calm _ (runMarkRecord s true run))
    exact h2.goes.trans (enterRunning_goes run (h2.runState.trans hrun) rfl)
  · exact h1.goes

theorem rebuildEnds_goes {s : State} (hq : s.engine.op.readsPlan = false) : Goes K s (rebuildEnds s) := by
  have h1 := endOperation_calm hq
  exact .ite (fun hrun => h1.goes.trans (enterRunning_goes _ (h1.runState.trans hrun) rfl)) fun _ => h1.goes

theorem rebuildFrom_goes {s : State} (pos : LogPos) (last : Nat) (hq : s.engine.op.readsPlan = false) :
    Goes K s (rebuildFrom s pos last) := by
  unfold rebuildFrom
  split
  · exact Calm.goes { Calm.refl _ with op := .of_readsPlan hq rfl }
  · exact rebuildEnds_goes hq

theorem rebuildBegins_goes {s : State} (mark : Interrupted) (hq : s.engine.op.readsPlan = false) : Goes K s (rebuildBegins s mark) := by
  unfold rebuildBegins
  split
  · exact rebuildFrom_goes _ _ hq
  · split
    · exact rebuildFrom_goes _ _ hq
    · exact rebuildEnds_goes hq

theorem applyRecord_goes {s : State} (r : LogRecord) (hq : s.engine.op.readsPlan = false) : Goes K s (applyRecord s r) := by
  unfold applyRecord
  split
  · exact .refl s
  · split
    · next e he _ => exact changeEntry_goes (listed_of_lookup he) { ChangesTo.refl _ _ with } hq
    · next e he _ => exact changeEntry_goes (listed_of_lookup he) { ChangesTo.refl _ _ with } hq
    · exact .refl s

theorem rebuildReadEnds_goes {s : State} (pos : LogPos) (last : Nat) (hq : s.engine.op.readsPlan = false) :
    Goes K s (rebuildReadEnds s pos last) := by
  unfold rebuildReadEnds
  split
  · split
    · next r _ =>
      have h1 : Goes K s (applyRecord s r) := applyRecord_goes r hq
      exact h1.trans (rebuildFrom_goes _ _ (h1.quiet hq))
    · exact rebuildFrom_goes _ _ hq
  · exact rebuildEnds_goes hq

section
variable {s : State} (hk : Knows K s)
include hk

theorem runResetEnds_goes {u : State} (h : runResetEnds s = some u) : Goes K s u := by
  unfold runResetEnds at h
  split at h
  · next hop =>
    have hq : s.engine.op.readsPlan = false := by rw [hop]; rfl
    cases h
    have h1 : Goes K s (resetTable s) := resetTable_goes hk hq
    exact h1.trans (newRunBegins_goes (h1.quiet hq))
  · next mark hop =>
    have hq : s.engine.op.readsPlan = false := by rw [hop]; rfl
    cases h
    have h1 : Goes K s (resetTable s) := resetTable_goes hk hq
    exact h1.trans (.ite (fun _ => rebuildBegins_goes mark (h1.quiet hq)) fun _ => (endOperation_calm (h1.quiet hq)).goes)
  · cases h

theorem findingsClearEnds_goes (hq : s.engine.op.readsPlan = false) : Goes K s (findingsClearEnds s) := by
  have h1 := foldl_goes (f := fun s e => changeEntry s e (clearEntry s.settings e)) (fun s e he hq =>
      ⟨changeEntry_goes he { ChangesTo.refl s.settings e with score := .inr rfl } hq, spares_of_replace (e' := clearEntry s.settings e) rfl⟩) (.refl _) hk hq
  exact (h1.endOperation hq).trans (replyWith_calm _ _ _ _).goes

theorem emptyingEnds_goes (hq : s.engine.op.readsPlan = false) : Goes K s (emptyingEnds s) := by
  have h1 := foldl_goes (f := removeEntry) (fun s e he hq => ⟨removeEntry_goes he (.inl hq), removeEntry_spares s e⟩) (.refl _) hk hq
  exact (h1.endOperation hq).trans (Calm.goes { Calm.refl _ with })

end

theorem keptReleaseEnds_goes {s : State} (m : MeterId) (n : Nat) (hq : s.engine.op.readsPlan = false) :
    Goes K s (keptReleaseEnds s m n) := by
  have h1 := endOperation_calm hq
  unfold keptReleaseEnds
  dsimp only
  split
  · next e he => exact h1.goes.trans (.ite (fun _ => replaceEntry_goes (listed_of_lookup he) { SameReport.refl _ with }) fun _ => .refl _)
  · exact h1.goes

/-! ## Own frames (R31, R33, R54) -/

theorem finishHandover_goes (s : State) (tag : Nat) : Goes K s (finishHandover s tag) := by
  have hdrop : Calm s (dropHandover s tag) := { Calm.refl _ with }
  unfold finishHandover
  split
  · split
    · next e he => exact .ite (fun hs => removeEntry_goes (listed_of_lookup he) (.inr hs)) fun _ => hdrop.goes
    · exact hdrop.goes
  · exact .refl s

theorem finishItem_goes (s : State) (cls tag dst : Nat) : Goes K s (finishItem s cls tag dst) := by
  unfold finishItem
  split
  · exact Calm.goes { Calm.refl _ with }
  · exact Calm.goes { Calm.refl _ with relay := fun h => ⟨h.list, h.pairs, h.memory, h.memoryPairs, (List.length_filter_le _ _).trans h.pending,
      h.pendingPairs.sublist (List.filter_sublist.map _)⟩ }
  · exact finishHandover_goes s tag
  · exact (finishRelay_calm s tag dst).goes
  · exact Calm.goes { Calm.refl _ with notices := fun h => ⟨(List.length_filter_le _ _).trans h.1, h.2.sublist (List.filter_sublist.map _)⟩ }
  · exact Calm.goes { Calm.refl _ with }
  · exact Calm.goes { Calm.refl _ with }
  · exact (finishReply_calm s tag).goes

theorem finishFrame_goes (s : State) (x : Sending) : Goes K s (finishFrame s x) :=
  .ite (fun _ => finishItem_goes s _ _ _) fun _ => .refl s

theorem frameSent_goes (s : State) (x : Sending) : Goes K s (frameSent s x) :=
  (Calm.goes (s := s) (t := { s with rack.rx := .idle, rack.sending := none, rack.retry := none }) { Calm.refl _ with }).trans (finishFrame_goes _ x)

theorem retryItem_goes (s : State) (x : Sending) : Goes K s (retryItem s x) := by
  unfold retryItem
  dsimp only
  split
  · exact .refl s
  · split
    · exact Calm.goes { Calm.refl _ with }
    · refine (Calm.goes (s := s) (t := { s with
        rack.retry := none
        rack.txDrops := countUp s.rack.txDrops
        startup.conds.txFault := true }) { Calm.refl _ with counters := by simp [countersKept_iff] }).trans (finishFrame_goes _ x)

theorem transmitError_goes (atStart : Bool) (s : State) (x : Sending) : Goes K s (transmitError atStart s x) := by
  refine (Calm.goes (s := s) (t := { s with
    rack.rx := if atStart then .idle else .ownSpoiled
    rack.sending := none
    rack.txErrors := countUp s.rack.txErrors }) { Calm.refl _ with counters := by simp [countersKept_iff] }).trans (retryItem_goes _ x)

/-! ## Run and presence frames (chapters 3 and 8) -/

theorem resumeRun_goes {s : State} (mark : Interrupted) (day : BitVec 16) (h : s.engine.runState = some .ready) :
    Goes K s (resumeRun mark day s) := by
  have h1 : Calm s { acceptRun s with
      engine.currentRun := some mark.run
      engine.runDay := day
      engine.interrupted := none } := (acceptRun_calm s).trans { Calm.refl _ with }
  have h2 : Goes K s _ := h1.goes.trans (setRunState_goes (r := .rebuilding) (readyFor_of_runState (x := .ready) (h1.runState.trans h) rfl))
  exact h2.trans (requestStation_calm _ (by simp) (by simp)).goes

theorem openNewRun_calm (run day : BitVec 16) (s : State) : Calm s (openNewRun run day s) := by
  refine Calm.trans (t := { acceptRun s with
      engine.openingRun := some run
      engine.runDay := day
      engine.interrupted := none }) ((acceptRun_calm s).trans { Calm.refl _ with }) (requestStation_calm _ (by simp) (by simp))

theorem deliverOpen_goes (run day : BitVec 16) (s : State) : Goes K s (deliverOpen run day s) := by
  unfold deliverOpen
  split
  · next hrun _ =>
    unfold judgeOpen
    split
    · exact (rejectRun_calm s).goes
    · split
      · exact .ite (fun _ => resumeRun_goes _ day hrun) fun _ => (openNewRun_calm run day s).goes
      · exact (openNewRun_calm run day s).goes
  · exact .ite (fun _ => .refl s) fun _ => (rejectRun_calm s).goes
  · exact .ite (fun _ => .refl s) fun _ => (rejectRun_calm s).goes
  · exact .ite (fun _ => .refl s) fun _ => (rejectRun_calm s).goes
  · exact .refl s

theorem stopRebuild_calm (s : State) : Calm s (stopRebuild s) := by
  have hrequests (op : EngineOp) (hop : OpKept s.engine.op op) : Calm s { s with
      engine.op := op
      engine.requests := s.engine.requests.filter fun r => match r with
        | .resetRebuild _ => false
        | _ => true } := { Calm.refl _ with requests := fun _ _ h => (List.mem_filter.1 h).1, op := hop }
  unfold stopRebuild
  dsimp only
  split
  · next hop => exact (hrequests .idle (.of_readsPlan (by rw [hop]; rfl) rfl)).trans (calm_store (Store.orphanEngineRead_calm _))
  · exact hrequests s.engine.op (.refl _)

theorem endAdoption_quiet (s : State) (h : s.engine.op.readsPlan = false) : (endAdoption s).engine.op.readsPlan = false := by
  unfold endAdoption
  dsimp only
  split
  · rfl
  · exact h

theorem closeRun_goes {s : State} (h : s.engine.runState = some .rebuilding ∨ s.engine.runState = some .running) :
    Goes K s (closeRun s) := by
  have h1 := withReading_calm s
  have h2 := emptyQueues_calm { s.withReading with engine.runState := some .closing }
  have h3 : Goes K s.withReading (endAdoption (emptyQueues { s.withReading with engine.runState := some .closing })) :=
    ⟨.single (.closes (by rw [h1.runState]; exact h) h2), fun hq => endAdoption_quiet _ (h2.quiet hq)⟩
  refine (h1.goes.trans h3).trans (Calm.goes ?_)
  exact ((stopRebuild_calm _).trans ((disposeRelays_calm _).trans (closeSegments_calm _))).trans { Calm.refl _ with }

theorem deliverClose_goes (run : BitVec 16) (s : State) : Goes K s (deliverClose run s) := by
  unfold deliverClose
  split
  · exact (rejectRun_calm s).goes
  · next hrun => exact .ite (fun _ => closeRun_goes (.inl hrun)) fun _ => (rejectRun_calm s).goes
  · next hrun => exact .ite (fun _ => closeRun_goes (.inr hrun)) fun _ => (rejectRun_calm s).goes
  · exact .refl s

theorem deliverPresence_goes (s : State) (n : Nat) (p : PresencePayload) : Goes K s (deliverPresence s n p) :=
  (Calm.goes (s := s) (t := { s with presence := s.presence.updateView n fun v =>
    { v with contents := some ⟨p.runState, p.run, p.plan⟩, presumed := none } }) { Calm.refl _ with }).trans (recompute_goes _)

theorem heardReport_goes (s : State) (n : Nat) : Goes K s (heardReport s n) :=
  (Calm.goes (s := s) (t := { s with presence := s.presence.updateView n fun v => { v with lastHeard := s.now } }) { Calm.refl _ with }).trans (recompute_goes _)

theorem presumptionExpires_goes (s : State) (n : Nat) : Goes K s (presumptionExpires s n) :=
  (Calm.goes (s := s) (t := { s with presence := s.presence.updateView n fun v => { v with presumed := none } }) { Calm.refl _ with }).trans (recompute_goes _)

/-! ## Dock operations (chapter 10) -/

theorem dockOperation_goes (c : DockColumn) (echo : Byte) {rule : State → State} (h : ∀ s, Goes K s (rule s)) (s : State) :
    Goes K s (dockOperation c echo rule s) := by
  unfold dockOperation
  split
  · exact h s
  · exact .refl s
  · exact (replyWith_calm s _ _ _).goes

theorem uploadOpen_goes (n : Nat) (s : State) : Goes K s (uploadOpen n s) :=
  .ite (fun _ => ((calm_session s { Session.afterStart with state := .starting, start := n }).trans (replyWith_calm _ _ _ _)).goes.trans
    (requestFlush_goes _)) fun _ => (replyWith_calm s _ _ _).goes

/-- The plan is no longer VALID, and a run state that needs none is entered (R184, R186). -/
theorem planFails_goes (s : State) (result : Byte) : Goes K s (planFails s result) :=
  (setRunState_goes (readyFor_of_not _ rfl)).trans (planStatus_calm _ _).goes

theorem planBegin_goes (i : BitVec 32) (c n : Nat) (s : State) : Goes K s (planBegin i c n s) := by
  refine .ite (fun _ => (replyWith_calm s _ _ _).goes) fun _ => ?_
  let l : PlanLoad := { PlanLoad.afterStart with phase := .erasing, ident := i, count := clampCount 16384 c, segments := clampCount 512 n }
  have h1 : Calm s { s with dock.load := l, engine.interrupted := none } :=
    { Calm.refl _ with ending := fun _ => ⟨rfl, fun h => by cases h⟩, writeQueue := Nat.zero_le _ }
  have h2 : Goes K { s with dock.load := l, engine.interrupted := none } _ :=
    setRunState_plan_goes none (r := .loadingErase) (readyFor_of_not _ rfl)
  have h3 := h1.goes.trans (h2.trans (replyWith_calm _ 6 .accepted []).goes)
  refine h3.trans (.trans (t := { replyWith (setRunState { s with
      dock.load := l
      engine.interrupted := none
      engine.plan := none } .loadingErase) 6 .accepted [] with tracker.rows := [] }) ⟨.single .clearsRows, id⟩ ?_)
  exact ((tallies_calm _ [] _).trans (requestStation_calm _ (by simp) (by simp))).goes

/-- A change of the plan load that may leave it at its end, by a station that may build. -/
theorem planLoad_goes {s : State} (l : PlanLoad) (ha : K.awake) (hl : l.queue.length ≤ s.dock.load.queue.length) :
    Goes K s { s with dock.load := l } := ⟨.single (.loads ha l hl), id⟩

theorem planEndJudged_goes {s : State} (ha : K.awake) : Goes K s (planEndJudged s) := by
  refine (planLoad_goes { s.dock.load with check := none } ha le_rfl).trans (.ite (fun _ => ⟨.single (.header ha), id⟩) fun _ => ?_)
  exact planFails_goes _ _

theorem planEndIfDrained_goes {s : State} (ha : s.dock.load.phase = .ending → K.awake) : Goes K s (planEndIfDrained s) := by
  refine .ite (fun h => ?_) fun _ => .refl s
  split
  · exact planEndJudged_goes (ha h.1)
  · exact planLoad_goes _ (ha h.1) le_rfl

theorem planEnd_goes {s : State} (ha : K.awake) : Goes K s (planEnd s) :=
  .ite (fun _ => ((planLoad_goes { s.dock.load with phase := .ending } ha le_rfl).trans (replyWith_calm _ _ _ _).goes).trans
    (planEndIfDrained_goes fun _ => ha)) fun _ => (replyWith_calm s _ _ _).goes

/-! ## Programs and erases (chapter 9) -/

theorem disposeRemoved_goes (s : State) (b : Buffered) : Goes K s (disposeRemoved s b) := by
  unfold disposeRemoved
  split
  · next e he =>
    have hl : s.engine.lookup b.body.meterId = some e := by
      unfold State.entryOfRecord at he
      split at he
      · split at he
        · split at he
          · cases he; assumption
          · cases he
        · cases he
      · cases he
    exact replaceEntry_goes (listed_of_lookup hl) { SameReport.refl _ with }
  · exact (countDropped_calm s).goes

theorem foldl_disposeRemoved_goes (l : List Buffered) (s : State) : Goes K s (l.foldl disposeRemoved s) := by
  induction l generalizing s with
  | nil => exact .refl s
  | cons b l ih => exact (disposeRemoved_goes s b).trans (ih _)

theorem afterFault_goes (s : State) : Goes K s (afterFault s) := by
  have h1 : Calm s { s with store := s.store.resplit.1 } := calm_store (Store.resplit_calm _)
  exact h1.goes.trans ((foldl_disposeRemoved_goes _ _).trans (calm_store (Store.reprogram_calm _)).goes)

theorem pageProgramEnds_goes {ok : Bool} {s u : State} (h : pageProgramEnds ok s = some u) : Goes K s u := by
  unfold pageProgramEnds at h
  split at h
  · next sector slot _ _ =>
    cases h
    refine (served_calm s).goes.trans (.trans ?_ ((noteFull_calm _).goes.trans (checkFlush_goes _)))
    refine .ite (fun _ => ?_) fun _ => ?_
    · exact (calm_store ((Store.pageVerified_calm _ _ _).trans (Store.refill_calm _ _))).goes
    · refine (Calm.goes ?_).trans (afterFault_goes _)
      exact (countFault_calm _).trans ((calm_store (Store.pageAbandoned_calm _ _ _ _)).trans (useFree_calm _))
  · cases h

theorem openingEnds_goes {ok : Bool} {s u : State} (h : openingEnds ok s = some u) : Goes K s u := by
  unfold openingEnds at h
  split at h
  · next o _ _ =>
    cases h
    refine (served_calm s).goes.trans (.trans ?_ ((noteFull_calm _).goes.trans ((checkFlush_goes _).trans (numberAfterOpening_calm _).goes)))
    refine .ite (fun _ => ?_) fun _ => ?_
    · exact (calm_store (Store.opened_calm _ _)).goes
    · refine (Calm.goes ?_).trans (afterFault_goes _)
      exact (countFault_calm _).trans ((calm_store (Store.openingFailed_calm _ _ _)).trans (useFree_calm _))
  · cases h

theorem planSectorErased_goes (n : Nat) (s : State) : Goes K s (planSectorErased n s) := by
  have h1 : Calm s { s with store := { s.store with
    flash := s.store.flash.erase (slotAddress n 0) Config.sectorBytes
    erase := none
    planErase := if n + 1 < Config.firstLogSector then some (n + 1) else none } } := calm_store { Store.Calm.refl _ with }
  have h2 (t : State) : Goes K t (setRunState { t with dock.load.phase := .receiving } .loadingData) :=
    (Calm.goes (s := t) (t := { t with dock.load.phase := .receiving }) { Calm.refl _ with ending := fun h => ⟨h.1, by simp⟩ }).trans
      (setRunState_goes (r := .loadingData) (readyFor_of_not _ rfl))
  exact h1.goes.trans (.ite (fun _ => .refl _) fun _ => (h2 _).trans (replyWith_calm _ _ _ _).goes)

theorem planRecordEnds_goes {ok : Bool} {s u : State} (h : planRecordEnds ok s = some u) (ha : s.dock.load.phase = .ending → K.awake) :
    Goes K s u := by
  unfold planRecordEnds at h
  split at h
  · next i bs _ =>
    cases h
    have h1 := (served_calm s).trans (programFlash_calm ok (planSlotAddress i) bs _)
    have hload : (programFlash ok (planSlotAddress i) bs { s with store.serving := none }).dock.load = s.dock.load := by
      unfold programFlash; split <;> rfl
    generalize programFlash ok (planSlotAddress i) bs { s with store.serving := none } = t at h1 hload
    refine h1.goes.trans (.trans (t := if ok then t else { t with dock.load.bad := t.dock.load.bad ++ [i] }) ?_ (planEndIfDrained_goes ?_))
    · exact .ite (fun _ => .refl t) fun _ => Calm.goes { Calm.refl _ with }
    · rw [← hload] at ha
      split <;> exact ha
  · cases h

theorem planHeaderEnds_goes {ok : Bool} {s u : State} (h : planHeaderEnds ok s = some u) (ha : s.store.serving = some .planHeader → K.awake) :
    Goes K s u := by
  unfold planHeaderEnds at h
  split at h
  · next hserving =>
    cases h
    have h1 := (served_calm s).trans (programFlash_calm ok planHeaderOffset (planHeaderBytes s.dock.load.plan) _)
    have ha := ha hserving
    refine h1.goes.trans (.ite (fun _ => ?_) fun _ => planFails_goes _ _)
    exact ⟨.tail (.single (.plans ha s.dock.load.plan)) (.asks ha), id⟩
  · cases h

end

end Sys2Proof.Machine
end

section
/-!
PROOF. Plan reads, the engine's choice, and every command: each is a chain of moves.
-/

namespace Sys2Proof.Machine

section
variable {K : Known}

/-! ## The build and the plan check (R61, R66) -/

/-- An operation that loads no share ends. -/
theorem endOperation_calm_of_loads {s : State} (h : s.engine.op.loads = none) : Calm s (endOperation s) :=
  { Calm.refl s with
    op := ⟨h.symm, Bool.noConfusion, Bool.noConfusion⟩ }

/-- An operation of another kind goes on in its place. -/
theorem calm_op {s : State} {o : EngineOp} (h : OpKept s.engine.op o) : Calm s { s with engine.op := o } :=
  { Calm.refl s with
    op := h }

theorem buildEnds_moves {s : State} {p : Plan} (ha : K.awake) (hop : s.engine.op.builds = true) (hp : s.engine.plan = some p) :
    Moves K s (buildEnds s p) := by
  have h1 : Move K s { endOperation s with tracker.rows := freshRows p.segments s.engine.table } := .builds p hop
  have h2 : Goes K { endOperation s with tracker.rows := freshRows p.segments s.engine.table }
      (setRunState { endOperation s with tracker.rows := freshRows p.segments s.engine.table } .ready) :=
    setRunState_goes fun _ => .inl ⟨ha, by simp [hp]⟩
  refine (Relation.ReflTransGen.single h1).trans (h2.moves.trans (Moves.ite (fun _ => (startStepSix_calm _).moves) fun _ =>
    Moves.ite (fun _ => (planStatus_calm _ _).moves) fun _ => .refl))

theorem beginBuild_moves {s : State} (ha : K.awake) (hop : s.engine.op = .idle) : Moves K s (beginBuild s) := by
  unfold beginBuild
  split
  · next p hp =>
    refine (Relation.ReflTransGen.single (.beginsBuild ha hop)).trans (Moves.ite (fun _ => .refl) fun _ => ?_)
    exact buildEnds_moves ha rfl hp
  · exact .refl

theorem entryOf_fresh (n i : Nat) (o : EntryOrigin) (bs : List Byte) : (entryOf n i o bs).IsFresh := ⟨rfl, rfl, rfl⟩

theorem buildRecord_moves {s : State} (p : Plan) (i : Nat) (bs : List Byte) (hop : s.engine.op.builds = true) :
    Moves K s (buildRecord s p i bs) := by
  unfold buildRecord
  dsimp only
  repeat' split
  · exact .refl
  · exact Calm.moves { Calm.refl _ with }
  · exact Calm.moves { Calm.refl _ with }
  · next hnew hroom =>
    have hroom : s.engine.table.length < 8192 := not_le.1 hroom
    have hnew : s.engine.lookup (planMeterId bs) = none := by simpa using hnew
    exact .single (.inserts _ (entryOf_fresh _ _ _ _) hroom hnew (.inl ⟨hop, rfl⟩))

theorem buildRecord_keeps (s : State) (p : Plan) (i : Nat) (bs : List Byte) :
    (buildRecord s p i bs).engine.op = s.engine.op ∧ (buildRecord s p i bs).engine.plan = s.engine.plan := by
  unfold buildRecord
  dsimp only
  repeat' split
  all_goals exact ⟨rfl, rfl⟩

theorem checkFails_moves {s : State} (h : s.engine.op.loads = none) : Moves K s (checkFails s) := by
  have h2 : Goes K (endOperation s) (setRunState { endOperation s with engine.plan := none } .blank) :=
    setRunState_plan_goes none (readyFor_of_not _ rfl)
  exact ((endOperation_calm_of_loads h).moves.trans h2.moves).trans (startStepSix_calm _).moves

theorem checkPasses_moves {s : State} (p : Plan) (ha : K.awake) (h : s.engine.op.loads = none) : Moves K s (checkPasses s p) := by
  have h2 : Calm { endOperation s with engine.plan := some p }
      { endOperation s with engine.plan := some p, startup.step := .build } := { Calm.refl _ with step := fun h => by cases h }
  exact (((endOperation_calm_of_loads h).moves.tail (.plans ha p)).trans h2.moves).tail (.asks ha)

/-! ## Loads (R47 to R52) -/

theorem loadRecord_moves {s : State} (p : Plan) {n : Nat} (i : Nat) (bs : List Byte) (hop : s.engine.op.loads = some n) :
    Moves K s (loadRecord s p n i bs) := by
  unfold loadRecord
  dsimp only
  repeat' split
  · exact .refl
  · exact .refl
  · exact Calm.moves { Calm.refl _ with }
  · next hnew hroom =>
    have hroom : s.engine.table.length < 8192 := not_le.1 hroom
    have hnew : s.engine.lookup (planMeterId bs) = none := by simpa using hnew
    exact .single (.inserts _ (entryOf_fresh _ _ _ _) hroom hnew (.inr ⟨n, hop, rfl⟩))

theorem loadRecord_op (s : State) (p : Plan) (n i : Nat) (bs : List Byte) : (loadRecord s p n i bs).engine.op = s.engine.op := by
  unfold loadRecord
  dsimp only
  repeat' split
  all_goals rfl

theorem completeLoad_moves {s : State} {n : Nat} (hop : s.engine.op.loads = some n) (hs : s.shareState n = .loading) :
    Moves K s (completeLoad s n) :=
  .single (.completes n hop hs (Calm.foldl (f := moveRelayEntry) moveRelayEntry_calm _ (admitShare s n)))

theorem loadEnds_moves {s : State} {n : Nat} (hop : s.engine.op.loads = some n) : Moves K s (loadEnds s n) :=
  Moves.ite (fun hs => completeLoad_moves hop hs) fun hs => .single (.stops n hop hs)

theorem loadFails_moves {s : State} {n : Nat} (hop : s.engine.op.loads = some n) : Moves K s (loadFails s n) :=
  Moves.ite (fun hs => (Relation.ReflTransGen.single (.share (.abandons n (.inr hop) hs))).trans (judgeHeldEntries_calm _ n).moves)
    fun hs => .single (.stops n hop hs)

/-- Entries removed in turn: their meters are gone from the table, and nothing else is. -/
theorem foldl_removeEntry_table (l : List Entry) (s : State) :
    (l.foldl removeEntry s).engine.table = s.engine.table.filter fun e => !l.any (·.meterId == e.meterId) := by
  induction l generalizing s with
  | nil => simp
  | cons x l ih =>
    have hg : (giveKept s x).engine = s.engine := by rw [giveKept_frame]
    rw [List.foldl_cons, ih]
    simp only [removeEntry, Engine.dropEntry, hg, List.filter_filter, List.any_cons]
    refine List.filter_congr fun e _ => ?_
    rw [Bool.not_or, Bool.and_comm, bne, Bool.beq_comm]

theorem foldl_removeEntry_keeps (l : List Entry) (s : State) :
    (l.foldl removeEntry s).engine.op = s.engine.op ∧ (l.foldl removeEntry s).engine.runState = s.engine.runState ∧
    (l.foldl removeEntry s).presence = s.presence := by
  have hg (s : State) (e : Entry) : (giveKept s e).engine = s.engine ∧ (giveKept s e).presence = s.presence := by
    rw [giveKept_frame]; exact ⟨rfl, rfl⟩
  refine ⟨foldl_apart (p := fun s => s.engine.op) (fun s e => ?_) l s, foldl_apart (p := fun s => s.engine.runState) (fun s e => ?_) l s,
    foldl_apart (p := fun s => s.presence) (fun s e => ?_) l s⟩
  · change (giveKept s e).engine.op = _
    rw [(hg s e).1]
  · change (giveKept s e).engine.runState = _
    rw [(hg s e).1]
  · exact (hg s e).2

theorem beginLoad_moves {s : State} {n : Nat} {rest : List Nat} (hk : Knows K s)
    (hop : s.engine.op = .idle) (hrun : s.isRunning = true) (hq : s.presence.adoptQueue = n :: rest) : Moves K s (beginLoad s n) := by
  have h1 : Goes K s ((s.engine.entriesOf n).foldl removeEntry s) :=
    foldl_goes (fun s e he hq => ⟨removeEntry_goes he (.inl hq), removeEntry_spares s e⟩) List.filter_sublist hk (by rw [hop]; rfl)
  obtain ⟨hop', hrun', hpres⟩ := foldl_removeEntry_keeps (s.engine.entriesOf n) s
  have hnone := foldl_removeEntry_table (s.engine.entriesOf n) s
  refine h1.moves.tail (.beginsLoad n rest (hop'.trans hop) ?_ (by rw [hpres]; exact hq) fun e he ho => ?_)
  · unfold State.isRunning at *
    rwa [hrun']
  · rw [hnone, List.mem_filter] at he
    obtain ⟨he, hno⟩ := he
    have : (s.engine.entriesOf n).any (·.meterId == e.meterId) = true :=
      List.any_eq_true.2 ⟨e, List.mem_filter.2 ⟨he, by simp [ho]⟩, by simp⟩
    simp [this] at hno

/-! ## Plan reads (R62) -/

theorem checkRead_moves {s : State} (bs : List Byte) (ha : s.dock.load.check ≠ none → K.awake) : Moves K s (checkRead s bs) := by
  unfold checkRead
  split
  · next i rest hcheck =>
    have ha := ha (by rw [hcheck]; simp)
    have h1 : Calm s (if planRecordGood bs || s.dock.load.bad.contains i then s
        else { s with dock.load.bad := s.dock.load.bad ++ [i] }) := .ite (fun _ => .refl s) fun _ => { Calm.refl _ with }
    have h2 (t : State) : Moves K t (if rest.isEmpty then planEndJudged t else { t with dock.load.check := some rest }) :=
      Moves.ite (fun _ => (planEndJudged_goes ha).moves) fun _ => (planLoad_goes { t.dock.load with check := some rest } ha le_rfl).moves
    exact h1.moves.trans (h2 _)
  · exact .refl

theorem planReadEnds_moves {s : State} (bs : List Byte) (ha : s.engine.op.readsPlan = true → K.awake)
    (hc : s.dock.load.check ≠ none → K.awake) : Moves K s (planReadEnds s bs) := by
  unfold planReadEnds
  split
  · next hop =>
    split
    · exact (calm_op (by rw [hop]; exact ⟨rfl, id, fun _ => rfl⟩)).moves
    · exact checkFails_moves (by rw [hop]; rfl)
  · next i p hop =>
    have hl : s.engine.op.loads = none := by rw [hop]; rfl
    repeat' split
    · exact checkFails_moves hl
    · exact (calm_op (by rw [hop]; exact ⟨rfl, id, fun _ => rfl⟩)).moves
    · exact checkPasses_moves p (ha (by rw [hop]; rfl)) hl
  · next i p hop hp =>
    have hb : s.engine.op.builds = true := by rw [hop]; rfl
    obtain ⟨hop', hp'⟩ := buildRecord_keeps s p i bs
    refine (buildRecord_moves p i bs hb).trans (Moves.ite (fun _ => ?_) fun _ => ?_)
    · exact (calm_op (by rw [hop', hop]; exact ⟨rfl, id, fun _ => rfl⟩)).moves
    · exact buildEnds_moves (ha (by rw [hop]; rfl)) (by rw [hop', hop]; rfl) (hp'.trans hp)
  · next n i p hop hp =>
    have hl : s.engine.op.loads = some n := by rw [hop]; rfl
    have hop' := loadRecord_op s p n i bs
    refine (loadRecord_moves p i bs hl).trans (Moves.ite (fun _ => ?_) fun _ => ?_)
    · exact (calm_op (by rw [hop', hop]; exact ⟨rfl, id, fun _ => rfl⟩)).moves
    · exact loadEnds_moves (by rw [hop', hop]; rfl)
  · next hop _ => exact (endOperation_calm_of_loads (by rw [hop]; rfl)).moves
  · next hop _ => exact loadFails_moves (by rw [hop]; rfl)
  · exact checkRead_moves bs hc

theorem slotReadEnds_moves {s u : State} (h : slotReadEnds s = some u) (ha : s.engine.op.readsPlan = true → K.awake)
    (hc : s.dock.load.check ≠ none → K.awake) : Moves K s u := by
  unfold slotReadEnds at h
  split at h <;> cases h
  · exact (served_calm s).moves.trans (planReadEnds_moves _ ha hc)
  · exact (served_calm s).moves

/-! ## The engine's choice (R76, R77) -/

theorem beginRequest_moves {s : State} {r : StationReq} (hop : s.engine.op = .idle) (ha : r = .ownBuild ∨ r = .planCheck → K.awake) :
    Moves K s (beginRequest s r) := by
  have hquiet {o : EngineOp} (ho : o.readsPlan = false) : Moves K s { s with engine.op := o } :=
    (calm_op (.of_readsPlan (by rw [hop]; rfl) ho)).moves
  cases r with
  | planCheck => exact .single (.checks (ha (.inr rfl)) hop)
  | ownBuild => exact beginBuild_moves (ha (.inl rfl)) hop
  | _ => exact hquiet rfl

theorem choosePacket_calm {s : State} (hop : s.engine.op = .idle) : Calm s (choosePacket s) := by
  have hpacket (i : Taken) : OpKept s.engine.op (.packet i none) := .of_readsPlan (by rw [hop]; rfl) rfl
  have hradio (p : Packet) (rest : List Packet) (h : s.radio.queue = p :: rest) : Calm s (takeIntake s p rest) :=
    { Calm.refl _ with op := hpacket _, intake := by rw [h]; exact (Nat.le_succ _).trans (Nat.le_max_left _ _) }
  have hrelay (i : RelayItem) (rest : List RelayItem) (h : s.engine.relayQueue = i :: rest) : Calm s (takeRelay s i rest) :=
    { Calm.refl _ with op := hpacket _, relayQueue := by rw [h]; exact (Nat.le_succ _).trans (Nat.le_max_left _ _) }
  unfold choosePacket
  split
  · exact .refl s
  · next h _ => exact hradio _ _ h
  · next h _ _ => exact hradio _ _ h
  · next h => exact hrelay _ _ h
  · next h _ => exact hrelay _ _ h

theorem engineChoose_moves {s : State} (hk : Knows K s)
    (ha : .ownBuild ∈ s.engine.requests ∨ .planCheck ∈ s.engine.requests → K.awake) : Moves K s (engineChoose s) := by
  unfold engineChoose
  split
  · exact .refl
  · next hop =>
    have hop : s.engine.op = .idle := not_not.1 hop
    have hquiet (o : EngineOp) (ho : o.readsPlan = false) : OpKept s.engine.op o := .of_readsPlan (by rw [hop]; rfl) ho
    split
    · exact Calm.moves { Calm.refl _ with op := hquiet _ rfl }
    · exact Calm.moves { Calm.refl _ with op := hquiet _ rfl }
    · next r rest _ hreq =>
      have h1 : Calm s { s with engine.requests := rest } := { Calm.refl _ with requests := fun x _ hx => hreq ▸ List.mem_cons_of_mem r hx }
      refine h1.moves.trans (beginRequest_moves hop fun hr => ha ?_)
      rw [hreq]
      rcases hr with rfl | rfl
      · exact .inl (List.mem_cons_self ..)
      · exact .inr (List.mem_cons_self ..)
    · next n rest _ _ hq => exact Moves.ite (fun hrun => beginLoad_moves hk hop hrun hq) fun _ => .refl
    · exact Moves.ite (fun _ => (choosePacket_calm hop).moves) fun _ => .refl

end

/-! ## Every command -/

theorem deliverCommand_moves (c : Instr) {K : Known} (ha : K.awake) (s : State) : Moves K s (deliverCommand c s) := by
  have hdock (col : DockColumn) (echo : Byte) {rule : State → State} (h : ∀ s, Goes K s (rule s)) :
      Moves K s (dockOperation col echo rule s) := (dockOperation_goes col echo h s).moves
  cases c with
  | runOpen run day => exact (deliverOpen_goes run day s).moves
  | runClose run day => exact (deliverClose_goes run s).moves
  | position v n => exact (deliverPosition_calm v n s).moves
  | presence src p => exact (deliverPresence_goes s _ p).moves
  | held src m k => exact (deliverHeld_calm _ s).moves
  | relay src p => exact (deliverRelayItem_calm _ s).moves
  | handover src p => exact (deliverRelayItem_calm _ s).moves
  | listRevisit x => exact (deliverRevisit_calm x s).moves
  | queryClearConditions => exact (clearConditions_calm s).moves
  | uploadOpen n => exact hdock _ _ (uploadOpen_goes _)
  | uploadMark m => exact hdock _ _ fun s => (uploadMark_calm _ s).goes
  | uploadClose => exact hdock _ _ fun s => (uploadClose_calm s).goes
  | eraseUploaded => exact hdock _ _ fun s => (eraseUploaded_calm s).goes
  | clearFindings => exact hdock _ _ fun s => (clearFindings_calm s).goes
  | planBegin i a b => exact hdock _ _ (planBegin_goes _ _ _)
  | planData i r => exact hdock _ _ fun s => (planData_calm _ _ s).goes
  | planEnd => exact hdock _ _ fun s => planEnd_goes ha
  | settingWrite o d => exact hdock _ _ fun s => (settingWrite_calm _ _ s).goes
  | settingSave => exact hdock _ _ fun s => (settingSave_calm s).goes
  | dockClearConditions => exact hdock _ _ fun s => (dockClear_calm s).goes
  | _ => exact .refl

/-- What a state before step 2 does not hold says that the station may build (`NothingBuilt`). -/
theorem known_awake {s : State} {p : Prop} (hp : p) (h : NothingBuilt s → ¬ p) : s.known.awake := fun _ hn => h hn hp

theorem engineChoose_moves_known (s : State) : Moves s.known s (engineChoose s) :=
  engineChoose_moves (knows_known s) fun h => known_awake h fun hn hr => hr.elim hn.noBuild hn.noCheck

theorem onlyIf_eq_some {c : Bool} {t u : State} (h : onlyIf c t = some u) : c = true ∧ u = t := by
  unfold onlyIf at h
  split at h
  · cases h; exact ⟨by assumption, rfl⟩
  · cases h

/-- The configuration memory's answer gives step 2 an image (R189). -/
theorem configAnswered_takes (s : State) : ∃ image defaulted, configAnswered s = takeImage image defaulted s := by
  cases h : acceptedImage s.configBytes with
  | none => exact ⟨defaultImage, true, by rw [configAnswered, h]⟩
  | some image => exact ⟨image, false, by rw [configAnswered, h]⟩

/-- The effect of a command that is no frame is the end of step 2 or of step 3, or a chain of moves. -/
theorem ownEffect_moves {c : Instr} {s u : State} (h : ownEffect c s = some u) :
    (∃ image defaulted, s.startup.step = .config ∧ u = takeImage image defaulted s) ∨
    (c = .startUpScan ∧ s.startup.step = .scan ∧ u = scanEnds s) ∨ Moves s.known s u := by
  have hquiet {o : EngineOp} (hop : s.engine.op = o) (ho : o.readsPlan = false) : s.engine.op.readsPlan = false := hop ▸ ho
  cases c
  case configRead =>
    obtain ⟨hc, rfl⟩ := onlyIf_eq_some h
    obtain ⟨image, defaulted, ht⟩ := configAnswered_takes s
    exact .inl ⟨image, defaulted, by simpa using hc, ht⟩
  case configAnswerTimeout =>
    obtain ⟨hc, rfl⟩ := onlyIf_eq_some h
    exact .inl ⟨_, _, by simpa using (Bool.and_eq_true_iff.1 hc).1, rfl⟩
  case startUpScan =>
    obtain ⟨hc, rfl⟩ := onlyIf_eq_some h
    exact .inr (.inl ⟨rfl, by simpa using hc, rfl⟩)
  case gapExpiry => obtain ⟨-, rfl⟩ := onlyIf_eq_some h; exact .inr (.inr (gapExpires_calm s).moves)
  case searchingComplete => obtain ⟨-, rfl⟩ := onlyIf_eq_some h; exact .inr (.inr (Calm.moves { Calm.refl _ with }))
  case receiveError bits => exact .inr (.inr (receiveFault_calm h).moves)
  case duplicateFrame => obtain ⟨-, rfl⟩ := onlyIf_eq_some h; exact .inr (.inr (duplicateFrame_calm s).moves)
  case frameSent =>
    change whileSending _ s = _ at h
    unfold whileSending at h
    split at h <;> cases h
    exact .inr (.inr (frameSent_goes s _).moves)
  case arbitrationLoss =>
    change whileSending _ s = _ at h
    unfold whileSending at h
    split at h <;> cases h
    exact .inr (.inr (receiveTo_calm s _).moves)
  case transmitError atStart =>
    change whileSending _ s = _ at h
    unfold whileSending at h
    split at h <;> cases h
    exact .inr (.inr (transmitError_goes atStart s _).moves)
  case positionWatchdogExpiry => obtain ⟨-, rfl⟩ := onlyIf_eq_some h; exact .inr (.inr (watchdogExpires_calm s).moves)
  case presenceTimerExpiry => obtain ⟨-, rfl⟩ := onlyIf_eq_some h; exact .inr (.inr (presenceExpires_calm s).moves)
  case absenceExpiry slot => obtain ⟨-, rfl⟩ := onlyIf_eq_some h; exact .inr (.inr (recompute_goes s).moves)
  case presumptionExpiry slot => obtain ⟨-, rfl⟩ := onlyIf_eq_some h; exact .inr (.inr (presumptionExpires_goes s _).moves)
  case packetOperation => exact .inr (.inr (packetEnds_goes h).moves)
  case pageBufferTimeout =>
    obtain ⟨-, rfl⟩ := onlyIf_eq_some h
    exact .inr (.inr (calm_store (Store.startProgram_calm _)).moves)
  case release =>
    change (match s.engine.op with
      | .release share => some (releaseEnds s share)
      | _ => none) = _ at h
    split at h <;> cases h
    next hop => exact .inr (.inr (releaseEnds_goes (knows_known s) _ (hquiet hop rfl)).moves)
  case closeRelease =>
    change (match s.engine.op with
      | .closeRelease => some (closeReleaseEnds s)
      | _ => none) = _ at h
    split at h <;> cases h
    next hop => exact .inr (.inr (closeReleaseEnds_goes (knows_known s) (hquiet hop rfl)).moves)
  case closureMarking =>
    change (match s.engine.op with
      | .closure segment => some (closureEnds s segment)
      | _ => none) = _ at h
    split at h <;> cases h
    next hop => exact .inr (.inr (closureEnds_goes (knows_known s) _ (hquiet hop rfl)).moves)
  case runReset => exact .inr (.inr (runResetEnds_goes (knows_known s) h).moves)
  case rebuildRead =>
    change logReadEnds s = _ at h
    unfold logReadEnds at h
    split at h <;> cases h
    · next hop => exact .inr (.inr ((served_calm s).moves.trans (rebuildReadEnds_goes (s := { s with store.serving := none }) _ _ (hquiet hop rfl)).moves))
    · exact .inr (.inr (served_calm s).moves)
  case findingsClear =>
    obtain ⟨hop, rfl⟩ := onlyIf_eq_some h
    exact .inr (.inr (findingsClearEnds_goes (knows_known s) (hquiet (beq_iff_eq.1 hop) rfl)).moves)
  case routeTableEmptying =>
    obtain ⟨hop, rfl⟩ := onlyIf_eq_some h
    exact .inr (.inr (emptyingEnds_goes (knows_known s) (hquiet (beq_iff_eq.1 hop) rfl)).moves)
  case keptRecordRelease =>
    change (match s.engine.op with
      | .keptRelease m n => some (keptReleaseEnds s m n)
      | _ => none) = _ at h
    split at h <;> cases h
    next hop => exact .inr (.inr (keptReleaseEnds_goes _ _ (hquiet hop rfl)).moves)
  case planRead =>
    refine .inr (.inr (slotReadEnds_moves h (fun hr => known_awake hr fun hn => by simp [hn.op]) fun hc =>
      known_awake hc fun hn => by simp [hn.check]))
  case relayWaitExpiry m k => exact .inr (.inr (relayWaitExpires_calm h).moves)
  case uploadRead =>
    change sessionReadEnds s = _ at h
    unfold sessionReadEnds at h
    dsimp only at h
    split at h <;> cases h
    · exact .inr (.inr ((served_calm s).trans (uploadReadEnds_calm _)).moves)
    · exact .inr (.inr (served_calm s).moves)
  case uploadPauseTimeout => obtain ⟨-, rfl⟩ := onlyIf_eq_some h; exact .inr (.inr (calm_session s _).moves)
  case saveCompletion ok =>
    change (match s.startup.save with
      | some job => some (saveEnds job ok s)
      | none => none) = _ at h
    split at h <;> cases h
    exact .inr (.inr (saveEnds_calm _ ok s).moves)
  case pageProgram ok => exact .inr (.inr (pageProgramEnds_goes h).moves)
  case sectorOpening ok => exact .inr (.inr (openingEnds_goes h).moves)
  case headerMarkProgram ok => exact .inr (.inr (headerMarkEnds_calm h).moves)
  case sectorErase =>
    change (match s.eraseDue false with
      | some n => some { s with store := s.store.sectorErased n }
      | none => none) = _ at h
    split at h <;> cases h
    exact .inr (.inr (calm_store (Store.sectorErased_calm _ _)).moves)
  case planSectorErase =>
    change (match s.eraseDue true with
      | some n => some (planSectorErased n s)
      | none => none) = _ at h
    split at h <;> cases h
    exact .inr (.inr (planSectorErased_goes _ s).moves)
  case planRecordProgram ok =>
    exact .inr (.inr (planRecordEnds_goes h fun hp => known_awake hp fun hn => hn.phase).moves)
  case planHeaderProgram ok =>
    exact .inr (.inr (planHeaderEnds_goes h fun hp => known_awake hp fun hn => hn.serving).moves)
  all_goals
    change none = some u at h
    cases h

/-- What makes a predicate a law of every step, in terms of moves: the queue, a restart and what it cuts off, the ends of steps 2 and 3,
and every chain of moves of a command that begins with the law. -/
structure MoveLaw (P : State → Prop) : Prop where
  queue : ∀ s q, P s → P { s with pending := q }
  restarts : ∀ powered straps s, P s → P (restart powered straps s)
  cuts : ∀ s, P s → P (cutOff s)
  takes : ∀ s image defaulted, s.startup.step = .config → P s → P (takeImage image defaulted s)
  scans : ∀ s, s.startup.step = .scan → P s → P (scanEnds s)
  moves : ∀ s t, P s → Moves s.known s t → P t

theorem MoveLaw.calm {P : State → Prop} (L : MoveLaw P) {s t : State} (h : Calm s t) (hs : P s) : P t := L.moves s t hs h.moves

theorem MoveLaw.settles {P : State → Prop} (L : MoveLaw P) (s : State) (hs : P s) : P (settle s) := by
  have h1 := L.moves s _ hs (engineChoose_moves_known s)
  have h2 := L.moves _ _ h1 (engineChoose_moves_known _)
  exact L.calm (settle_calm_after_choice s) h2

theorem MoveLaw.stepLaw {P : State → Prop} (L : MoveLaw P) : StepLaw P where
  queue := L.queue
  idle s := L.calm (tick_calm s)
  restarts := L.restarts
  cuts := L.cuts
  character s data parity stop := L.calm (character_calm s data parity stop)
  lineHigh s := L.calm (lineHigh_calm s)
  duplicate s := L.calm (duplicateFrame_calm s)
  received s := L.calm (received_calm s)
  heard s n h := L.moves s _ h (heardReport_goes s n).moves
  formatError s := L.calm { Calm.refl _ with counters := by simp [countersKept_iff] }
  runReject s := L.calm (rejectRun_calm s)
  dockReject s := L.calm { Calm.refl _ with counters := by simp [countersKept_iff] }
  delivers c s hup h := L.moves s _ h (deliverCommand_moves c (fun hstep => by
    simp [State.isUp, hstep] at hup) s)
  effects c s u hu h := by
    rcases ownEffect_moves hu with ⟨image, d, hstep, rfl⟩ | ⟨-, hstep, rfl⟩ | hm
    · exact L.takes s image d hstep h
    · exact L.scans s hstep h
    · exact L.moves s u h hm
  settles := L.settles

end Sys2Proof.Machine
end

section
/-!
PROOF. The ranges of the counters and the capacities of the queues and lists are laws of every step: no move breaks them, and neither do a
restart, the end of step 2 or the start-up scan.
-/

namespace Sys2Proof.Machine

/-! ## What every move keeps -/

theorem endAdoption_kept (s : State) : Kept s (endAdoption s) := by
  have hrest (t : State) : Kept t { t with
      presence.adoptQueue := []
      presence.shares := t.presence.shares.map fun x => if x = .own then .own else .notMine
      engine.untracked := [] } := { Kept.refl _ with }
  unfold endAdoption
  dsimp only
  split
  · exact (stopLoad_shareFrame s _).toKept.trans (hrest _)
  · exact hrest s

theorem admitEntry_kept (s : State) (e : Entry) : Kept s (admitEntry s e) := by
  unfold admitEntry; split <;> exact { Kept.refl _ with }

theorem foldl_admitEntry_kept (l : List Entry) (s : State) : Kept s (l.foldl admitEntry s) := by
  induction l generalizing s with
  | nil => exact { Kept.refl _ with }
  | cons e l ih => exact (admitEntry_kept s e).trans (ih _)

theorem Move.kept {K : Known} {s t : State} (h : Move K s t) : Kept s t := by
  cases h with
  | share h => exact h.frame.toKept
  | changes e e' _ _ _ => exact { Kept.refl _ with }
  | replaces e e' _ _ => exact { Kept.refl _ with }
  | removes e _ _ => exact { Kept.refl _ with }
  | checks _ _ => exact { Kept.refl _ with }
  | beginsBuild _ _ => exact { Kept.refl _ with }
  | inserts e _ _ _ _ => exact { Kept.refl _ with }
  | builds p _ => exact { Kept.refl _ with }
  | beginsLoad n rest _ _ _ _ => exact { Kept.refl _ with }
  | completes n _ _ calm =>
    have hadmit : Kept s (admitShare s n) := (foldl_admitEntry_kept _ s).trans { Kept.refl _ with }
    exact (hadmit.trans calm.kept).trans { Kept.refl _ with }
  | stops n _ _ => exact (stopLoad_shareFrame s n).toKept
  | closes _ calm => exact (Kept.trans (s := s) (t := { s with engine.runState := some .closing }) { Kept.refl _ with } calm.kept).trans (endAdoption_kept _)
  | setsRun p r _ =>
    exact Kept.trans (s := s) (t := { s with engine := { s.engine with plan := p, runState := some r } }) { Kept.refl _ with } (recompute_moves _).frame.toKept
  | plans _ p => exact { Kept.refl _ with }
  | asks _ => exact { Kept.refl _ with }
  | header _ => exact { Kept.refl _ with }
  | loads _ l hq => exact { Kept.refl _ with lists := fun ⟨hi, hr, hl, hn, hp, hb, hw, hs⟩ => ⟨hi, hr, hl, hn, hp, hb, hq.trans hw, hs⟩ }
  | clearsRows => exact { Kept.refl _ with }

theorem Moves.kept {K : Known} {s t : State} (h : Moves K s t) : Kept s t := by
  induction h with
  | refl => exact { Kept.refl _ with }
  | tail _ h ih => exact ih.trans h.kept

/-- A predicate that every move keeps is kept by every chain of them. -/
theorem Moves.keeps {P : State → Prop} {K : Known} (hP : ∀ s t, Move K s t → P s → P t) {s t : State} (h : Moves K s t) (hs : P s) :
    P t := by
  induction h with
  | refl => exact hs
  | tail _ h ih => exact hP _ _ h ih

/-- The same for the moves of the shares. -/
theorem ShareMoves.keeps {P : State → Prop} (hP : ∀ s t, ShareMove s t → P s → P t) {s t : State} (h : ShareMoves s t) (hs : P s) :
    P t := by
  induction h with
  | refl => exact hs
  | tail _ h ih => exact hP _ _ h ih

/-! ## The start-up scan's store (R170 to R173) -/

/-- The store of the scan before the head sector is taken on (R170, R172). -/
def Store.scanned (st : Store) : Store :=
  let l := scanSectors st.flash
  let number := (scannedHead l).map (·.sector)
  let rows := l.map (scannedRow (scannedEraseCount l) number)
  let recs := Store.walk { st with rows := rows }
  let counter := scannedCounter recs l
  { st with
    rows := rows.map (SectorRow.withRecords recs)
    head := none
    sectorSeq := scannedSectorSeq l
    seqCounter := counter
    durableBound := counter
    uploadMark := scannedMark st.flash l
    lastGiven := greatest (recs.map fun (x : LogRecord) => x.number)
    eraseList := scannedEraseList l
    marks := scannedMarks number l }

theorem scan_store (st : Store) : st.scan.1 = (st.scanned.takeHead (scannedHead (scanSectors st.flash))).openAtScan := rfl

theorem Store.takeHead_calm (st : Store) (head : Option Scanned) : st.Calm (st.takeHead head) := by
  unfold takeHead
  split
  · exact .refl st
  · next x =>
    have h1 := st.updateRow_calm x.sector (f := fun r => { r with state := .full }) fun _ => rfl
    dsimp only
    split
    · exact { Store.Calm.refl _ with }
    · split
      · exact h1
      · exact h1.trans (requestMark_calm _ _)

theorem Store.openAtScan_calm (st : Store) : st.Calm st.openAtScan := by
  unfold openAtScan
  split
  · exact st.openCandidate_calm
  · exact .refl st

theorem Store.scan_calm (st : Store) : st.scanned.Calm st.scan.1 := by
  rw [scan_store]
  exact (takeHead_calm _ _).trans (openAtScan_calm _)

theorem scanSectors_map_sector (flash : Memory) :
    (scanSectors flash).map (·.sector) = (List.range 384).map (128 + ·) := by
  rw [scanSectors, List.map_map]
  rfl

theorem scanSectors_range {flash : Memory} {x : Scanned} (h : x ∈ scanSectors flash) : 128 ≤ x.sector ∧ x.sector < 512 := by
  have hm : x.sector ∈ (scanSectors flash).map (·.sector) := List.mem_map_of_mem h
  rw [scanSectors_map_sector] at hm
  obtain ⟨i, hi, he⟩ := List.mem_map.1 hm
  have := List.mem_range.1 hi
  omega

theorem scanSectors_nodup (flash : Memory) : ((scanSectors flash).map (·.sector)).Nodup := by
  rw [scanSectors_map_sector]
  exact List.nodup_range.map fun a b h => Nat.add_left_cancel h

/-- The rows that carry a sequence are some of the rows. -/
theorem sequenced_sublist (rows : List SectorRow) :
    ((rows.filterMap fun r => r.seq.map fun q => (q, r)).map (·.2.sector)).Sublist (rows.map (·.sector)) := by
  induction rows with
  | nil => exact .slnil
  | cons r rows ih =>
    cases hr : r.seq with
    | none => rw [List.filterMap_cons_none (by simp [hr])]; exact ih.cons _
    | some q => rw [List.filterMap_cons_some (b := (q, r)) (by simp [hr])]; exact ih.cons_cons _

/-- The erase list of the scan holds sectors of the scan, none twice. -/
theorem scannedEraseList_fits {l : List Scanned} (hl : (l.map (·.sector)).Nodup) :
    ((scannedEraseList l).map (·.sector)).Nodup ∧ ∀ i ∈ scannedEraseList l, ∃ x ∈ l, x.sector = i.sector := by
  let listed := l.filter (·.cls == .listed)
  let lost := (listed.filter fun x => !x.header.intact).map (·.sector)
  let intact := listed.filter (·.header.intact)
  let known := (sortRows (intact.map (scannedRow 0 none))).map (·.2.sector)
  have hsectors : (scannedEraseList l).map (·.sector) = lost ++ known := by
    change ((lost ++ known).map fun n => (⟨n, true, .listed⟩ : EraseItem)).map (·.sector) = _
    rw [List.map_map]
    exact List.map_id _
  have hknown : ∃ k, known.Perm k ∧ k.Sublist (intact.map (·.sector)) := by
    refine ⟨_, (sortRows_perm _).map _, (sequenced_sublist _).trans ?_⟩
    rw [List.map_map]
    exact .refl _
  obtain ⟨k, hperm, hsub⟩ := hknown
  have hmem : ∀ n ∈ known, ∃ x ∈ l, x.sector = n ∧ x.header.intact = true := by
    intro n hn
    obtain ⟨x, hx, he⟩ := List.mem_map.1 (hsub.mem (hperm.mem_iff.1 hn))
    obtain ⟨hx, hi⟩ := List.mem_filter.1 hx
    exact ⟨x, (List.mem_filter.1 hx).1, he, hi⟩
  have hlost : ∀ n ∈ lost, ∃ x ∈ l, x.sector = n ∧ x.header.intact = false := by
    intro n hn
    obtain ⟨x, hx, he⟩ := List.mem_map.1 hn
    obtain ⟨hx, hi⟩ := List.mem_filter.1 hx
    exact ⟨x, (List.mem_filter.1 hx).1, he, by simpa using hi⟩
  have hfilter (p q : Scanned → Bool) : (((l.filter p).filter q).map (·.sector)).Nodup :=
    hl.sublist ((List.filter_sublist.trans List.filter_sublist).map _)
  rw [hsectors]
  refine ⟨List.nodup_append.2 ⟨hfilter _ _, hperm.nodup_iff.2 ((hfilter _ _).sublist hsub), ?_⟩, fun i hi => ?_⟩
  · rintro a ha b hb rfl
    obtain ⟨x, hx, hxa, hxi⟩ := hlost a ha
    obtain ⟨y, hy, hya, hyi⟩ := hmem a hb
    have : x = y := List.inj_on_of_nodup_map hl hx hy (hxa.trans hya.symm)
    rw [this, hyi] at hxi
    cases hxi
  · have hi : i.sector ∈ lost ++ known := by
      rw [← hsectors]
      exact List.mem_map_of_mem hi
    rcases List.mem_append.1 hi with h | h
    · obtain ⟨x, hx, he, -⟩ := hlost _ h
      exact ⟨x, hx, he⟩
    · obtain ⟨x, hx, he, -⟩ := hmem _ h
      exact ⟨x, hx, he⟩

theorem scanned_sectorsFit (st : Store) : SectorsFit st.scanned.rows st.scanned.eraseList := by
  have hwith (recs : List LogRecord) (r : SectorRow) : (r.withRecords recs).sector = r.sector := by
    unfold SectorRow.withRecords; split <;> rfl
  obtain ⟨hnodup, hmem⟩ := scannedEraseList_fits (scanSectors_nodup st.flash)
  refine ⟨fun r hr => ?_, hnodup, fun i hi => ?_⟩
  · obtain ⟨r', hr', rfl⟩ := List.mem_map.1 hr
    obtain ⟨x, hx, rfl⟩ := List.mem_map.1 hr'
    rw [hwith]
    exact scanSectors_range hx
  · obtain ⟨x, hx, he⟩ := hmem i hi
    rw [← he]
    exact scanSectors_range hx

/-! ## Counters (R194) -/

/-- A loss of power touches the two memories and the count of free values alone (R154). -/
theorem cutOff_frame (s : State) : ∃ flash cfg, cutOff s = { s with
    store := { s.store with flash := flash }
    startup := { s.startup with cfg := cfg }
    freeIndex := s.freeIndex + 3 } := by
  have hprogram (t : State) : ∃ flash, cutProgram t = { t with store := { t.store with flash := flash } } := by
    unfold cutProgram; split
    · exact ⟨_, rfl⟩
    · exact ⟨t.store.flash, rfl⟩
  have herase (t : State) : ∃ flash, cutErase t = { t with store := { t.store with flash := flash } } := by
    unfold cutErase; split
    · exact ⟨_, rfl⟩
    · exact ⟨t.store.flash, rfl⟩
  have hsave (t : State) : ∃ cfg, cutSave t = { t with startup := { t.startup with cfg := cfg } } := by
    unfold cutSave; split
    · exact ⟨_, rfl⟩
    · exact ⟨t.startup.cfg, rfl⟩
  obtain ⟨f1, h1⟩ := hprogram s
  obtain ⟨f2, h2⟩ := herase (cutProgram s)
  obtain ⟨c, h3⟩ := hsave (cutErase (cutProgram s))
  refine ⟨f2, c, ?_⟩
  unfold cutOff
  rw [h3, h2, h1]

theorem scanEnds_counters (s : State) : CountersKept s (scanEnds s) := by
  have h := Store.scan_calm s.store
  have hd : CountKept s.store.dropped s.store.scan.1.dropped := h.dropped
  have hf : CountKept s.store.faults s.store.scan.1.faults := h.faults
  rw [countersKept_iff]
  simp [scanEnds, requestStation, hd, hf]

theorem countersInRange_law : MoveLaw CountersInRange where
  queue _ _ h := h
  restarts powered straps s _ := by
    unfold CountersInRange State.counters State.counters2 State.counters3
    simp [restart, State.afterStart, Radio.afterStart, Rack.afterStart, Engine.afterStart, Tracker.afterStart, Relay.afterStart,
      Dock.afterStart, Store.afterStart]
  cuts s h := by
    obtain ⟨flash, cfg, hcut⟩ := cutOff_frame s
    rw [hcut]
    exact (CountersKept.of_same rfl rfl rfl rfl rfl rfl rfl).inRange h
  takes s image d _ h := (show CountersKept s (takeImage image d s) from .of_same rfl rfl rfl rfl rfl rfl rfl).inRange h
  scans s _ h := (scanEnds_counters s).inRange h
  moves s t h hm := hm.kept.counters.inRange h

/-! ## Lists of every block -/

theorem listsFit_law : MoveLaw ListsFit where
  queue _ _ h := h
  restarts powered straps s _ := by
    refine ⟨Nat.zero_le _, Nat.zero_le _, ⟨Nat.zero_le _, ?_, Nat.zero_le _, ?_, Nat.zero_le _, ?_⟩, ⟨Nat.zero_le _, ?_⟩, Nat.zero_le _,
      ⟨Nat.zero_le _, fun _ => Nat.zero_lt_succ _⟩, Nat.zero_le _, ⟨?_, ?_, ?_⟩⟩
    all_goals simp [restart, State.afterStart, Relay.afterStart, Engine.afterStart, Store.afterStart]
  cuts s h := by
    obtain ⟨flash, cfg, hcut⟩ := cutOff_frame s
    rw [hcut]
    exact h
  takes s image d _ h := h
  scans s _ := by
    rintro ⟨hintake, hqueue, hrelay, hnotices, hreplies, hpage, hwrite, -⟩
    have h := Store.scan_calm s.store
    exact ⟨hintake, hqueue, hrelay, hnotices, hreplies, h.page hpage, hwrite, h.sectors (scanned_sectorsFit s.store)⟩
  moves s t h hm := hm.kept.lists h

/-! ## The route table (R64) -/

/-- The route table is within its capacity and holds no meter twice. -/
def TableFits (s : State) : Prop := s.engine.table.length ≤ 8192 ∧ OneOfEachMeter s

theorem TableFits.of_sublist {s t : State} (h : TableFits s) (hsub : t.engine.table.Sublist s.engine.table) : TableFits t :=
  ⟨hsub.length_le.trans h.1, h.2.sublist (hsub.map _)⟩

theorem TableFits.of_table {s t : State} (h : TableFits s) (ht : t.engine.table = s.engine.table) : TableFits t :=
  h.of_sublist (ht ▸ .refl _)

theorem replaceEntry_meters (g : Engine) {e e' : Entry} (h : e'.meterId = e.meterId) :
    (g.replaceEntry e e').table.map (·.meterId) = g.table.map (·.meterId) := by
  simp only [Engine.replaceEntry, List.map_map]
  refine List.map_congr_left fun x _ => ?_
  dsimp only [Function.comp]
  split
  · next hx => rw [h, hx]
  · rfl

theorem TableFits.of_replace {s t : State} {e e' : Entry} (h : TableFits s) (he : e'.meterId = e.meterId)
    (ht : t.engine.table = (s.engine.replaceEntry e e').table) : TableFits t := by
  have hm : t.engine.table.map (·.meterId) = s.engine.table.map (·.meterId) := by rw [ht, replaceEntry_meters _ he]
  refine ⟨?_, ?_⟩
  · have := congrArg List.length hm
    simp only [List.length_map] at this
    exact this ▸ h.1
  · unfold OneOfEachMeter
    rw [hm]
    exact h.2

theorem insertEntry_perm (e : Entry) (l : List Entry) : (insertEntry e l).Perm (e :: l) := by
  induction l with
  | nil => exact .refl _
  | cons x l ih =>
    unfold insertEntry
    split
    · exact .refl _
    · exact (ih.cons x).trans (.swap e x l)

theorem tableFits_insert {s t : State} {e : Entry} (h : TableFits s) (hroom : s.engine.table.length < 8192)
    (hnew : s.engine.lookup e.meterId = none) (ht : t.engine.table = insertEntry e s.engine.table) : TableFits t := by
  have hp := insertEntry_perm e s.engine.table
  rw [← ht] at hp
  refine ⟨by rw [hp.length_eq]; simpa using hroom, ?_⟩
  unfold OneOfEachMeter
  rw [(hp.map _).nodup_iff, List.map_cons, List.nodup_cons]
  refine ⟨fun hm => ?_, h.2⟩
  obtain ⟨x, hx, he⟩ := List.mem_map.1 hm
  exact absurd he (by simpa using List.find?_eq_none.1 hnew x hx)

theorem tableFits_shareMove (s t : State) (h : ShareMove s t) (hs : TableFits s) : TableFits t := by
  cases h with
  | calm h => exact hs.of_table h.table
  | queues n _ _ _ => exact hs
  | unqueues n _ _ => exact hs
  | abandons n _ _ => exact hs.of_sublist List.filter_sublist
  | releases n _ => exact hs

theorem endAdoption_table (s : State) : (endAdoption s).engine.table.Sublist s.engine.table := by
  unfold endAdoption
  dsimp only
  split
  · exact List.filter_sublist
  · exact .refl _

theorem foldl_admitEntry_fits (l : List Entry) (s : State) (h : TableFits s) : TableFits (l.foldl admitEntry s) := by
  induction l generalizing s with
  | nil => exact h
  | cons e l ih =>
    refine ih _ ?_
    unfold admitEntry
    split
    · exact h.of_replace (e' := { e with status := .missed }) rfl rfl
    · exact h

theorem tableFits_move {K : Known} (s t : State) (h : Move K s t) (hs : TableFits s) : TableFits t := by
  cases h with
  | share h => exact tableFits_shareMove s t h hs
  | changes e e' _ hc _ => exact hs.of_replace hc.meterId rfl
  | replaces e e' _ hc => exact hs.of_replace hc.meterId rfl
  | removes e _ _ => exact hs.of_sublist List.filter_sublist
  | inserts e _ hroom hnew _ => exact tableFits_insert hs hroom hnew rfl
  | completes n _ _ calm => exact (foldl_admitEntry_fits _ s hs).of_table calm.table
  | stops n _ _ => exact hs.of_sublist List.filter_sublist
  | closes _ calm => exact (hs.of_table calm.table).of_sublist (endAdoption_table _)
  | setsRun p r _ =>
    exact ShareMoves.keeps tableFits_shareMove (recompute_moves { s with engine := { s.engine with plan := p, runState := some r } }) hs
  | checks _ _ | beginsBuild _ _ | builds p _ | beginsLoad n rest _ _ _ _ | plans _ p | asks _ | header _ | loads _ l _ | clearsRows =>
    exact hs

theorem tableFits_law : MoveLaw TableFits where
  queue _ _ h := h
  restarts powered straps s _ := ⟨Nat.zero_le _, List.nodup_nil⟩
  cuts s h := by
    obtain ⟨flash, cfg, hcut⟩ := cutOff_frame s
    rw [hcut]
    exact h
  takes s image d _ h := h
  scans s _ h := h
  moves s t h hm := Moves.keeps tableFits_move hm h

end Sys2Proof.Machine
end

section
/-!
PROOF. The adoption queue (R46) and the law of the run state (R137) are laws of every step.
-/

namespace Sys2Proof.Machine

/-! ## Shares -/

/-- A share in a state other than NOT MINE stands in the list of shares. -/
theorem shares_of_shareState {s : State} {n : Nat} {x : ShareState} (h : s.shareState n = x) (hx : x ≠ .notMine) :
    s.presence.shares[n - 1]? = some x := by
  unfold State.shareState at h
  rw [List.getD_eq_getElem?_getD] at h
  cases hg : s.presence.shares[n - 1]? with
  | none => rw [hg] at h; exact absurd h.symm hx
  | some y => rw [hg] at h; exact congrArg some h

theorem shares_set_ne {l : List ShareState} {i j : Nat} {x y z : ShareState} (h : l[j]? = some y) (hi : l[i]? = some z) (hne : z ≠ y) :
    (l.set i x)[j]? = some y := by
  rw [List.getElem?_set_ne]
  · exact h
  · rintro rfl
    rw [h] at hi
    exact hne (Option.some.inj hi).symm

theorem getElem?_set_cases {α : Type} {l : List α} {i j : Nat} {x y : α} (h : (l.set i x)[j]? = some y) :
    (j = i ∧ x = y) ∨ (j ≠ i ∧ l[j]? = some y) := by
  rw [List.getElem?_set] at h
  split at h
  · next hij =>
    split at h
    · exact .inl ⟨hij.symm, Option.some.inj h⟩
    · cases h
  · next hij => exact .inr ⟨Ne.symm hij, h⟩

/-- The shares that the adoption queue can hold are at most seven (R46): those of 1 to N, at most 8, but this station's own. -/
theorem adoptQueue_length {s : State} (hcount : s.presence.shares.length = s.settings.collectors) (hmax : s.settings.collectors ≤ 8)
    (hown : s.isOwner = true → s.presence.shares[s.slot - 1]? = some .own)
    (hqueued : ∀ n ∈ s.presence.adoptQueue, 1 ≤ n ∧ s.presence.shares[n - 1]? = some .queued)
    (hnodup : s.presence.adoptQueue.Nodup) : s.presence.adoptQueue.length ≤ 7 := by
  have hslot : 1 ≤ s.slot ∧ s.slot ≤ 8 := by
    unfold State.slot
    have := s.startup.straps.isLt
    omega
  have hsub : s.presence.adoptQueue ⊆ ((List.range 8).map (· + 1)).erase s.slot := by
    intro n hn
    obtain ⟨h1, hq⟩ := hqueued n hn
    have hlt : n - 1 < s.presence.shares.length := (List.getElem?_eq_some_iff.1 hq).1
    have hne : n ≠ s.slot := by
      rintro rfl
      have := hown (by unfold State.isOwner; exact decide_eq_true (by omega))
      rw [hq] at this
      cases this
    refine (List.mem_erase_of_ne hne).2 (List.mem_map.2 ⟨n - 1, List.mem_range.2 (by omega), by omega⟩)
  have hlen := (hnodup.subperm hsub).length_le
  rw [List.length_erase_of_mem (List.mem_map.2 ⟨s.slot - 1, List.mem_range.2 (by omega), by omega⟩)] at hlen
  simpa using hlen

/-! ## The adoption queue (R46) -/

/-- The law from its first five parts. -/
theorem adoptionLaw_mk {s : State} (hcount : s.presence.shares.length = s.settings.collectors) (hmax : s.settings.collectors ≤ 8)
    (hown : s.isOwner = true → s.presence.shares[s.slot - 1]? = some .own)
    (hqueued : ∀ n ∈ s.presence.adoptQueue, 1 ≤ n ∧ s.presence.shares[n - 1]? = some .queued)
    (hnodup : s.presence.adoptQueue.Nodup) : AdoptionLaw s :=
  ⟨hcount, hmax, hown, hqueued, hnodup, adoptQueue_length hcount hmax hown hqueued hnodup⟩

/-- The law depends on the shares, the queue, the settings and the straps alone. -/
theorem AdoptionLaw.congr {s t : State} (h : AdoptionLaw s) (hshares : t.presence.shares = s.presence.shares)
    (hqueue : t.presence.adoptQueue = s.presence.adoptQueue) (hsettings : t.startup.settings = s.startup.settings)
    (hstraps : t.startup.straps = s.startup.straps) : AdoptionLaw t := by
  have hslot : t.slot = s.slot := by unfold State.slot; rw [hstraps]
  have hset : t.settings = s.settings := hsettings
  have howner : t.isOwner = s.isOwner := by unfold State.isOwner; rw [hslot, hset]
  obtain ⟨hc, hm, ho, hq, hn, hl⟩ := h
  constructor
  · rw [hshares, hset]; exact hc
  · rw [hset]; exact hm
  · rw [howner, hshares, hslot]; exact ho
  · rw [hqueue, hshares]; exact hq
  · rw [hqueue]; exact hn
  · rw [hqueue]; exact hl

/-- A share neither OWN nor QUEUED changes; or a QUEUED one that the queue no longer holds. -/
theorem AdoptionLaw.set {s t : State} {n : Nat} {x y : ShareState} (h : AdoptionLaw s) (hstate : s.presence.shares[n - 1]? = some y)
    (hy : y ≠ .own) (hshares : t.presence.shares = s.presence.shares.set (n - 1) x)
    (hqueue : t.presence.adoptQueue.Sublist s.presence.adoptQueue)
    (hgone : y = .queued → 1 ≤ n ∧ n ∉ t.presence.adoptQueue) (hsettings : t.startup.settings = s.startup.settings)
    (hstraps : t.startup.straps = s.startup.straps) : AdoptionLaw t := by
  have hslot : t.slot = s.slot := by unfold State.slot; rw [hstraps]
  have hset : t.settings = s.settings := hsettings
  have howner : t.isOwner = s.isOwner := by unfold State.isOwner; rw [hslot, hset]
  refine adoptionLaw_mk (by rw [hshares, hset, List.length_set]; exact h.count) (by rw [hset]; exact h.countMax) (fun ho => ?_)
    (fun m hm => ?_) (h.queueShares.sublist hqueue)
  · rw [hshares, hslot]
    exact shares_set_ne (h.own (howner ▸ ho)) hstate hy
  · obtain ⟨hm1, hmq⟩ := h.queued m (hqueue.mem hm)
    refine ⟨hm1, ?_⟩
    rw [hshares]
    by_cases hq : y = .queued
    · obtain ⟨hn1, hno⟩ := hgone hq
      rw [List.getElem?_set_ne]
      · exact hmq
      · intro he
        exact hno (by rwa [show n = m by omega])
    · exact shares_set_ne hmq hstate hq

theorem adoptionLaw_shareMove (s t : State) (h : ShareMove s t) (hs : AdoptionLaw s) : AdoptionLaw t := by
  cases h with
  | calm h => exact hs.congr h.shares h.adoptQueue h.settings h.straps
  | queues n hn hstate hrun =>
    have hlt : n - 1 < s.presence.shares.length := by rw [hs.count]; omega
    have hget : s.presence.shares[n - 1]? = some .notMine := by
      unfold State.shareState at hstate
      rw [List.getD_eq_getElem?_getD] at hstate
      rw [List.getElem?_eq_getElem hlt] at hstate ⊢
      exact congrArg some hstate
    have hnot : n ∉ s.presence.adoptQueue := by
      intro hm
      have := (hs.queued n hm).2
      rw [hget] at this
      cases this
    refine adoptionLaw_mk ((List.length_set ..).trans hs.count) hs.countMax (fun ho => ?_) (fun m hm => ?_) ?_
    · exact shares_set_ne (hs.own ho) hget (by simp)
    · rcases List.mem_append.1 hm with hm | hm
      · obtain ⟨h1, hq⟩ := hs.queued m hm
        exact ⟨h1, shares_set_ne hq hget (by simp)⟩
      · obtain rfl := List.mem_singleton.1 hm
        exact ⟨hn.1, by simp [queueShare, Presence.setShare, hlt]⟩
    · exact nodup_append_singleton hs.queueShares hnot
  | unqueues n hn hstate =>
    exact hs.set (shares_of_shareState hstate (by simp)) (by simp) rfl List.filter_sublist (fun _ => ⟨hn, by simp⟩) rfl rfl
  | abandons n _ hstate =>
    exact hs.set (shares_of_shareState hstate (by simp)) (by simp) rfl (.refl _) (fun h => by cases h) rfl rfl
  | releases n hstate =>
    exact hs.set (shares_of_shareState hstate (by simp)) (by simp) rfl (.refl _) (fun h => by cases h) rfl rfl

/-- After the end of adoption the queue is empty and only the own share is this station's (R56). -/
theorem endAdoption_presence (s : State) : (endAdoption s).presence.adoptQueue = [] ∧
    (endAdoption s).presence.shares = s.presence.shares.map fun x => if x = .own then .own else .notMine := by
  unfold endAdoption
  dsimp only
  split <;> exact ⟨rfl, rfl⟩

theorem foldl_admitEntry_presence (l : List Entry) (s : State) : (l.foldl admitEntry s).presence = s.presence :=
  foldl_apart (p := State.presence) (fun s e => by unfold admitEntry; split <;> rfl) l s

theorem adoptionLaw_move {K : Known} (s t : State) (h : Move K s t) (hs : AdoptionLaw s) : AdoptionLaw t := by
  have hkept := h.kept
  cases h with
  | share h => exact adoptionLaw_shareMove s t h hs
  | beginsLoad n rest _ _ hfront _ =>
    have hq := hs.queued n (by rw [hfront]; simp)
    have hnd : n ∉ rest := (List.nodup_cons.1 (hfront ▸ hs.queueShares)).1
    refine hs.set hq.2 (by simp) rfl (List.drop_sublist 1 _) (fun _ => ⟨hq.1, ?_⟩) rfl rfl
    change n ∉ s.presence.adoptQueue.drop 1
    rw [hfront]
    exact hnd
  | completes n _ hstate calm =>
    have hp := foldl_admitEntry_presence (s.engine.entriesOf n) s
    refine hs.set (n := n) (x := .adopted) (shares_of_shareState hstate (by simp)) (by simp) ?_ ?_ (fun h => by cases h) hkept.settings
      hkept.straps
    · exact calm.shares.trans (congrArg (fun p : Presence => p.shares.set (n - 1) .adopted) hp)
    · have hq := congrArg (fun p : Presence => p.adoptQueue) hp
      exact (calm.adoptQueue.trans hq) ▸ .refl _
  | @closes u _ calm =>
    obtain ⟨hqueue, hshares⟩ := endAdoption_presence u
    have hu : u.presence.shares = s.presence.shares := calm.shares
    have hslot : (endAdoption u).slot = s.slot := by unfold State.slot; rw [hkept.straps]
    have hset : (endAdoption u).settings = s.settings := hkept.settings
    have howner : (endAdoption u).isOwner = s.isOwner := by unfold State.isOwner; rw [hslot, hset]
    refine adoptionLaw_mk (by rw [hshares, hu, hset, List.length_map]; exact hs.count) (by rw [hset]; exact hs.countMax) (fun ho => ?_)
      (by simp [hqueue]) (by simp [hqueue])
    rw [hshares, hu, hslot, List.getElem?_map, hs.own (howner ▸ ho)]
    rfl
  | setsRun p r _ =>
    exact ShareMoves.keeps adoptionLaw_shareMove (recompute_moves { s with engine := { s.engine with plan := p, runState := some r } })
      (hs.congr rfl rfl rfl rfl)
  | changes _ _ _ _ _ | replaces _ _ _ _ | removes _ _ _ | checks _ _ | beginsBuild _ _ | inserts _ _ _ _ _ | builds _ _ | stops _ _ _
    | plans _ _ | asks _ | header _ | loads _ _ _ | clearsRows => exact hs.congr rfl rfl rfl rfl

/-- Share states after start (R44): the own share is OWN, where it is one of the N. -/
theorem sharesAfterStart_get {slot n i : Nat} (hi : i < n) :
    (sharesAfterStart slot n)[i]? = some (if i + 1 = slot then .own else .notMine) := by
  simp [sharesAfterStart, hi]

theorem adoptionLaw_start {s : State} {n : Nat} (hn : n ≤ 8) (hset : s.settings.collectors = n)
    (hshares : s.presence.shares = sharesAfterStart s.slot n) (hqueue : s.presence.adoptQueue = []) : AdoptionLaw s := by
  refine adoptionLaw_mk (by rw [hshares, hset]; simp [sharesAfterStart]) (by omega) (fun ho => ?_) (by simp [hqueue]) (by simp [hqueue])
  have hslot : 1 ≤ s.slot := by unfold State.slot; omega
  have ho : s.slot ≤ n := hset ▸ of_decide_eq_true ho
  rw [hshares, sharesAfterStart_get (by omega), if_pos (by omega)]

theorem settingsOf_collectors_le (image : List Byte) : (settingsOf image).collectors ≤ 8 := by
  unfold settingsOf clampField
  dsimp only
  omega

theorem adoptionLaw_law : MoveLaw AdoptionLaw where
  queue _ _ h := h.congr rfl rfl rfl rfl
  restarts powered straps s _ := adoptionLaw_start (n := 4) (by omega) rfl rfl rfl
  cuts s h := by
    obtain ⟨flash, cfg, hcut⟩ := cutOff_frame s
    rw [hcut]
    exact h.congr rfl rfl rfl rfl
  takes s image d _ _ := adoptionLaw_start (settingsOf_collectors_le image) rfl rfl rfl
  scans s _ h := h.congr rfl rfl rfl rfl
  moves s t h hm := Moves.keeps adoptionLaw_move hm h

/-! ## Capacities together -/

theorem withinCapacity_iff (s : State) : WithinCapacity s ↔ ListsFit s ∧ TableFits s ∧ AdoptionLaw s := by
  constructor
  · intro h
    exact ⟨⟨h.intake, h.relayQueue, ⟨h.relayList, h.relayPairs, h.heldMemory, h.heldPairs, h.heldPending, h.heldPendingPairs⟩,
      ⟨h.notices, h.noticeMeters⟩, h.replies, ⟨h.pageBuffer, h.pageFilling⟩, h.writeQueue,
      ⟨h.logSectors, h.eraseSectors, h.eraseRange⟩⟩, ⟨h.table, h.tableMeters⟩, h.adoption⟩
  · rintro ⟨⟨hintake, hqueue, hrelay, hnotices, hreplies, hpage, hwrite, hsectors⟩, htable, hadoption⟩
    have hsub : s.store.eraseList.map (·.sector) ⊆ (List.range 384).map (128 + ·) := by
      intro n hn
      obtain ⟨i, hi, rfl⟩ := List.mem_map.1 hn
      have := hsectors.range i hi
      exact List.mem_map.2 ⟨i.sector - 128, List.mem_range.2 (by omega), by omega⟩
    have hlen := (hsectors.nodup.subperm hsub).length_le
    simp only [List.length_map, List.length_range] at hlen
    exact ⟨hintake, hqueue, hrelay.list, hrelay.pairs, hrelay.memory, hrelay.memoryPairs, hrelay.pending, hrelay.pendingPairs,
      hnotices.1, hnotices.2, hreplies, htable.1, htable.2, hadoption, hpage.1, hpage.2, hwrite, hsectors.rows, hsectors.nodup,
      hsectors.range, hlen⟩

/-- Settles O19: the counters are a law of the moves. -/
theorem countersStayInRange : Obligations.CountersStayInRange := by
  unfold Obligations.CountersStayInRange
  exact fun s t hs ht => countersInRange_law.stepLaw.step hs ht

/-- Settles O20: the lists, the route table and the adoption queue, each a law of the moves. -/
theorem capacitiesHold : Obligations.CapacitiesHold := by
  unfold Obligations.CapacitiesHold
  intro s t hs ht
  obtain ⟨hlists, htable, hadoption⟩ := (withinCapacity_iff s).1 hs
  exact (withinCapacity_iff t).2 ⟨listsFit_law.stepLaw.step hlists ht, tableFits_law.stepLaw.step htable ht,
    adoptionLaw_law.stepLaw.step hadoption ht⟩

/-! ## The law of the run state (R137) -/

/-- A VALID plan where the run state needs one, and no more shares than N: what every move of the shares keeps. -/
structure RunBase (s : State) : Prop where
  plan : ∀ r, s.engine.runState = some r → r.needsPlan = true → s.engine.plan.isSome = true
  count : s.presence.shares.length ≤ s.settings.collectors

/-- No share is QUEUED, LOADING or ADOPTED. -/
def SharesQuiet (s : State) : Prop := ∀ x ∈ s.presence.shares, x = .own ∨ x = .notMine

theorem RunLaw.base {s : State} (h : RunLaw s) : RunBase s := ⟨h.plan, h.count⟩

theorem RunBase.congr {s t : State} (h : RunBase s) (hrun : t.engine.runState = s.engine.runState) (hplan : t.engine.plan = s.engine.plan)
    (hshares : t.presence.shares.length = s.presence.shares.length) (hsettings : t.startup.settings = s.startup.settings) : RunBase t := by
  have hset : t.settings = s.settings := hsettings
  constructor
  · rw [hrun, hplan]; exact h.plan
  · rw [hshares, hset]; exact h.count

theorem ShareMove.shares_length {s t : State} (h : ShareMove s t) : t.presence.shares.length = s.presence.shares.length := by
  cases h with
  | calm h => rw [h.shares]
  | queues n _ _ _ => exact List.length_set ..
  | unqueues n _ _ => exact List.length_set ..
  | abandons n _ _ => exact List.length_set ..
  | releases n _ => exact List.length_set ..

theorem runBase_shareMove (s t : State) (h : ShareMove s t) (hs : RunBase s) : RunBase t :=
  hs.congr h.frame.runState h.frame.plan h.shares_length h.frame.settings

theorem isRunning_congr {s t : State} (h : t.engine.runState = s.engine.runState) : t.isRunning = s.isRunning := by
  unfold State.isRunning
  rw [h]

/-- What a move of the shares makes of one share outside RUNNING: nothing, or NOT MINE. -/
theorem ShareMove.quiet_shares {s t : State} (h : ShareMove s t) (hrun : s.isRunning = false) {i : Nat} {x : ShareState}
    (hx : t.presence.shares[i]? = some x) : x = .notMine ∨ s.presence.shares[i]? = some x := by
  have hset {n : Nat} (h : (s.presence.shares.set (n - 1) .notMine)[i]? = some x) : x = .notMine ∨ s.presence.shares[i]? = some x := by
    rcases getElem?_set_cases h with ⟨-, rfl⟩ | ⟨-, h⟩
    · exact .inl rfl
    · exact .inr h
  cases h with
  | calm h => rw [h.shares] at hx; exact .inr hx
  | queues n _ _ hr => rw [hrun] at hr; cases hr
  | unqueues n _ _ => exact hset hx
  | abandons n _ _ => exact hset hx
  | releases n _ => exact hset hx

theorem ShareMoves.quiet_shares {s t : State} (h : ShareMoves s t) (hrun : s.isRunning = false) {i : Nat} {x : ShareState}
    (hx : t.presence.shares[i]? = some x) : x = .notMine ∨ s.presence.shares[i]? = some x := by
  induction h generalizing x with
  | refl => exact .inr hx
  | tail hb h ih =>
    rcases h.quiet_shares ((isRunning_congr (ShareMoves.frame hb).runState).trans hrun) hx with h | h
    · exact .inl h
    · exact ih h

/-- Outside RUNNING the comparison of a share leaves it OWN or NOT MINE (R45). -/
theorem compareShare_quiets {s : State} (hrun : s.isRunning = false) {n : Nat} (hn : 1 ≤ n ∧ n ≤ s.settings.collectors) {x : ShareState}
    (hx : (compareShare s n).presence.shares[n - 1]? = some x) : x = .own ∨ x = .notMine := by
  have hstays : x = .notMine ∨ s.presence.shares[n - 1]? = some x := (compareShare_moves s hn).quiet_shares hrun hx
  have hset (t : State) (ht : t.presence.shares = s.presence.shares.set (n - 1) .notMine)
      (h : (judgeHeldEntries t n).presence.shares[n - 1]? = some x) : x = .notMine := by
    rw [(judgeHeldEntries_calm t n).shares, ht] at h
    rcases getElem?_set_cases h with ⟨-, rfl⟩ | ⟨hne, -⟩
    · rfl
    · exact absurd rfl hne
  unfold compareShare at hx
  split at hx
  · next hmine => simp [hrun] at hmine
  · exact .inr (hset _ rfl hx)
  · exact .inr (hset _ rfl hx)
  · rcases getElem?_set_cases hx with ⟨-, rfl⟩ | ⟨hne, -⟩
    · exact .inr rfl
    · exact absurd rfl hne
  · next h1 h2 h3 h4 =>
    rcases hstays with h | h
    · exact .inr h
    · have hstate : s.shareState n = x := by
        unfold State.shareState
        rw [List.getD_eq_getElem?_getD, h]
        rfl
      have hfalse : (s.ownerOf n == s.slot && s.isRunning) = false := by rw [hrun, Bool.and_false]
      cases x with
      | own => exact .inl rfl
      | notMine => exact .inr rfl
      | queued => exact absurd hfalse (h2 hstate)
      | loading => exact absurd hfalse (h3 hstate)
      | adopted => exact absurd hfalse (h4 hstate)

theorem compareShares_quiet (l : List Nat) (s : State) (hrun : s.isRunning = false)
    (hl : ∀ n ∈ l, 1 ≤ n ∧ n ≤ s.settings.collectors) {n : Nat} (hn : n ∈ l) {x : ShareState}
    (hx : (l.foldl compareShare s).presence.shares[n - 1]? = some x) : x = .own ∨ x = .notMine := by
  induction l generalizing s with
  | nil => cases hn
  | cons m l ih =>
    have hm := compareShare_moves s (hl m (by simp))
    have hrun' : (compareShare s m).isRunning = false := (isRunning_congr hm.frame.runState).trans hrun
    have hset : (compareShare s m).settings = s.settings := hm.frame.settings
    have hl' : ∀ n ∈ l, 1 ≤ n ∧ n ≤ (compareShare s m).settings.collectors := fun n hn => hset ▸ hl n (by simp [hn])
    rcases List.mem_cons.1 hn with rfl | hn
    · rcases (compareShares_moves l _ hl').quiet_shares hrun' hx with h | h
      · exact .inr h
      · exact compareShare_quiets hrun (hl n (by simp)) h
    · exact ih _ hrun' hl' hn hx

/-- Outside RUNNING a recomputation leaves no share QUEUED, LOADING or ADOPTED (R45, R137). -/
theorem recompute_sharesQuiet {s : State} (hrun : s.isRunning = false) (hcount : s.presence.shares.length ≤ s.settings.collectors) :
    SharesQuiet (recompute s) := by
  have h1 : Calm s (remap (raceReading s)) := (raceReading_calm s).trans (remap_calm _)
  have hset : (remap (raceReading s)).settings = s.settings := h1.settings
  have hlen : (recompute s).presence.shares.length = s.presence.shares.length :=
    ShareMoves.keeps (P := fun t => t.presence.shares.length = s.presence.shares.length) (fun _ _ h ht => h.shares_length.trans ht)
      (recompute_moves s) rfl
  intro x hx
  obtain ⟨i, hi, rfl⟩ := List.getElem_of_mem hx
  refine compareShares_quiet s.allShares (remap (raceReading s)) ((isRunning_congr h1.runState).trans hrun)
    (fun n hn => hset ▸ mem_allShares.1 hn) (n := i + 1) (mem_allShares.2 (by omega)) ?_
  exact List.getElem?_eq_getElem hi

theorem runLaw_shareMove (s t : State) (h : ShareMove s t) (hs : RunLaw s) : RunLaw t := by
  have hb := runBase_shareMove s t h hs.base
  refine ⟨hb.plan, fun hrun x hx => ?_, hb.count⟩
  have hrun : s.isRunning = false := (isRunning_congr h.frame.runState).symm.trans hrun
  obtain ⟨i, hi, rfl⟩ := List.getElem_of_mem hx
  rcases h.quiet_shares hrun (List.getElem?_eq_getElem hi) with h | h
  · exact .inr h
  · exact hs.shares hrun _ (List.mem_of_getElem? h)

/-- The law depends on the run state, the plan, the shares and the settings alone. -/
theorem RunLaw.congr {s t : State} (h : RunLaw s) (hrun : t.engine.runState = s.engine.runState) (hplan : t.engine.plan = s.engine.plan)
    (hshares : t.presence.shares = s.presence.shares) (hsettings : t.startup.settings = s.startup.settings) : RunLaw t := by
  have hb := h.base.congr hrun hplan (by rw [hshares]) hsettings
  refine ⟨hb.plan, fun hr => ?_, hb.count⟩
  rw [hshares]
  exact h.shares ((isRunning_congr hrun).symm.trans hr)

/-- A share that is neither OWN nor NOT MINE is met in RUNNING alone. -/
theorem RunLaw.running {s : State} (h : RunLaw s) {i : Nat} {x : ShareState} (hx : s.presence.shares[i]? = some x)
    (hne : x ≠ .own ∧ x ≠ .notMine) : s.isRunning = true := by
  by_contra hr
  rcases h.shares (by simpa using hr) x (List.mem_of_getElem? hx) with rfl | rfl
  · exact hne.1 rfl
  · exact hne.2 rfl

/-- A change of one share in RUNNING. -/
theorem RunLaw.set {s t : State} {n : Nat} {x : ShareState} (h : RunLaw s) (hrunning : s.isRunning = true)
    (hrun : t.engine.runState = s.engine.runState) (hplan : t.engine.plan = s.engine.plan)
    (hshares : t.presence.shares = s.presence.shares.set (n - 1) x) (hsettings : t.startup.settings = s.startup.settings) : RunLaw t := by
  have hb := h.base.congr hrun hplan (by rw [hshares, List.length_set]) hsettings
  exact ⟨hb.plan, fun hr => absurd (hrunning.symm.trans ((isRunning_congr hrun).symm.trans hr)) (by simp), hb.count⟩

theorem endAdoption_engine (s : State) : (endAdoption s).engine.runState = s.engine.runState ∧
    (endAdoption s).engine.plan = s.engine.plan := by
  unfold endAdoption
  dsimp only
  split <;> exact ⟨rfl, rfl⟩

theorem foldl_admitEntry_engine (l : List Entry) (s : State) :
    (l.foldl admitEntry s).engine.runState = s.engine.runState ∧ (l.foldl admitEntry s).engine.plan = s.engine.plan :=
  ⟨foldl_apart (p := fun s => s.engine.runState) (fun s e => by unfold admitEntry; split <;> rfl) l s,
    foldl_apart (p := fun s => s.engine.plan) (fun s e => by unfold admitEntry; split <;> rfl) l s⟩

theorem runLaw_move {K : Known} (s t : State) (h : Move K s t) (hs : RunLaw s) : RunLaw t := by
  have hkept := h.kept
  cases h with
  | share h => exact runLaw_shareMove s t h hs
  | beginsLoad n rest _ hrun _ _ => exact hs.set hrun rfl rfl rfl rfl
  | completes n _ hstate calm =>
    obtain ⟨hr, hp⟩ := foldl_admitEntry_engine (s.engine.entriesOf n) s
    have hpres := foldl_admitEntry_presence (s.engine.entriesOf n) s
    have hrunning := hs.running (shares_of_shareState hstate (by simp)) (by simp)
    refine hs.set (n := n) (x := .adopted) hrunning (calm.runState.trans hr) (calm.plan.trans hp) (calm.shares.trans ?_) hkept.settings
    exact congrArg (fun p : Presence => p.shares.set (n - 1) .adopted) hpres
  | @closes u hstate calm =>
    obtain ⟨hr, hp⟩ := endAdoption_engine u
    obtain ⟨-, hshares⟩ := endAdoption_presence u
    have hu : u.presence.shares = s.presence.shares := calm.shares
    have hplan : s.engine.plan.isSome = true := hstate.elim (fun h => hs.plan _ h rfl) fun h => hs.plan _ h rfl
    have hset : (endAdoption u).settings = s.settings := hkept.settings
    refine ⟨fun _ _ _ => ?_, fun _ x hx => ?_, ?_⟩
    · rw [hp, calm.plan]; exact hplan
    · rw [hshares] at hx
      obtain ⟨y, -, rfl⟩ := List.mem_map.1 hx
      split
      · exact .inl rfl
      · exact .inr rfl
    · rw [hshares, hu, hset, List.length_map]; exact hs.count
  | setsRun p r ready =>
    let u : State := { s with engine := { s.engine with plan := p, runState := some r } }
    have hu : RunBase u := by
      refine ⟨fun x hx hneeds => ?_, hs.count⟩
      obtain rfl : r = x := Option.some.inj hx
      rcases ready hneeds with ⟨-, hp⟩ | ⟨rfl, y, hy, hyneeds⟩
      · exact hp
      · exact hs.plan y hy hyneeds
    have hb : RunBase (recompute u) := ShareMoves.keeps runBase_shareMove (recompute_moves u) hu
    exact ⟨hb.plan, fun hr => recompute_sharesQuiet ((isRunning_congr (recompute_moves u).frame.runState).symm.trans hr) hu.count, hb.count⟩
  | plans _ p => exact ⟨fun _ _ _ => rfl, hs.shares, hs.count⟩
  | changes _ _ _ _ _ | replaces _ _ _ _ | removes _ _ _ | checks _ _ | beginsBuild _ _ | inserts _ _ _ _ _ | builds _ _ | stops _ _ _
    | asks _ | header _ | loads _ _ _ | clearsRows => exact hs.congr rfl rfl rfl rfl

theorem runLaw_start {s : State} {n : Nat} (hset : s.settings.collectors = n) (hshares : s.presence.shares = sharesAfterStart s.slot n)
    (hplan : ∀ r, s.engine.runState = some r → r.needsPlan = true → s.engine.plan.isSome = true) : RunLaw s := by
  refine ⟨hplan, fun _ x hx => ?_, by rw [hshares, hset]; simp [sharesAfterStart]⟩
  rw [hshares] at hx
  obtain ⟨i, -, rfl⟩ := List.mem_map.1 hx
  split
  · exact .inl rfl
  · exact .inr rfl

theorem runLaw_law : MoveLaw RunLaw where
  queue _ _ h := h.congr rfl rfl rfl rfl
  restarts powered straps s _ := runLaw_start (n := 4) rfl rfl fun r hr => by cases hr
  cuts s h := by
    obtain ⟨flash, cfg, hcut⟩ := cutOff_frame s
    rw [hcut]
    exact h.congr rfl rfl rfl rfl
  takes s image d _ h := runLaw_start rfl rfl h.plan
  scans s _ h := h.congr rfl rfl rfl rfl
  moves s t h hm := Moves.keeps runLaw_move hm h

/-- Settles O21: the run state changes with a recomputation, which leaves no share taken on outside RUNNING. -/
theorem runLawHolds : Obligations.RunLawHolds := by
  unfold Obligations.RunLawHolds
  exact fun s t hs ht => runLaw_law.stepLaw.step hs ht

end Sys2Proof.Machine
end

section
/-!
PROOF. The score law and the law of the tracker's figures are laws of every step. A score changes with the detectors of its entry alone;
the segment counts and the revisit list follow the reports of the entries one by one, and where an entry goes unreported, it counts nowhere.
-/

namespace Sys2Proof.Machine

/-! ## Scores (R111) -/

theorem Scored.of_subset {s t : State} (h : Scored s) (hset : t.startup.settings = s.startup.settings)
    (hsub : ∀ e ∈ t.engine.table, e ∈ s.engine.table) : Scored t := fun e he => hset ▸ h e (hsub e he)

/-- An entry of the table after a change is the changed one, or was there before. -/
theorem mem_replaceEntry_cases {g : Engine} {e e' x : Entry} (h : x ∈ (g.replaceEntry e e').table) : x = e' ∨ x ∈ g.table := by
  obtain ⟨y, hy, hyx⟩ := List.mem_map.1 h
  split at hyx
  · exact .inl hyx.symm
  · exact .inr (hyx ▸ hy)

theorem Scored.of_replace {s t : State} {e e' : Entry} (h : Scored s) (hset : t.startup.settings = s.startup.settings)
    (ht : t.engine.table = (s.engine.replaceEntry e e').table) (he : e'.score = scoreOf s.startup.settings e'.detectors) : Scored t := by
  intro x hx
  rw [hset]
  rcases mem_replaceEntry_cases (ht ▸ hx) with rfl | hx
  · exact he
  · exact h x hx

theorem scored_shareMove (s t : State) (h : ShareMove s t) (hs : Scored s) : Scored t := by
  have hset := h.frame.settings
  cases h with
  | calm h => exact hs.of_subset hset fun e he => h.table ▸ he
  | queues n _ _ _ | unqueues n _ _ | releases n _ => exact hs.of_subset hset fun _ => id
  | abandons n _ _ => exact hs.of_subset hset fun e he => (List.mem_filter.1 he).1

/-- An entry without an ACTIVE detector scores 0. -/
theorem scoreOf_fresh (st : Settings) : scoreOf st (List.replicate 7 Detector.fresh) = 0 := rfl

theorem foldl_admitEntry_scored {st : Settings} (l : List Entry) (s : State) (hl : ∀ e ∈ l, e.score = scoreOf st e.detectors)
    (hst : s.startup.settings = st) (hs : Scored s) : Scored (l.foldl admitEntry s) := by
  induction l generalizing s with
  | nil => exact hs
  | cons e l ih =>
    have he := hl e (by simp)
    refine ih _ (fun x hx => hl x (by simp [hx])) ?_ ?_
    · exact (admitEntry_kept s e).settings.trans hst
    · unfold admitEntry
      split
      · exact hs.of_replace (e := e) (e' := { e with status := .missed }) rfl rfl (hst ▸ he)
      · exact hs

theorem Listed.score {K : Known} {s : State} {e : Entry} (h : Listed K s e) (hK : K.scored) (hset : s.startup.settings = K.settings)
    (hs : Scored s) : e.score = scoreOf s.startup.settings e.detectors :=
  h.scored.elim (hs e) fun h => hset ▸ h hK

theorem scored_move {K : Known} (hK : K.scored) (s t : State) (h : Move K s t) (hset : s.startup.settings = K.settings) (hs : Scored s) :
    Scored t := by
  have hkept := h.kept.settings
  cases h with
  | share h => exact scored_shareMove s t h hs
  | changes e e' listed hc _ =>
    refine hs.of_replace hkept rfl ?_
    rcases hc.score with ⟨hscore, hdet⟩ | hscore
    · rw [hscore, hdet]; exact listed.score hK hset hs
    · exact hscore
  | replaces e e' listed hc =>
    refine hs.of_replace hkept rfl ?_
    rw [hc.score, hc.detectors]
    exact listed.score hK hset hs
  | removes e _ _ => exact hs.of_subset hkept fun x hx => (List.mem_filter.1 hx).1
  | inserts e fresh _ _ _ =>
    intro x hx
    rcases List.mem_cons.1 ((insertEntry_perm e _).mem_iff.1 hx) with rfl | hx
    · rw [fresh.score, fresh.detectors, scoreOf_fresh]
    · exact hs x hx
  | completes n _ _ calm =>
    have hfold := foldl_admitEntry_scored (s.engine.entriesOf n) s (fun e he => hs e (List.mem_filter.1 he).1) rfl hs
    exact (hfold.of_subset (t := admitShare s n) rfl fun _ => id).of_subset calm.settings fun e he => calm.table ▸ he
  | stops n _ _ => exact hs.of_subset hkept fun x hx => (List.mem_filter.1 hx).1
  | @closes u _ calm => exact hs.of_subset hkept fun e he => calm.table ▸ (endAdoption_table u).mem he
  | setsRun p r _ =>
    exact ShareMoves.keeps scored_shareMove (recompute_moves { s with engine := { s.engine with plan := p, runState := some r } }) hs
  | checks _ _ | beginsBuild _ _ | builds p _ | beginsLoad n rest _ _ _ _ | plans _ p | asks _ | header _ | loads _ l _ | clearsRows =>
    exact hs

/-! ## Before step 2 nothing is built -/

/-- A change that fills and starts nothing, and changes no run state. -/
theorem NothingBuilt.of_same {s t : State} (h : NothingBuilt s) (table : t.engine.table.Sublist s.engine.table)
    (op : s.engine.op.readsPlan = false → t.engine.op.readsPlan = false)
    (requests : ∀ r, r = .ownBuild ∨ r = .planCheck → r ∈ t.engine.requests → r ∈ s.engine.requests)
    (runState : ∀ r, t.engine.runState = some r → r.needsPlan = true → s.engine.runState = some r)
    (ending : NotEnding s.dock.load.check s.dock.load.phase → NotEnding t.dock.load.check t.dock.load.phase)
    (header : NoHeader s.store.progs s.store.serving → NoHeader t.store.progs t.store.serving) : NothingBuilt t := by
  obtain ⟨hcheck, hphase⟩ := ending ⟨h.check, h.phase⟩
  obtain ⟨hprogs, hserving⟩ := header ⟨h.progs, h.serving⟩
  refine ⟨?_, op h.op, fun hm => h.noBuild (requests _ (.inl rfl) hm), fun hm => h.noCheck (requests _ (.inr rfl) hm), fun r hr => ?_,
    hcheck, hphase, hprogs, hserving⟩
  · rw [h.table] at table
    exact List.sublist_nil.1 table
  · by_contra hneeds
    have := h.runState r (runState r hr (by simpa using hneeds))
    exact hneeds this

theorem NothingBuilt.calm {s t : State} (h : NothingBuilt s) (k : Calm s t) : NothingBuilt t :=
  h.of_same (k.table ▸ .refl _) k.quiet k.requests (fun _ hr _ => k.runState ▸ hr) k.ending k.header

theorem nothingBuilt_shareMove (s t : State) (h : ShareMove s t) (hs : NothingBuilt s) : NothingBuilt t := by
  cases h with
  | calm h => exact hs.calm h
  | queues n _ _ _ | unqueues n _ _ | releases n _ => exact hs.of_same (.refl _) id (fun _ _ => id) (fun _ hr _ => hr) id id
  | abandons n _ _ =>
    exact hs.of_same List.filter_sublist (fun _ => rfl) (fun _ _ => id) (fun _ hr _ => hr) id (Store.orphanEngineRead_calm s.store).header

theorem NothingBuilt.not_running {s : State} (h : NothingBuilt s) : s.isRunning = false := by
  by_contra hr
  have hr : s.engine.runState = some .running := by simpa [State.isRunning] using hr
  exact absurd (h.runState _ hr) (by simp [RunState.needsPlan])

theorem NothingBuilt.not_loads {s : State} (h : NothingBuilt s) {n : Nat} : s.engine.op.loads ≠ some n := by
  rw [(EngineOp.quiet_of_readsPlan h.op).1]; simp

theorem NothingBuilt.not_builds {s : State} (h : NothingBuilt s) : s.engine.op.builds ≠ true := by
  rw [(EngineOp.quiet_of_readsPlan h.op).2]; simp

theorem nothingBuilt_move {K : Known} (hK : ¬ K.awake) (s t : State) (h : Move K s t) (hs : NothingBuilt s) : NothingBuilt t := by
  have hreplace (e e' : Entry) : (s.engine.replaceEntry e e').table.Sublist s.engine.table := by
    simp [Engine.replaceEntry, hs.table]
  cases h with
  | share h => exact nothingBuilt_shareMove s t h hs
  | changes e e' _ _ _ => exact hs.of_same (hreplace e e') id (fun _ _ => id) (fun _ hr _ => hr) id id
  | replaces e e' _ _ => exact hs.of_same (hreplace e e') id (fun _ _ => id) (fun _ hr _ => hr) id id
  | removes e _ _ => exact hs.of_same List.filter_sublist id (fun _ _ => id) (fun _ hr _ => hr) id id
  | checks ha _ | beginsBuild ha _ | plans ha _ | asks ha | header ha | loads ha _ _ => exact absurd ha hK
  | inserts e _ _ _ hreader =>
    rcases hreader with ⟨hb, -⟩ | ⟨n, hl, -⟩
    · exact absurd hb hs.not_builds
    · exact absurd hl hs.not_loads
  | builds p hb => exact absurd hb hs.not_builds
  | beginsLoad n rest _ hrun _ _ => rw [hs.not_running] at hrun; cases hrun
  | completes n hl _ _ | stops n hl _ => exact absurd hl hs.not_loads
  | closes hstate _ =>
    rcases hstate with hr | hr <;> exact absurd (hs.runState _ hr) (by simp [RunState.needsPlan])
  | setsRun p r ready =>
    have hneeds : r.needsPlan = false := by
      by_contra hr
      rcases ready (by simpa using hr) with ⟨ha, -⟩ | ⟨-, x, hx, hxneeds⟩
      · exact hK ha
      · rw [hs.runState x hx] at hxneeds; cases hxneeds
    let u : State := { s with engine := { s.engine with plan := p, runState := some r } }
    have hu : NothingBuilt u := hs.of_same (.refl _) id (fun _ _ => id) (fun x hx hxneeds => by
      obtain rfl : r = x := Option.some.inj hx
      rw [hneeds] at hxneeds; cases hxneeds) id id
    exact ShareMoves.keeps nothingBuilt_shareMove (recompute_moves u) hu
  | clearsRows => exact hs.of_same (.refl _) id (fun _ _ => id) (fun _ hr _ => hr) id id

theorem scoreLaw_law : MoveLaw ScoreLaw where
  queue _ _ h := ⟨h.scores, fun hstep => { h.starting hstep with }⟩
  restarts powered straps s _ :=
    ⟨by simp [restart, State.afterStart, Engine.afterStart], fun _ => ⟨rfl, rfl, List.not_mem_nil, List.not_mem_nil,
      fun r hr => absurd hr (by simp [restart, State.afterStart, Engine.afterStart]), rfl, fun h => LoadPhase.noConfusion h, List.not_mem_nil,
      fun h => absurd h (by simp [restart, State.afterStart, Store.afterStart])⟩⟩
  cuts s h := by
    obtain ⟨flash, cfg, hcut⟩ := cutOff_frame s
    rw [hcut]
    exact ⟨h.scores, fun hstep => { h.starting hstep with }⟩
  takes s image d hstep h := by
    have hnil : (takeImage image d s).engine.table = [] := (h.starting hstep).table
    refine ⟨fun e he => ?_, fun hstep => by cases hstep⟩
    rw [hnil] at he
    cases he
  scans s _ h := ⟨h.scores, fun hstep => by cases hstep⟩
  moves s t h hm := by
    have hall : Scored t ∧ (t.startup.step = .config → NothingBuilt t) := by
      induction hm with
      | refl => exact ⟨h.scores, h.starting⟩
      | @tail t u hst htu ih =>
        obtain ⟨hscored, hstarting⟩ := ih
        refine ⟨scored_move (K := s.known) h.scores t u htu (Moves.kept hst).settings hscored, fun hstep => ?_⟩
        have hstep' := htu.kept.step hstep
        have hawake : ¬ s.known.awake := fun ha => ha ((Moves.kept hst).step hstep') (h.starting ((Moves.kept hst).step hstep'))
        exact nothingBuilt_move hawake t u htu (hstarting hstep')
    exact ⟨hall.1, hall.2⟩

end Sys2Proof.Machine
end

section
/-!
PROOF. The Route Tracker's figures (R144, R145, R151): the segment counts and the revisit list as functions of the entries that have been
reported. A report takes an entry in or out; an entry that is HANDING counts nowhere.
-/

namespace Sys2Proof.Machine

/-! ## The revisit list in order (R151) -/

theorem before_iff {a b : RevisitItem} :
    a.before b = true ↔ a.segment < b.segment ∨ (a.segment = b.segment ∧ a.planIndex < b.planIndex) := by
  simp [RevisitItem.before]

theorem before_false_iff {a b : RevisitItem} :
    a.before b = false ↔ ¬ (a.segment < b.segment ∨ (a.segment = b.segment ∧ a.planIndex < b.planIndex)) := by
  rw [← before_iff]; simp

/-- No item stands before one that it follows in the order. -/
def RevisitOrdered (l : List RevisitItem) : Prop := l.Pairwise fun a b => b.before a = false

theorem insertRevisit_perm (i : RevisitItem) (l : List RevisitItem) : (insertRevisit i l).Perm (i :: l) := by
  induction l with
  | nil => exact .refl _
  | cons x l ih =>
    unfold insertRevisit
    split
    · exact .refl _
    · exact (ih.cons x).trans (.swap i x l)

theorem insertRevisit_ordered (i : RevisitItem) {l : List RevisitItem} (h : RevisitOrdered l) : RevisitOrdered (insertRevisit i l) := by
  induction l with
  | nil => exact List.pairwise_singleton _ _
  | cons x l ih =>
    obtain ⟨hx, hl⟩ := List.pairwise_cons.1 h
    unfold insertRevisit
    split
    · next hix =>
      refine List.pairwise_cons.2 ⟨fun y hy => ?_, h⟩
      rw [before_iff] at hix
      rcases List.mem_cons.1 hy with rfl | hy
      · rw [before_false_iff]; omega
      · have := before_false_iff.1 (hx y hy)
        rw [before_false_iff]; omega
    · next hix =>
      refine List.pairwise_cons.2 ⟨fun y hy => ?_, ih hl⟩
      rcases List.mem_cons.1 ((insertRevisit_perm i l).mem_iff.1 hy) with rfl | hy
      · simpa using hix
      · exact hx y hy

/-! ## The figures of a list of entries -/

/-- The counts of a segment's entries (R144), as `TrackerLaw` has them. -/
def CountsOf (l : List Entry) (r : SegmentRow) : Prop :=
  r.expected = l.countP (fun e => e.segment == r.segment && e.counted) ∧
  r.read = l.countP (fun e => e.segment == r.segment && e.countsRead) ∧
  r.missed = l.countP (fun e => e.segment == r.segment && e.countsMissed) ∧
  r.suspect = l.countP (fun e => e.segment == r.segment && e.countsSuspect)

/-- The revisit items of the MISSED entries (R151). -/
def missedItems (l : List Entry) : List RevisitItem := (l.filter (·.countsMissed)).map (·.revisitItem)

/-- The tracker's figures are those of the entries `l`. -/
structure FiguresOf (l : List Entry) (t : Tracker) : Prop where
  counts : ∀ r ∈ t.rows, CountsOf l r
  revisit : t.revisit.Perm (missedItems l)
  order : RevisitOrdered t.revisit

theorem CountsOf.congr {l : List Entry} {r r' : SegmentRow} (h : CountsOf l r) (hr : r'.figures = r.figures) : CountsOf l r' := by
  obtain ⟨rs, rx, re, rr, rm, ru⟩ := r
  obtain ⟨rs', rx', re', rr', rm', ru'⟩ := r'
  simp only [SegmentRow.figures, Prod.mk.injEq] at hr
  obtain ⟨rfl, rfl, rfl, rfl, rfl⟩ := hr
  exact h

/-- A tracker with the same figures row by row and the same revisit list. -/
theorem FiguresOf.congr {l : List Entry} {t t' : Tracker} (h : FiguresOf l t)
    (hrows : t'.rows.map SegmentRow.figures = t.rows.map SegmentRow.figures) (hrevisit : t'.revisit = t.revisit) : FiguresOf l t' := by
  refine ⟨fun r' hr' => ?_, hrevisit ▸ h.revisit, hrevisit ▸ h.order⟩
  have hm : r'.figures ∈ t.rows.map SegmentRow.figures := hrows ▸ List.mem_map_of_mem hr'
  obtain ⟨r, hr, he⟩ := List.mem_map.1 hm
  exact (h.counts r hr).congr he.symm

theorem CountsOf.perm {l l' : List Entry} {r : SegmentRow} (h : CountsOf l r) (hl : l.Perm l') : CountsOf l' r := by
  unfold CountsOf at *
  simpa only [hl.countP_eq] using h

theorem FiguresOf.perm {l l' : List Entry} {t : Tracker} (h : FiguresOf l t) (hl : l.Perm l') : FiguresOf l' t :=
  ⟨fun r hr => (h.counts r hr).perm hl, h.revisit.trans ((hl.filter _).map _), h.order⟩

/-- Counts of a list and those of another one that has as many entries of each kind. -/
theorem CountsOf.of_countP {l l' : List Entry} {r : SegmentRow} (h : CountsOf l r)
    (hl : ∀ p : Entry → Bool, (∀ e, e.status = .handing → p e = false) →
      (∀ e e', SameReport e e' → p e' = p e) → l'.countP p = l.countP p) : CountsOf l' r := by
  obtain ⟨hexpected, hread, hmissed, hsuspect⟩ := h
  refine ⟨hexpected.trans (hl _ ?_ ?_).symm, hread.trans (hl _ ?_ ?_).symm, hmissed.trans (hl _ ?_ ?_).symm,
    hsuspect.trans (hl _ ?_ ?_).symm⟩
  all_goals intro e
  · intro he; simp [Entry.counted, he]
  · intro e' he; simp [Entry.counted, he.segment, he.status]
  · intro he; simp [Entry.countsRead, he]
  · intro e' he; simp [Entry.countsRead, he.segment, he.status]
  · intro he; simp [Entry.countsMissed, he]
  · intro e' he; simp [Entry.countsMissed, he.segment, he.status]
  · intro he; simp [Entry.countsSuspect, Entry.counted, he]
  · intro e' he; simp [Entry.countsSuspect, Entry.counted, he.segment, he.status, he.suspect]

/-- Entries left out that are HANDING count nowhere (R144). -/
theorem FiguresOf.filter {l : List Entry} {t : Tracker} (h : FiguresOf l t) (q : Entry → Bool)
    (hq : ∀ e ∈ l, q e = false → e.status = .handing) : FiguresOf (l.filter q) t := by
  refine ⟨fun r hr => (h.counts r hr).of_countP fun p hp _ => ?_, ?_, h.order⟩
  · rw [List.countP_filter]
    refine List.countP_congr fun e he => ?_
    cases hqe : q e with
    | true => simp
    | false => simp [hp e (hq e he hqe)]
  · have hsame : (l.filter q).filter (·.countsMissed) = l.filter (·.countsMissed) := by
      rw [List.filter_filter]
      refine List.filter_congr fun e he => ?_
      cases hqe : q e with
      | true => simp
      | false => simp [Entry.countsMissed, hq e he hqe]
    unfold missedItems
    rw [hsame]
    exact h.revisit

/-- Entries changed in their references and kept records alone report the same (R69). -/
theorem FiguresOf.map {l : List Entry} {t : Tracker} (h : FiguresOf l t) {g : Entry → Entry} (hg : ∀ e ∈ l, SameReport e (g e)) :
    FiguresOf (l.map g) t := by
  refine ⟨fun r hr => (h.counts r hr).of_countP fun p _ hp => ?_, ?_, h.order⟩
  · rw [List.countP_map]
    exact List.countP_congr fun e he => by simp [hp e (g e) (hg e he)]
  · have hsame : missedItems (l.map g) = missedItems l := by
      unfold missedItems
      rw [List.filter_map, List.map_map]
      have hfilter : l.filter ((fun e => e.countsMissed) ∘ g) = l.filter (·.countsMissed) :=
        List.filter_congr fun e he => by simp [Entry.countsMissed, (hg e he).status]
      rw [hfilter]
      refine List.map_congr_left fun e he => ?_
      have := hg e (List.mem_filter.1 he).1
      simp [Entry.revisitItem, this.meterId, this.segment, this.planIndex]
    rw [hsame]
    exact h.revisit

/-! ## Reports (R145) -/

theorem SegmentRow.add_segment (r : SegmentRow) (e : Entry) : (r.add e).segment = r.segment := by
  unfold SegmentRow.add; split <;> rfl

theorem SegmentRow.remove_segment (r : SegmentRow) (e : Entry) : (r.remove e).segment = r.segment := by
  unfold SegmentRow.remove; split <;> rfl

theorem CountsOf.add {l : List Entry} {r : SegmentRow} (e : Entry) (h : CountsOf l r) : CountsOf (e :: l) (r.add e) := by
  obtain ⟨hexpected, hread, hmissed, hsuspect⟩ := h
  unfold CountsOf
  rw [SegmentRow.add_segment]
  unfold SegmentRow.add
  split
  · next hseg =>
    simp only [List.countP_cons, ← hseg, beq_self_eq_true, Bool.true_and]
    rw [hexpected, hread, hmissed, hsuspect]
    refine ⟨?_, ?_, ?_, ?_⟩ <;> congr 1
    · cases e.counted <;> rfl
    · cases e.countsRead <;> rfl
    · cases e.countsMissed <;> rfl
    · cases e.countsSuspect <;> rfl
  · next hseg =>
    have hne : (e.segment == r.segment) = false := by simpa using fun h => hseg h.symm
    simpa [List.countP_cons, hne] using ⟨hexpected, hread, hmissed, hsuspect⟩

theorem CountsOf.remove {l : List Entry} {r : SegmentRow} {e : Entry} (h : CountsOf (e :: l) r) : CountsOf l (r.remove e) := by
  obtain ⟨hexpected, hread, hmissed, hsuspect⟩ := h
  unfold CountsOf
  rw [SegmentRow.remove_segment]
  unfold SegmentRow.remove
  simp only [List.countP_cons] at hexpected hread hmissed hsuspect
  split
  · next hseg =>
    simp only [← hseg, beq_self_eq_true, Bool.true_and] at hexpected hread hmissed hsuspect ⊢
    rw [hexpected, hread, hmissed, hsuspect]
    refine ⟨?_, ?_, ?_, ?_⟩
    · cases e.counted <;> simp
    · cases e.countsRead <;> simp
    · cases e.countsMissed <;> simp
    · cases e.countsSuspect <;> simp
  · next hseg =>
    have hne : (e.segment == r.segment) = false := by simpa using fun h => hseg h.symm
    simp only [hne, Bool.false_and, Bool.false_eq_true, if_false, Nat.add_zero] at hexpected hread hmissed hsuspect
    exact ⟨hexpected, hread, hmissed, hsuspect⟩

theorem missedItems_cons (e : Entry) (l : List Entry) :
    missedItems (e :: l) = if e.status = .missed then e.revisitItem :: missedItems l else missedItems l := by
  unfold missedItems
  by_cases he : e.status = .missed <;> simp [Entry.countsMissed, he]

theorem FiguresOf.learn {l : List Entry} {t : Tracker} (e : Entry) (h : FiguresOf l t) : FiguresOf (e :: l) (t.learn e) := by
  refine ⟨fun r hr => ?_, ?_, ?_⟩
  · obtain ⟨x, hx, rfl⟩ := List.mem_map.1 hr
    exact (h.counts x hx).add e
  · unfold Tracker.learn
    rw [missedItems_cons]
    split
    · exact (insertRevisit_perm _ _).trans (h.revisit.cons _)
    · exact h.revisit
  · unfold Tracker.learn
    dsimp only
    split
    · exact insertRevisit_ordered _ h.order
    · exact h.order

/-- The report that an entry is no longer as it was, where no other entry is of its meter. -/
theorem FiguresOf.forget {l : List Entry} {t : Tracker} {e : Entry} (h : FiguresOf (e :: l) t) (hnew : ∀ x ∈ l, x.meterId ≠ e.meterId) :
    FiguresOf l (t.forget e) := by
  refine ⟨fun r hr => ?_, ?_, ?_⟩
  · obtain ⟨x, hx, rfl⟩ := List.mem_map.1 hr
    exact (h.counts x hx).remove
  · have hrevisit := h.revisit
    rw [missedItems_cons] at hrevisit
    unfold Tracker.forget
    dsimp only
    split
    · next he =>
      rw [if_pos he] at hrevisit
      have hnot : ∀ i ∈ missedItems l, (i != e.revisitItem) = true := by
        intro i hi
        obtain ⟨x, hx, rfl⟩ := List.mem_map.1 hi
        have := hnew x (List.mem_filter.1 hx).1
        simp only [bne_iff_ne, ne_eq, Entry.revisitItem, RevisitItem.mk.injEq]
        exact fun h => this h.1
      have hfiltered := hrevisit.filter (· != e.revisitItem)
      rwa [List.filter_cons_of_neg (by simp), List.filter_eq_self.2 hnot] at hfiltered
    · next he => rwa [if_neg he] at hrevisit
  · unfold Tracker.forget
    dsimp only
    split
    · exact h.order.filter _
    · exact h.order

/-- A HANDING entry's report changes no figure (R144). -/
theorem forget_handing {t : Tracker} {e : Entry} (h : e.status = .handing) : t.forget e = t := by
  have hrow (r : SegmentRow) : r.remove e = r := by
    unfold SegmentRow.remove
    split
    · have hread : e.countsRead = false := by unfold Entry.countsRead; rw [h]; rfl
      have hmissed : e.countsMissed = false := by unfold Entry.countsMissed; rw [h]; rfl
      simp [Entry.counted, Entry.countsSuspect, h, hread, hmissed]
    · rfl
  have hrows : t.rows.map (·.remove e) = t.rows := by
    rw [List.map_congr_left fun r _ => hrow r]
    exact List.map_id _
  unfold Tracker.forget
  rw [hrows, if_neg (by simp [h])]

theorem foldl_add_counts (l : List Entry) {done : List Entry} {r : SegmentRow} (h : CountsOf done r) :
    CountsOf (l.reverse ++ done) (l.foldl SegmentRow.add r) := by
  induction l generalizing done r with
  | nil => exact h
  | cons e l ih =>
    rw [List.reverse_cons, List.append_assoc]
    exact ih (h.add e)

/-- The segment table of a build has the counts of the table's entries (R66, R144). -/
theorem FiguresOf.fresh {l : List Entry} {t : Tracker} (h : FiguresOf l t) (n : Nat) : FiguresOf l { t with rows := freshRows n l } := by
  refine ⟨fun r hr => ?_, h.revisit, h.order⟩
  obtain ⟨i, -, rfl⟩ := List.mem_map.1 hr
  have h0 : CountsOf [] ⟨i, .ahead, 0, 0, 0, 0⟩ := ⟨rfl, rfl, rfl, rfl⟩
  exact (foldl_add_counts l h0).perm (by simp)

theorem FiguresOf.noRows {l : List Entry} {t : Tracker} (h : FiguresOf l t) : FiguresOf l { t with rows := [] } :=
  ⟨List.forall_mem_nil _, h.revisit, h.order⟩

/-! ## An entry among the others -/

section
variable {table : List Entry} {e : Entry}

theorem table_perm_of_mem (hmeters : (table.map (·.meterId)).Nodup) (he : e ∈ table) :
    table.Perm (e :: table.filter (·.meterId != e.meterId)) := by
  induction table with
  | nil => cases he
  | cons x l ih =>
    obtain ⟨hx, hl⟩ := List.nodup_cons.1 (List.map_cons ▸ hmeters)
    rcases List.mem_cons.1 he with rfl | he
    · rw [List.filter_cons_of_neg (by simp), List.filter_eq_self.2]
      intro y hy
      simp only [bne_iff_ne, ne_eq]
      exact fun h => hx (h ▸ List.mem_map_of_mem hy)
    · have hne : x.meterId ≠ e.meterId := fun h => hx (h ▸ List.mem_map_of_mem he)
      rw [List.filter_cons_of_pos (by simpa using hne)]
      exact ((ih hl he).cons x).trans (.swap e x _)

/-- Only the entry itself is of its meter. -/
theorem eq_of_meterId (hmeters : (table.map (·.meterId)).Nodup) {x : Entry} (hx : x ∈ table) (he : e ∈ table)
    (h : x.meterId = e.meterId) : x = e := List.inj_on_of_nodup_map hmeters hx he h

/-- A replacement in a list of entries, one of them of the meter. -/
theorem replace_perm (e' : Entry) {rest : List Entry} (hperm : table.Perm (e :: rest)) (hrest : ∀ x ∈ rest, x.meterId ≠ e.meterId) :
    (table.map fun x => if x.meterId = e.meterId then e' else x).Perm (e' :: rest) := by
  refine (hperm.map _).trans ?_
  rw [List.map_cons, if_pos rfl]
  have : (rest.map fun x => if x.meterId = e.meterId then e' else x) = rest := by
    conv_rhs => rw [← List.map_id rest]
    exact List.map_congr_left fun x hx => by simp [hrest x hx]
  rw [this]

theorem mem_others {x : Entry} (h : x ∈ table.filter (·.meterId != e.meterId)) : x.meterId ≠ e.meterId := by
  simpa using (List.mem_filter.1 h).2

end

end Sys2Proof.Machine
end

section
/-!
PROOF. The law of the tracker's figures move by move, and the score law's obligation.
-/

namespace Sys2Proof.Machine

/-! ## The law by what an operation loads and builds -/

/-- The entries that the Route Tracker has been told of, by the share that is being loaded (R49, R145). -/
def reportedOf (loads : Option Nat) (table : List Entry) : List Entry :=
  match loads with
  | some n => table.filter (·.origin != .adopted n)
  | none => table

theorem reported_eq (s : State) : s.reported = reportedOf s.engine.op.loads s.engine.table := by
  unfold State.reported
  cases s.engine.op <;> rfl

theorem reportedOf_sublist (o : Option Nat) (l : List Entry) : (reportedOf o l).Sublist l := by
  cases o
  · exact .refl _
  · exact List.filter_sublist

theorem EngineOp.builds_iff {o : EngineOp} : o.builds = true ↔ ∃ i, o = .ownBuild i := by
  cases o <;> simp [EngineOp.builds]

theorem EngineOp.loads_iff {o : EngineOp} {n : Nat} : o.loads = some n ↔ ∃ j, o = .load n j := by
  cases o <;> simp [EngineOp.loads]

/-- The law of the tracker's figures apart from the route table's own. -/
structure Tracked (s : State) : Prop where
  figures : FiguresOf (reportedOf s.engine.op.loads s.engine.table) s.tracker
  building : s.engine.op.builds = true → s.tracker.rows = []
  loading : ∀ i, s.presence.shares[i]? = some .loading → s.engine.op.loads = some (i + 1)
  queue : ∀ n ∈ s.presence.adoptQueue, 1 ≤ n

theorem trackerLaw_iff {s : State} : TrackerLaw s ↔ TableFits s ∧ Tracked s := by
  constructor
  · intro h
    refine ⟨⟨h.capacity, h.meters⟩, ⟨fun r hr => ?_, ?_, h.revisitOrder⟩, fun hb => ?_, fun i hi => EngineOp.loads_iff.2 (h.loading i hi),
      h.queue⟩
    · rw [← reported_eq]; exact h.counts r hr
    · rw [← reported_eq]; exact h.revisit
    · obtain ⟨i, hi⟩ := EngineOp.builds_iff.1 hb
      exact h.building i hi
  · rintro ⟨⟨hcap, hmeters⟩, ⟨hfigures, hbuilding, hloading, hqueue⟩⟩
    rw [← reported_eq] at hfigures
    exact ⟨hcap, hmeters, hfigures.counts, hfigures.revisit, hfigures.order, fun i hi => hbuilding (EngineOp.builds_iff.2 ⟨i, hi⟩),
      fun i hi => EngineOp.loads_iff.1 (hloading i hi), hqueue⟩

/-! ## Moves of the shares -/

/-- A change that leaves the entries, the operation's load and the figures as they are. -/
theorem Tracked.of_same {s t : State} (h : Tracked s) (loads : t.engine.op.loads = s.engine.op.loads)
    (builds : t.engine.op.builds = true → s.engine.op.builds = true) (table : t.engine.table = s.engine.table)
    (rows : t.tracker.rows.map SegmentRow.figures = s.tracker.rows.map SegmentRow.figures) (revisit : t.tracker.revisit = s.tracker.revisit)
    (shares : ∀ i : Nat, t.presence.shares[i]? = some ShareState.loading → s.presence.shares[i]? = some ShareState.loading)
    (queue : ∀ n ∈ t.presence.adoptQueue, 1 ≤ n) : Tracked t := by
  refine ⟨?_, fun hb => ?_, fun i hi => loads ▸ h.loading i (shares i hi), queue⟩
  · rw [loads, table]
    exact h.figures.congr rows revisit
  · rw [h.building (builds hb)] at rows
    exact List.map_eq_nil_iff.1 rows

theorem Tracked.calm {s t : State} (h : Tracked s) (k : Calm s t) : Tracked t :=
  h.of_same k.op.loads k.op.builds k.table k.rows k.revisit (fun _ hi => k.shares ▸ hi) (k.adoptQueue ▸ h.queue)

/-- A share set to another state than LOADING leaves no other share LOADING. -/
theorem loading_of_set {l : List ShareState} {i j : Nat} {x : ShareState} (hx : x ≠ .loading) (h : (l.set i x)[j]? = some .loading) :
    j ≠ i ∧ l[j]? = some .loading := by
  rcases getElem?_set_cases h with ⟨-, rfl⟩ | h
  · exact absurd rfl hx
  · exact h

/-- The load that is in progress stops: its entries go, which have not been reported (R52). -/
theorem Tracked.stopLoad {s : State} {n : Nat} (h : Tracked s) (hop : s.engine.op.loads = some n) :
    FiguresOf (stopLoad s n).engine.table (stopLoad s n).tracker := by
  have := h.figures
  rwa [hop] at this

/-- A LOADING share is the one that the operation loads. -/
theorem Tracked.loads_of_loading {s : State} {n : Nat} (h : Tracked s) (hn : 1 ≤ n ∨ s.engine.op.loads = some n)
    (hstate : s.shareState n = .loading) : s.engine.op.loads = some n := by
  rcases hn with hn | hn
  · have := h.loading _ (shares_of_shareState hstate (by simp))
    rwa [Nat.sub_add_cancel hn] at this
  · exact hn

theorem tracked_shareMove (s t : State) (h : ShareMove s t) (hs : Tracked s) : Tracked t := by
  cases h with
  | calm h => exact hs.calm h
  | queues n hrange _ _ =>
    refine hs.of_same rfl id rfl rfl rfl (fun i hi => (loading_of_set (by simp) hi).2) fun m hm => ?_
    rcases List.mem_append.1 hm with hm | hm
    · exact hs.queue m hm
    · exact List.mem_singleton.1 hm ▸ hrange.1
  | unqueues n _ _ =>
    exact hs.of_same rfl id rfl rfl rfl (fun i hi => (loading_of_set (by simp) hi).2) fun m hm => hs.queue m (List.mem_filter.1 hm).1
  | abandons n hrange hstate =>
    have hop := hs.loads_of_loading hrange hstate
    refine ⟨hs.stopLoad hop, nofun, fun i hi => ?_, hs.queue⟩
    obtain ⟨hne, hi⟩ := loading_of_set (by simp) hi
    have := (hs.loading i hi).symm.trans hop
    simp only [Option.some.injEq] at this
    omega
  | releases n _ => exact hs.of_same rfl id rfl rfl rfl (fun i hi => (loading_of_set (by simp) hi).2) hs.queue

/-! ## Entries counted at the end of a load (R49) -/

/-- What an entry of the load becomes: MISSED where its segment is CLOSED. -/
theorem admitEntry_figures {s : State} {done rest : List Entry} {e : Entry} (hmeters : (s.engine.table.map (·.meterId)).Nodup)
    (htable : s.engine.table.Perm (done ++ e :: rest)) (hfigures : FiguresOf done s.tracker) :
    ∃ e', e'.meterId = e.meterId ∧ (admitEntry s e).engine.table.Perm (e' :: done ++ rest) ∧
      FiguresOf (e' :: done) (admitEntry s e).tracker := by
  have hperm : s.engine.table.Perm (e :: (done ++ rest)) := htable.trans List.perm_middle
  unfold admitEntry
  split
  · have hnew : ∀ x ∈ done ++ rest, x.meterId ≠ e.meterId := by
      have hnodup := (hperm.map (·.meterId)).nodup_iff.1 hmeters
      rw [List.map_cons, List.nodup_cons] at hnodup
      exact fun x hx h => hnodup.1 (h ▸ List.mem_map_of_mem hx)
    exact ⟨{ e with status := .missed }, rfl, replace_perm _ hperm hnew, hfigures.learn _⟩
  · exact ⟨e, rfl, hperm, hfigures.learn e⟩

theorem foldl_admitEntry_figures (l : List Entry) {s : State} {done : List Entry} (hmeters : (s.engine.table.map (·.meterId)).Nodup)
    (htable : s.engine.table.Perm (done ++ l)) (hfigures : FiguresOf done s.tracker) :
    FiguresOf (l.foldl admitEntry s).engine.table (l.foldl admitEntry s).tracker := by
  induction l generalizing s done with
  | nil => exact hfigures.perm (by simpa using htable.symm)
  | cons e l ih =>
    obtain ⟨e', hmeter, htable', hfigures'⟩ := admitEntry_figures hmeters htable hfigures
    refine ih ?_ htable' hfigures'
    have hsame : ((done ++ e :: l).map (·.meterId)).Perm ((e' :: done ++ l).map (·.meterId)) := by
      have h := List.perm_middle (a := e) (l₁ := done) (l₂ := l)
      refine (h.map _).trans ?_
      rw [List.cons_append, List.map_cons, List.map_cons, hmeter]
    exact (htable'.map _).nodup_iff.2 (hsame.nodup_iff.1 ((htable.map _).nodup_iff.1 hmeters))

theorem entriesOf_perm (g : Engine) (n : Nat) : g.table.Perm (g.table.filter (·.origin != .adopted n) ++ g.entriesOf n) := by
  have h := List.filter_append_perm (fun e : Entry => e.origin != .adopted n) g.table
  refine h.symm.trans (.append (.refl _) ?_)
  unfold Engine.entriesOf
  have hsame : g.table.filter (fun e => !(e.origin != .adopted n)) = g.table.filter (·.origin == .adopted n) :=
    List.filter_congr fun e _ => by simp [bne]
  exact hsame ▸ .refl _

/-! ## Every move -/

theorem tracked_changes {s : State} {e e' : Entry} (hs : Tracked s) (hmeters : OneOfEachMeter s) (he : e ∈ s.engine.table)
    (hquiet : s.engine.op.readsPlan = false) : Tracked (changeEntry s e e') := by
  obtain ⟨hloads, hbuilds⟩ := EngineOp.quiet_of_readsPlan hquiet
  have hperm := table_perm_of_mem hmeters he
  refine ⟨?_, fun hb => absurd (hbuilds ▸ hb) (by simp), hs.loading, hs.queue⟩
  have hfigures := hs.figures
  simp only [hloads, reportedOf] at hfigures
  change FiguresOf (reportedOf s.engine.op.loads (s.engine.replaceEntry e e').table) ((s.tracker.forget e).learn e')
  rw [hloads]
  exact ((hfigures.perm hperm).forget fun x hx => mem_others hx).learn e' |>.perm (replace_perm e' hperm fun x hx => mem_others hx).symm

theorem tracked_replaces {s : State} {e e' : Entry} (hs : Tracked s) (hmeters : OneOfEachMeter s) (he : e ∈ s.engine.table)
    (hsame : SameReport e e') : Tracked { s with engine := s.engine.replaceEntry e e' } := by
  refine ⟨?_, hs.building, hs.loading, hs.queue⟩
  let g : Entry → Entry := fun x => if x.meterId = e.meterId then e' else x
  have hg : ∀ x ∈ s.engine.table, SameReport x (g x) := by
    intro x hx
    by_cases hxe : x.meterId = e.meterId
    · obtain rfl := eq_of_meterId hmeters hx he hxe
      simpa [g] using hsame
    · simpa [g, hxe] using SameReport.refl x
  have hreported : reportedOf s.engine.op.loads (s.engine.table.map g) = (reportedOf s.engine.op.loads s.engine.table).map g := by
    cases s.engine.op.loads with
    | none => rfl
    | some n =>
      change (s.engine.table.map g).filter _ = (s.engine.table.filter _).map g
      rw [List.filter_map]
      refine congrArg _ (List.filter_congr fun x hx => ?_)
      simp [(hg x hx).origin]
  change FiguresOf (reportedOf s.engine.op.loads (s.engine.table.map g)) s.tracker
  rw [hreported]
  exact hs.figures.map fun x hx => hg x ((reportedOf_sublist _ _).mem hx)

theorem tracked_removes {s : State} {e : Entry} (hs : Tracked s) (hmeters : OneOfEachMeter s) (he : e ∈ s.engine.table)
    (hquiet : s.engine.op.readsPlan = false ∨ e.status = .handing) :
    Tracked { s with engine := s.engine.dropEntry e, tracker := s.tracker.forget e } := by
  have hrows : s.tracker.rows = [] → (s.tracker.forget e).rows = [] := fun h => by simp [Tracker.forget, h]
  refine ⟨?_, fun hb => hrows (hs.building hb), hs.loading, hs.queue⟩
  change FiguresOf (reportedOf s.engine.op.loads (s.engine.table.filter (·.meterId != e.meterId))) (s.tracker.forget e)
  rcases hquiet with hquiet | hhanding
  · obtain ⟨hloads, -⟩ := EngineOp.quiet_of_readsPlan hquiet
    have hfigures := hs.figures
    rw [hloads] at hfigures ⊢
    exact (hfigures.perm (table_perm_of_mem hmeters he)).forget fun x hx => mem_others hx
  · rw [forget_handing hhanding]
    have hreported : reportedOf s.engine.op.loads (s.engine.table.filter (·.meterId != e.meterId)) =
        (reportedOf s.engine.op.loads s.engine.table).filter (·.meterId != e.meterId) := by
      cases s.engine.op.loads with
      | none => rfl
      | some n => exact List.filter_comm ..
    rw [hreported]
    refine hs.figures.filter _ fun x hx hxe => ?_
    have : x = e := eq_of_meterId hmeters ((reportedOf_sublist _ _).mem hx) he (by simpa using hxe)
    exact this ▸ hhanding

/-- A new entry is UNREAD and has no report yet: a build has no segment table, a load's entries are not yet counted (R49, R66). -/
theorem tracked_inserts {s : State} {e : Entry} (hs : Tracked s) (hfresh : e.IsFresh)
    (hreader : (s.engine.op.builds = true ∧ e.origin = .own) ∨ ∃ n, s.engine.op.loads = some n ∧ e.origin = .adopted n) :
    Tracked { s with engine.table := insertEntry e s.engine.table } := by
  have hperm := insertEntry_perm e s.engine.table
  refine ⟨?_, hs.building, hs.loading, hs.queue⟩
  change FiguresOf (reportedOf s.engine.op.loads (insertEntry e s.engine.table)) s.tracker
  rcases hreader with ⟨hb, -⟩ | ⟨n, hloads, horigin⟩
  · have hloads : s.engine.op.loads = none := by
      obtain ⟨i, hi⟩ := EngineOp.builds_iff.1 hb
      rw [hi]; rfl
    have hfigures := hs.figures
    rw [hloads] at hfigures ⊢
    have hlearnt : s.tracker.learn e = s.tracker := by
      unfold Tracker.learn
      rw [hs.building hb, if_neg (by simp [hfresh.status]), List.map_nil, ← hs.building hb]
    have := hfigures.learn e
    rw [hlearnt] at this
    exact this.perm hperm.symm
  · have hfigures := hs.figures
    rw [hloads] at hfigures ⊢
    refine hfigures.perm ?_
    have h := (hperm.filter (·.origin != .adopted n)).symm
    rwa [List.filter_cons_of_neg (by simp [horigin])] at h

theorem tracked_completes {s : State} {n : Nat} (hs : Tracked s) (hmeters : OneOfEachMeter s) (hop : s.engine.op.loads = some n) :
    Tracked (endOperation (admitShare s n)) := by
  have hfold := foldl_admitEntry_figures (s.engine.entriesOf n) hmeters (entriesOf_perm s.engine n) (by
    have := hs.figures
    rwa [hop] at this)
  have hpres := foldl_admitEntry_presence (s.engine.entriesOf n) s
  have hpresence : (endOperation (admitShare s n)).presence = s.presence.setShare n .adopted :=
    congrArg (fun p : Presence => p.setShare n .adopted) hpres
  refine ⟨hfold, nofun, fun i hi => ?_, fun m hm => ?_⟩
  · rw [hpresence] at hi
    obtain ⟨hne, hi⟩ := loading_of_set (by simp) hi
    have := (hs.loading i hi).symm.trans hop
    simp only [Option.some.injEq] at this
    omega
  · rw [hpresence] at hm
    exact hs.queue m hm

theorem tracked_closes {s : State} (hs : Tracked s) : Tracked (endAdoption s) := by
  obtain ⟨hqueue, hshares⟩ := endAdoption_presence s
  have hfigures : FiguresOf (reportedOf (endAdoption s).engine.op.loads (endAdoption s).engine.table) (endAdoption s).tracker := by
    unfold endAdoption
    dsimp only
    split
    · next n j hop => exact hs.stopLoad (by rw [hop]; rfl)
    · exact hs.figures
  have hbuilding : (endAdoption s).engine.op.builds = true → (endAdoption s).tracker.rows = [] := by
    unfold endAdoption
    dsimp only
    split
    · exact nofun
    · exact hs.building
  refine ⟨hfigures, hbuilding, fun i hi => ?_, by simp [hqueue]⟩
  rw [hshares, List.getElem?_map] at hi
  obtain ⟨x, -, hx⟩ := Option.map_eq_some_iff.1 hi
  split at hx <;> cases hx

theorem tracked_move {K : Known} (hK : K.meters) (s t : State) (h : Move K s t) (hmeters : OneOfEachMeter s) (hs : Tracked s) :
    Tracked t := by
  cases h with
  | share h => exact tracked_shareMove s t h hs
  | changes e e' listed _ quiet => exact tracked_changes hs hmeters (listed.mem hK) quiet
  | replaces e e' listed same => exact tracked_replaces hs hmeters (listed.mem hK) same
  | removes e listed quiet => exact tracked_removes hs hmeters (listed.mem hK) quiet
  | checks _ idle =>
    exact hs.of_same (by rw [idle]; rfl) nofun rfl rfl rfl (fun _ => id) hs.queue
  | beginsBuild _ idle =>
    have hfigures := hs.figures
    rw [idle] at hfigures
    refine ⟨hfigures.noRows, fun _ => rfl, fun i hi => ?_, hs.queue⟩
    have := hs.loading i hi
    rw [idle] at this
    cases this
  | inserts e fresh _ _ reader => exact tracked_inserts hs fresh reader
  | builds p reader =>
    have hloads : s.engine.op.loads = none := by
      obtain ⟨i, hi⟩ := EngineOp.builds_iff.1 reader
      rw [hi]; rfl
    have hfigures := hs.figures
    rw [hloads] at hfigures
    exact ⟨hfigures.fresh p.segments, nofun, fun i hi => hloads.symm.trans (hs.loading i hi), hs.queue⟩
  | beginsLoad n rest idle _ front none =>
    have hloads : s.engine.op.loads = Option.none := by rw [idle]; rfl
    have hn : 1 ≤ n := hs.queue n (by simp [front])
    have hfigures := hs.figures
    rw [hloads] at hfigures
    refine ⟨?_, nofun, fun i hi => ?_, fun m hm => hs.queue m (List.mem_of_mem_drop hm)⟩
    · change FiguresOf (s.engine.table.filter (·.origin != .adopted n)) s.tracker
      rwa [List.filter_eq_self.2 fun e he => by simpa using none e he]
    · rcases getElem?_set_cases hi with ⟨rfl, -⟩ | ⟨-, hi⟩
      · change some n = some (n - 1 + 1)
        rw [Nat.sub_add_cancel hn]
      · have := hs.loading i hi
        rw [hloads] at this
        cases this
  | @completes u n hop _ calm =>
    have hended := tracked_completes hs hmeters hop
    exact hended.of_same rfl nofun calm.table calm.rows calm.revisit (fun i hi => calm.shares ▸ hi)
      (calm.adoptQueue ▸ hended.queue)
  | stops n hop hstate =>
    refine ⟨hs.stopLoad hop, nofun, fun i hi => ?_, hs.queue⟩
    have hi : s.presence.shares[i]? = some .loading := hi
    have := (hs.loading i hi).symm.trans hop
    simp only [Option.some.injEq] at this
    refine absurd ?_ hstate
    unfold State.shareState
    rw [List.getD_eq_getElem?_getD, ← this, Nat.add_sub_cancel, hi]
    rfl
  | @closes u _ calm =>
    have hu : Tracked { s with engine.runState := some .closing } := hs.of_same rfl id rfl rfl rfl (fun _ => id) hs.queue
    exact tracked_closes (hu.calm calm)
  | setsRun p r _ =>
    have hu : Tracked { s with engine := { s.engine with plan := p, runState := some r } } :=
      hs.of_same rfl id rfl rfl rfl (fun _ => id) hs.queue
    exact ShareMoves.keeps tracked_shareMove (recompute_moves _) hu
  | plans _ p | asks _ | header _ | loads _ l _ => exact hs.of_same rfl id rfl rfl rfl (fun _ => id) hs.queue
  | clearsRows => exact ⟨hs.figures.noRows, fun _ => rfl, hs.loading, hs.queue⟩

theorem trackerLaw_start {s : State} {own n : Nat} (htable : s.engine.table = []) (hrows : s.tracker.rows = []) (hrevisit : s.tracker.revisit = [])
    (hshares : s.presence.shares = sharesAfterStart own n) (hqueue : s.presence.adoptQueue = []) : TrackerLaw s := by
  have hreported : ∀ o, reportedOf o s.engine.table = [] := fun o => List.sublist_nil.1 (htable ▸ reportedOf_sublist o s.engine.table)
  refine trackerLaw_iff.2 ⟨⟨by simp [htable], by simp [OneOfEachMeter, htable]⟩, ⟨?_, ?_, ?_⟩, fun _ => hrows, fun i hi => ?_,
    by simp [hqueue]⟩
  · simp [hrows]
  · rw [hreported, hrevisit]; exact .refl _
  · rw [hrevisit]; exact .nil
  · rw [hshares] at hi
    obtain ⟨j, -, hj⟩ := List.mem_map.1 (List.mem_of_getElem? hi)
    split at hj <;> cases hj

theorem trackerLaw_law : MoveLaw TrackerLaw where
  queue _ _ h := { h with }
  restarts powered straps s _ := trackerLaw_start rfl rfl rfl rfl rfl
  cuts s h := by
    obtain ⟨flash, cfg, hcut⟩ := cutOff_frame s
    rw [hcut]
    exact { h with }
  takes s image d _ h := by
    obtain ⟨hfits, htracked⟩ := trackerLaw_iff.1 h
    refine trackerLaw_iff.2 ⟨hfits, ⟨htracked.figures, htracked.building, fun i hi => ?_, List.forall_mem_nil _⟩⟩
    obtain ⟨j, -, hj⟩ := List.mem_map.1 (List.mem_of_getElem? hi)
    split at hj <;> cases hj
  scans s _ h := { h with }
  moves s t h hm := by
    obtain ⟨hfits, htracked⟩ := trackerLaw_iff.1 h
    have hboth : TableFits t ∧ Tracked t := Moves.keeps (P := fun s => TableFits s ∧ Tracked s)
      (fun s' t' hst hs => ⟨tableFits_move s' t' hst hs.1, tracked_move (K := s.known) h.meters s' t' hst hs.1.2 hs.2⟩) hm ⟨hfits, htracked⟩
    exact trackerLaw_iff.2 hboth

/-- The revisit list is within its capacity and holds nothing twice (R151). -/
theorem TrackerLaw.revisit_fits {s : State} (h : TrackerLaw s) : s.tracker.revisit.length ≤ 8192 ∧ s.tracker.revisit.Nodup := by
  have hsub : (s.reported.filter (·.countsMissed)).Sublist s.engine.table :=
    List.filter_sublist.trans (reported_eq s ▸ reportedOf_sublist _ _)
  refine ⟨?_, h.revisit.nodup_iff.2 ?_⟩
  · rw [h.revisit.length_eq, List.length_map]
    exact hsub.length_le.trans h.capacity
  · have hmeters := h.meters.sublist (hsub.map _)
    have : ((s.reported.filter (·.countsMissed)).map (·.meterId)) =
        ((s.reported.filter (·.countsMissed)).map (·.revisitItem)).map (·.meterId) := by
      rw [List.map_map]; rfl
    exact List.Nodup.of_map _ (this ▸ hmeters)

/-- Settles O22: a score changes with its entry's detectors, and the segment counts and the revisit list with the reports of the entries. -/
theorem scoreLawHolds : Obligations.ScoreLawHolds := by
  unfold Obligations.ScoreLawHolds
  exact ⟨fun s t hs ht => scoreLaw_law.stepLaw.step hs ht, fun s t hs ht => trackerLaw_law.stepLaw.step hs ht, fun s h => h.revisit_fits⟩

end Sys2Proof.Machine
end

section
/-!
PROOF. What commands change of the memories, the power, the straps, station time, the settings, the upload mark and the queue
(`State.fixed`): the ends of steps 2 and 3, a save's end, a program's, an erase's, SETTING WRITE and the raise of the mark, each its own
part, and no other command any.
-/

namespace Sys2Proof.Machine

/-! ## The effects of the commands that are no frames -/

theorem completeFrame_fixed (s : State) (bs : List Byte) : (completeFrame s bs).fixed = s.fixed := by
  unfold completeFrame judgeBubble admitPacket
  dsimp only
  repeat' split
  all_goals rfl

theorem gapExpires_fixed (s : State) : (gapExpires s).fixed = s.fixed := by
  unfold gapExpires
  dsimp only
  split
  · split
    · exact completeFrame_fixed _ _
    · rfl
  · rfl

theorem receiveFault_fixed {v : Option LineVerdict} {s u : State} (h : receiveFault v s = some u) : u.fixed = s.fixed := by
  have hformat : (countFormat s).fixed = s.fixed := by unfold countFormat; split <;> rfl
  have hcrc : (countCrc s).fixed = s.fixed := by unfold countCrc; split <;> rfl
  unfold receiveFault at h
  repeat' split at h
  all_goals cases h
  · rfl
  · exact hformat
  · exact hformat
  · exact hformat
  · exact hcrc
  · exact hcrc

theorem presenceExpires_fixed (s : State) : (presenceExpires s).fixed = s.fixed := by
  unfold presenceExpires
  dsimp only
  split <;> rfl

theorem packetEnds_fixed {s u : State} (h : packetEnds s = some u) : u.fixed = s.fixed := by
  unfold packetEnds at h
  split at h <;> cases h
  exact finishPacket_fixed _ _ _

theorem runResetEnds_fixed {s u : State} (h : runResetEnds s = some u) : u.fixed = s.fixed := by
  unfold runResetEnds at h
  split at h <;> cases h
  · exact (newRunBegins_fixed _).trans (resetTable_fixed s)
  · exact (ite_fixed (rebuildBegins_fixed _ _) rfl).trans (resetTable_fixed s)

theorem logReadEnds_fixed {s u : State} (h : logReadEnds s = some u) : u.fixed = s.fixed := by
  unfold logReadEnds at h
  split at h <;> cases h
  · exact rebuildReadEnds_fixed _ _ _
  · rfl

theorem slotReadEnds_fixed {s u : State} (h : slotReadEnds s = some u) : u.fixed = s.fixed := by
  unfold slotReadEnds at h
  dsimp only at h
  split at h <;> cases h
  · exact planReadEnds_fixed _ _
  · rfl

theorem relayWaitExpires_fixed {p : HeldPair} {s u : State} (h : relayWaitExpires p s = some u) : u.fixed = s.fixed := by
  unfold relayWaitExpires onlyIf at h
  repeat' split at h
  all_goals cases h
  · exact expireWait_fixed s _
  · rfl

theorem sessionReadEnds_fixed {s u : State} (h : sessionReadEnds s = some u) : u.fixed = s.fixed := by
  unfold sessionReadEnds at h
  dsimp only at h
  split at h <;> cases h
  · exact uploadReadEnds_fixed _
  · rfl

/-! ## Programs (R154) -/

/-- Of the fixed parts a program changes the flash alone: its bytes are written, or lie between old and intended values (log 7). -/
def Programmed (s u : State) (a : Nat) (bs : List Byte) : Prop :=
  u.fixed = { s.fixed with flash := s.store.flash.program a bs } ∨ ∃ use, u.fixed = { s.fixed with flash := s.store.flash.tornProgram use a bs }

theorem Programmed.trans {s t u : State} {a : Nat} {bs : List Byte} (h : Programmed s t a bs) (k : u.fixed = t.fixed) : Programmed s u a bs :=
  h.imp k.trans fun ⟨use, hu⟩ => ⟨use, k.trans hu⟩

theorem programFlash_programmed (ok : Bool) (a : Nat) (bs : List Byte) (s : State) :
    Programmed s (programFlash ok a bs { s with store.serving := none }) a bs := by
  unfold programFlash
  split
  · exact .inl rfl
  · exact .inr ⟨_, rfl⟩

theorem afterFault_fixed (s : State) : (afterFault s).fixed = s.fixed := by
  have hdispose (s : State) (b : Buffered) : (disposeRemoved s b).fixed = s.fixed := by
    unfold disposeRemoved; split <;> rfl
  unfold afterFault
  dsimp only
  exact (fixed_store (Store.reprogram_kept _)).trans ((foldl_fixed hdispose _ _).trans (fixed_store (Store.resplit_kept _)))

theorem fixed_of_kept {s : State} {st : Store} {flash : Memory} (h : st.kept = (flash, s.store.uploadMark)) :
    ({ s with store := st } : State).fixed = { s.fixed with flash := flash } := by
  simp only [Store.kept, Prod.mk.injEq] at h
  simp [State.fixed, h.1, h.2]

theorem Store.pageVerified_kept (st : Store) (sector slot : Nat) :
    (st.pageVerified sector slot).kept = (st.flash.program (slotAddress sector slot) st.pageBytes, st.uploadMark) := by
  unfold pageVerified
  dsimp only
  split
  · exact Store.sectorEnd_kept _ _
  · rfl

theorem Store.pageAbandoned_kept (st : Store) (use sector slot : Nat) :
    (st.pageAbandoned use sector slot).kept = (st.flash.tornProgram use (slotAddress sector slot) st.pageBytes, st.uploadMark) := by
  unfold pageAbandoned
  extract_lets st1 st2 retires
  split
  · exact Store.sectorRetired_kept _ _
  · split
    · exact Store.sectorEnd_kept _ _
    · rfl

theorem Store.opened_kept (st : Store) (o : Opening) :
    (st.opened o).kept = (st.flash.program (slotAddress o.sector 0) (openingBytes o), st.uploadMark) := by
  simp [Store.opened, Store.kept, Store.updateRow]

theorem Store.openingFailed_kept (st : Store) (use : Nat) (o : Opening) :
    (st.openingFailed use o).kept = (st.flash.tornProgram use (slotAddress o.sector 0) (openingBytes o), st.uploadMark) := by
  unfold Store.openingFailed
  rw [Store.sectorRetired_kept]
  simp [Store.kept, Store.updateRow]

theorem pageProgramEnds_programmed {ok : Bool} {s u : State} (h : pageProgramEnds ok s = some u) :
    ∃ a bs, s.programTarget = some (a, bs) ∧ Programmed s u a bs := by
  unfold pageProgramEnds at h
  split at h
  · next sector slot hserving hhead =>
    refine ⟨slotAddress sector slot, s.store.pageBytes, by simp [State.programTarget, hserving, hhead], ?_⟩
    cases h
    refine Programmed.trans (t := if ok then _ else _) ?_ ((checkFlush_fixed _).trans (noteFull_fixed _))
    cases ok with
    | true =>
      exact .inl (fixed_of_kept (s := { s with store.serving := none })
        ((Store.refill_kept _ _).trans (Store.pageVerified_kept { s.store with serving := none } sector slot)))
    | false =>
      refine .inr ⟨s.freeIndex, (afterFault_fixed _).trans ((useFree_fixed _).trans ?_)⟩
      exact fixed_of_kept (s := ({ s with store.serving := none } : State).countFault)
        (Store.pageAbandoned_kept ({ s with store.serving := none } : State).countFault.store s.freeIndex sector slot)
  · cases h

theorem openingEnds_programmed {ok : Bool} {s u : State} (h : openingEnds ok s = some u) :
    ∃ a bs, s.programTarget = some (a, bs) ∧ Programmed s u a bs := by
  unfold openingEnds at h
  split at h
  · next o hserving hopening =>
    refine ⟨slotAddress o.sector 0, openingBytes o, by simp [State.programTarget, hserving, hopening], ?_⟩
    cases h
    refine Programmed.trans (t := if ok then _ else _) ?_
      ((numberAfterOpening_fixed _).trans ((checkFlush_fixed _).trans (noteFull_fixed _)))
    cases ok with
    | true => exact .inl (fixed_of_kept (s := { s with store.serving := none }) (Store.opened_kept { s.store with serving := none } o))
    | false =>
      refine .inr ⟨s.freeIndex, (afterFault_fixed _).trans ((useFree_fixed _).trans ?_)⟩
      exact fixed_of_kept (s := ({ s with store.serving := none } : State).countFault)
        (Store.openingFailed_kept ({ s with store.serving := none } : State).countFault.store s.freeIndex o)
  · cases h

theorem headerMarkEnds_programmed {ok : Bool} {s u : State} (h : headerMarkEnds ok s = some u) :
    ∃ a bs, s.programTarget = some (a, bs) ∧ Programmed s u a bs := by
  unfold headerMarkEnds at h
  split at h
  · next m hserving =>
    refine ⟨slotAddress m.sector 0 + m.offset, m.pattern, by simp [State.programTarget, hserving], ?_⟩
    cases h
    refine (programFlash_programmed ok _ _ s).trans ?_
    generalize programFlash ok _ _ _ = t
    cases m with
    | full n | retired n => rfl
    | uploaded n => exact ite_fixed rfl rfl
    | eraseBegun n => rfl
    | reserve n k bound => exact reserveEnded_fixed t bound ok
  · cases h

theorem planRecordEnds_programmed {ok : Bool} {s u : State} (h : planRecordEnds ok s = some u) :
    ∃ a bs, s.programTarget = some (a, bs) ∧ Programmed s u a bs := by
  unfold planRecordEnds at h
  split at h
  · next i bs hserving =>
    refine ⟨planSlotAddress i, bs, by simp [State.programTarget, hserving], ?_⟩
    cases h
    refine (programFlash_programmed ok _ _ s).trans ?_
    exact (planEndIfDrained_fixed _).trans (ite_fixed rfl rfl)
  · cases h

theorem planHeaderEnds_programmed {ok : Bool} {s u : State} (h : planHeaderEnds ok s = some u) :
    ∃ a bs, s.programTarget = some (a, bs) ∧ Programmed s u a bs := by
  unfold planHeaderEnds at h
  split at h
  · next hserving =>
    refine ⟨planHeaderOffset, planHeaderBytes s.dock.load.plan, by simp [State.programTarget, hserving, PlanLoad.plan], ?_⟩
    cases h
    refine (programFlash_programmed ok _ _ s).trans ?_
    exact ite_fixed rfl (planFails_fixed _ _)
  · cases h

/-! ## Every command -/

/-- The command is the end of a program (R154). -/
def endsProgram : Instr → Bool
  | .pageProgram _ | .sectorOpening _ | .headerMarkProgram _ | .planRecordProgram _ | .planHeaderProgram _ => true
  | _ => false

/-- What the effect of the command `c` changes of the fixed parts. -/
inductive FixedChange (c : Instr) (s u : State) : Prop where
  | same (h : u.fixed = s.fixed)
  | takes (image : List Byte) (defaulted : Bool) (step : s.startup.step = .config) (h : u = takeImage image defaulted s)
  | scans (scan : c = .startUpScan) (step : s.startup.step = .scan) (h : u = scanEnds s)
  | saves (ok : Bool) (save : c = .saveCompletion ok) (cfg : Memory) (wf : s.startup.cfg.wf = true → cfg.wf = true)
      (h : u.fixed = { s.fixed with cfg := cfg })
  | programs (ends : endsProgram c = true) (a : Nat) (bs : List Byte) (target : s.programTarget = some (a, bs)) (h : Programmed s u a bs)
  | erases (erase : c = .sectorErase ∨ c = .planSectorErase) (a n : Nat) (h : u.fixed = { s.fixed with flash := s.store.flash.erase a n })
  | writes (image : List Byte) (h : u.fixed = { s.fixed with image := image })
  | raises (mark : Nat) (above : s.store.uploadMark ≤ mark) (h : u.fixed = { s.fixed with uploadMark := mark })

theorem saveEnds_fixed (job : SaveJob) (ok : Bool) (s : State) : ∃ cfg, (s.startup.cfg.wf = true → cfg.wf = true) ∧
    (saveEnds job ok s).fixed = { s.fixed with cfg := cfg } := by
  have h (t : State) : (nextSave (saveReplies (if ok then 0 else 1) job.serves t)).fixed = t.fixed :=
    (nextSave_fixed _).trans (saveReplies_fixed _ _ _)
  unfold saveEnds
  dsimp only
  rw [h]
  split
  · exact ⟨s.startup.cfg.writeBytes 0 job.bytes, Memory.writeBytes_wf _ _, rfl⟩
  · have hwf := Memory.tornWrite_wf (m := s.startup.cfg) s.freeIndex 0 savedImageBytes
    generalize s.startup.cfg.tornWrite s.freeIndex 0 savedImageBytes = torn at hwf ⊢
    exact ⟨torn, hwf, rfl⟩

theorem planSectorErased_fixed (n : Nat) (s : State) :
    (planSectorErased n s).fixed = { s.fixed with flash := s.store.flash.erase (slotAddress n 0) Config.sectorBytes } := by
  unfold planSectorErased
  split
  · rfl
  · exact setRunState_fixed _ _

theorem ownEffect_fixed {c : Instr} {s u : State} (h : ownEffect c s = some u) : FixedChange c s u := by
  have hsending {f : State → Sending → State} (h : whileSending f s = some u) (hf : ∀ x, (f s x).fixed = s.fixed) :
      FixedChange c s u := by
    unfold whileSending at h
    split at h <;> cases h
    exact .same (hf _)
  cases c
  case configRead =>
    obtain ⟨hc, rfl⟩ := onlyIf_eq_some h
    obtain ⟨image, defaulted, ht⟩ := configAnswered_takes s
    exact .takes image defaulted (by simpa using hc) ht
  case configAnswerTimeout =>
    obtain ⟨hc, rfl⟩ := onlyIf_eq_some h
    exact .takes _ _ (by simpa using (Bool.and_eq_true_iff.1 hc).1) rfl
  case startUpScan =>
    obtain ⟨hc, rfl⟩ := onlyIf_eq_some h
    exact .scans rfl (by simpa using hc) rfl
  case gapExpiry => obtain ⟨-, rfl⟩ := onlyIf_eq_some h; exact .same (gapExpires_fixed s)
  case searchingComplete => obtain ⟨-, rfl⟩ := onlyIf_eq_some h; exact .same rfl
  case receiveError bits => exact .same (receiveFault_fixed h)
  case duplicateFrame => obtain ⟨-, rfl⟩ := onlyIf_eq_some h; exact .same rfl
  case frameSent => exact hsending h (frameSent_fixed s)
  case arbitrationLoss => exact hsending h fun _ => rfl
  case transmitError atStart => exact hsending h (transmitError_fixed atStart s)
  case positionWatchdogExpiry => obtain ⟨-, rfl⟩ := onlyIf_eq_some h; exact .same rfl
  case presenceTimerExpiry => obtain ⟨-, rfl⟩ := onlyIf_eq_some h; exact .same (presenceExpires_fixed s)
  case absenceExpiry slot => obtain ⟨-, rfl⟩ := onlyIf_eq_some h; exact .same (recompute_fixed s)
  case presumptionExpiry slot => obtain ⟨-, rfl⟩ := onlyIf_eq_some h; exact .same (recompute_fixed _)
  case packetOperation => exact .same (packetEnds_fixed h)
  case pageBufferTimeout => obtain ⟨-, rfl⟩ := onlyIf_eq_some h; exact .same rfl
  case release =>
    change (match s.engine.op with
      | .release share => some (releaseEnds s share)
      | _ => none) = _ at h
    split at h <;> cases h
    exact .same (releaseEnds_fixed s _)
  case closeRelease =>
    change (match s.engine.op with
      | .closeRelease => some (closeReleaseEnds s)
      | _ => none) = _ at h
    split at h <;> cases h
    exact .same (closeReleaseEnds_fixed s)
  case closureMarking =>
    change (match s.engine.op with
      | .closure segment => some (closureEnds s segment)
      | _ => none) = _ at h
    split at h <;> cases h
    exact .same (closureEnds_fixed s _)
  case runReset => exact .same (runResetEnds_fixed h)
  case rebuildRead => exact .same (logReadEnds_fixed h)
  case findingsClear => obtain ⟨-, rfl⟩ := onlyIf_eq_some h; exact .same (findingsClearEnds_fixed s)
  case routeTableEmptying => obtain ⟨-, rfl⟩ := onlyIf_eq_some h; exact .same (emptyingEnds_fixed s)
  case keptRecordRelease =>
    change (match s.engine.op with
      | .keptRelease m n => some (keptReleaseEnds s m n)
      | _ => none) = _ at h
    split at h <;> cases h
    exact .same (keptReleaseEnds_fixed s _ _)
  case planRead => exact .same (slotReadEnds_fixed h)
  case relayWaitExpiry m k => exact .same (relayWaitExpires_fixed h)
  case uploadRead => exact .same (sessionReadEnds_fixed h)
  case uploadPauseTimeout => obtain ⟨-, rfl⟩ := onlyIf_eq_some h; exact .same rfl
  case saveCompletion ok =>
    change (match s.startup.save with
      | some job => some (saveEnds job ok s)
      | none => none) = _ at h
    split at h <;> cases h
    obtain ⟨cfg, hwf, hfixed⟩ := saveEnds_fixed _ ok s
    exact .saves ok rfl cfg hwf hfixed
  case pageProgram ok => obtain ⟨a, bs, ht, hp⟩ := pageProgramEnds_programmed h; exact .programs rfl a bs ht hp
  case sectorOpening ok => obtain ⟨a, bs, ht, hp⟩ := openingEnds_programmed h; exact .programs rfl a bs ht hp
  case headerMarkProgram ok => obtain ⟨a, bs, ht, hp⟩ := headerMarkEnds_programmed h; exact .programs rfl a bs ht hp
  case planRecordProgram ok => obtain ⟨a, bs, ht, hp⟩ := planRecordEnds_programmed h; exact .programs rfl a bs ht hp
  case planHeaderProgram ok => obtain ⟨a, bs, ht, hp⟩ := planHeaderEnds_programmed h; exact .programs rfl a bs ht hp
  case sectorErase =>
    change (match s.eraseDue false with
      | some n => some { s with store := s.store.sectorErased n }
      | none => none) = _ at h
    split at h <;> cases h
    next n _ =>
      refine .erases (.inl rfl) (slotAddress n 0) Config.sectorBytes (fixed_of_kept ?_)
      unfold Store.sectorErased
      dsimp only
      split
      · exact Store.openCandidate_kept _
      · rfl
  case planSectorErase =>
    change (match s.eraseDue true with
      | some n => some (planSectorErased n s)
      | none => none) = _ at h
    split at h <;> cases h
    exact .erases (.inr rfl) _ _ (planSectorErased_fixed _ s)
  all_goals
    change none = some u at h
    cases h

end Sys2Proof.Machine
end

section
/-!
PROOF. The deliveries' part of what commands change of `State.fixed`, and with it the obligations about the memories, the queue and what
holds until the next start.
-/

namespace Sys2Proof.Machine

/-! ## Deliveries -/

theorem endAdoption_fixed (s : State) : (endAdoption s).fixed = s.fixed := by
  unfold endAdoption
  dsimp only
  split
  · exact stopLoad_fixed s _
  · rfl

theorem emptyQueues_fixed (s : State) : (emptyQueues s).fixed = s.fixed := by
  have hitem (s : State) (i : RelayItem) : (emptyRelayItem s i).fixed = s.fixed := by
    cases i with
    | moved p segment stale => exact selfStore_fixed s _ _ _ _
    | _ => rfl
  exact foldl_fixed hitem _ _

theorem stopRebuild_fixed (s : State) : (stopRebuild s).fixed = s.fixed := by
  unfold stopRebuild
  dsimp only
  split
  · exact fixed_store (Store.orphanEngineRead_kept _)
  · rfl

theorem closeRun_fixed (s : State) : (closeRun s).fixed = s.fixed := by
  unfold closeRun
  refine (stopRebuild_fixed _ |> (foldl_fixed selfStoreEntry_fixed _ _).trans).trans ?_
  exact (endAdoption_fixed _).trans ((emptyQueues_fixed _).trans (withReading_fixed s))

theorem deliverOpen_fixed (run day : BitVec 16) (s : State) : (deliverOpen run day s).fixed = s.fixed := by
  have haccept (s : State) : (acceptRun s).fixed = s.fixed := endSession_fixed _
  unfold deliverOpen judgeOpen
  repeat' split
  · rfl
  · exact (setRunState_fixed _ _).trans (haccept s)
  · exact haccept s
  · exact haccept s
  all_goals rfl

theorem deliverClose_fixed (run : BitVec 16) (s : State) : (deliverClose run s).fixed = s.fixed := by
  unfold deliverClose
  repeat' split
  all_goals first
    | rfl
    | exact closeRun_fixed s

theorem deliverHeld_fixed (p : HeldPair) (s : State) : (deliverHeld p s).fixed = s.fixed := raceReading_fixed s

theorem deliverRelayItem_fixed (i : RelayItem) (s : State) : (deliverRelayItem i s).fixed = s.fixed := by
  unfold deliverRelayItem
  exact ite_fixed rfl (ite_fixed rfl rfl)

theorem deliverPosition_fixed (v : Byte) (n : BitVec 16) (s : State) : (deliverPosition v n s).fixed = s.fixed := ite_fixed rfl rfl

theorem deliverRevisit_fixed (x : BitVec 16) (s : State) : (deliverRevisit x s).fixed = s.fixed := ite_fixed rfl (askRevisit_fixed x s)

theorem requestUploaded_kept (st : Store) (mark : Nat) : (st.requestUploaded mark).kept = st.kept := by
  unfold Store.requestUploaded
  generalize st.rows.filter _ = l
  induction l generalizing st with
  | nil => rfl
  | cons r l ih => exact (ih _).trans (Store.requestMark_kept _ _)

/-- UPLOAD MARK leaves all but the mark as it is, which it raises (R178). -/
theorem uploadMark_fixed (m : Nat) (s : State) :
    ∃ mark, s.store.uploadMark ≤ mark ∧ (uploadMark m s).fixed = { s.fixed with uploadMark := mark } := by
  unfold uploadMark
  split
  · exact ⟨_, le_rfl, rfl⟩
  · split
    · next hraise =>
      refine ⟨m, hraise.1.le, (pauseAfterMark_fixed _).trans ?_⟩
      have h : ({ s.store with uploadMark := m }.requestUploaded m).kept = (s.store.flash, m) := requestUploaded_kept _ _
      simp only [Store.kept, Prod.mk.injEq] at h
      simp [raiseMark, State.fixed, h.1, h.2]
    · exact ⟨_, le_rfl, pauseAfterMark_fixed s⟩

/-- What a delivery changes of the fixed parts: the image by SETTING WRITE, the upload mark by UPLOAD MARK. -/
inductive DeliveryChange (s u : State) : Prop where
  | same (h : u.fixed = s.fixed)
  | writes (image : List Byte) (h : u.fixed = { s.fixed with image := image })
  | raises (mark : Nat) (above : s.store.uploadMark ≤ mark) (h : u.fixed = { s.fixed with uploadMark := mark })

theorem deliverCommand_fixed (c : Instr) (s : State) : DeliveryChange s (deliverCommand c s) := by
  have hdock (col : DockColumn) (echo : Byte) {rule : State → State} (h : ∀ s, (rule s).fixed = s.fixed) :
      DeliveryChange s (dockOperation col echo rule s) := .same (dockOperation_fixed h s)
  have hdock' (col : DockColumn) (echo : Byte) {rule : State → State} (h : DeliveryChange s (rule s)) :
      DeliveryChange s (dockOperation col echo rule s) := by
    unfold dockOperation
    split
    · exact h
    · exact .same rfl
    · exact .same rfl
  cases c with
  | runOpen run day => exact .same (deliverOpen_fixed run day s)
  | runClose run day => exact .same (deliverClose_fixed run s)
  | position v n => exact .same (deliverPosition_fixed v n s)
  | presence src p => exact .same (deliverPresence_fixed s _ p)
  | held src m k => exact .same (deliverHeld_fixed _ s)
  | relay src p => exact .same (deliverRelayItem_fixed _ s)
  | handover src p => exact .same (deliverRelayItem_fixed _ s)
  | listRevisit x => exact .same (deliverRevisit_fixed x s)
  | queryClearConditions => exact .same (clearConditions_fixed s)
  | uploadOpen n => exact hdock _ _ fun s => uploadOpen_fixed s _
  | uploadMark m =>
    obtain ⟨mark, hle, hfixed⟩ := uploadMark_fixed m.toNat s
    exact hdock' _ _ (.raises mark hle hfixed)
  | uploadClose => exact hdock _ _ uploadClose_fixed
  | eraseUploaded => exact hdock _ _ eraseUploaded_fixed
  | clearFindings => exact hdock _ _ clearFindings_fixed
  | planBegin i a b => exact hdock _ _ fun s => planBegin_fixed s _ _ _
  | planData i r => exact hdock _ _ fun s => planData_fixed s _ _
  | planEnd => exact hdock _ _ planEnd_fixed
  | settingWrite o d => exact hdock' _ _ (.writes _ rfl)
  | settingSave => exact hdock _ _ settingSave_fixed
  | dockClearConditions => exact hdock _ _ dockClear_fixed
  | _ => exact .same rfl

theorem deliveryOf_fixed (c : Instr) (s u : State) : DeliveryChange u (s.deliveryOf c u) := by
  have hpeer (n : Nat) (d : Instr) : DeliveryChange u (fromPeer n (deliverCommand d) u) := by
    unfold fromPeer
    split
    · exact deliverCommand_fixed d u
    · exact .same rfl
  unfold State.deliveryOf
  split
  · unfold deliverReading
    split
    · exact .same rfl
    · exact .same rfl
    · exact .same rfl
    · exact .same rfl
    · exact deliverCommand_fixed _ u
  iterate 4 exact hpeer _ _
  · exact deliverCommand_fixed _ u

theorem DeliveryChange.of_fixed {s t u : State} (h : DeliveryChange t u) (k : t.fixed = s.fixed) : DeliveryChange s u := by
  have hm : t.store.uploadMark = s.store.uploadMark := congrArg Fixed.uploadMark k
  cases h with
  | same h => exact .same (h.trans k)
  | writes image h => exact .writes image (k ▸ h)
  | raises mark above h => exact .raises mark (hm ▸ above) (k ▸ h)

theorem onFrame_fixed {n : Nat} {c : Instr} {s u : State} (h : onFrame n (s.deliveryOf c) s = some u) : DeliveryChange s u := by
  unfold onFrame at h
  split at h
  · cases h
  split at h
  · cases h; exact .same rfl
  · dsimp only at h
    have hr := reportFrame_fixed s n
    split at h <;> cases h
    · exact (deliveryOf_fixed c s _).of_fixed hr
    · exact .same hr

theorem commandEffect_fixed {c : Instr} {s u : State} (h : commandEffect c s = some u) : FixedChange c s u := by
  unfold commandEffect at h
  split at h
  · cases onFrame_fixed h with
    | same h => exact .same h
    | writes image h => exact .writes image h
    | raises mark above h => exact .raises mark above h
  · exact ownEffect_fixed h

/-- What a command but START and POWER_LOSS changes of the fixed parts. -/
theorem exec_fixed {c : Instr} {s t : State} (h : exec c s = .next t) (hstart : ∀ x, c ≠ .start x) (hloss : c ≠ .powerLoss) :
    ∃ u, FixedChange c s u ∧ t.fixed = u.fixed := by
  cases exec_answered h hstart hloss with
  | same => exact ⟨_, .same rfl, rfl⟩
  | character data parity stop => exact ⟨s, .same rfl, rfl⟩
  | lineHigh => exact ⟨s, .same rfl, rfl⟩
  | settled hu => exact ⟨_, commandEffect_fixed hu, settle_fixed _⟩

/-! ## What the fixed parts of the ends of steps 2 and 3 are -/

theorem takeImage_fixed (image : List Byte) (d : Bool) (s : State) :
    (takeImage image d s).fixed = { s.fixed with image := image, settings := settingsOf image } := rfl

theorem scanEnds_fixed (s : State) : (scanEnds s).fixed = { s.fixed with uploadMark := (scanEnds s).store.uploadMark } := by
  have hcalm : s.store.scan.1.flash = s.store.flash := by
    rw [scan_store]
    have hopen (st : Store) : st.openAtScan.kept = st.kept := by
      unfold Store.openAtScan
      split
      · exact Store.openCandidate_kept _
      · rfl
    have hhead (st : Store) (x : Option Scanned) : (st.takeHead x).kept = st.kept := by
      unfold Store.takeHead
      split
      · rfl
      · dsimp only
        split
        · rfl
        · split
          · rfl
          · exact Store.requestMark_kept _ _
    exact congrArg Prod.fst ((hopen _).trans (hhead _ _))
  simp [State.fixed, scanEnds, requestStation, hcalm]

end Sys2Proof.Machine
end

section
/-!
PROOF. The memories, the queue and what holds until the next start: the obligations that rest on what commands change of `State.fixed`.
-/

namespace Sys2Proof.Machine

/-! ## What a command keeps -/

theorem settle_kept (s : State) : Kept s (settle s) :=
  ((engineChoose_moves_known s).kept.trans (engineChoose_moves_known _).kept).trans (settle_calm_after_choice s).kept

theorem deliverCommand_kept (c : Instr) (s : State) : Kept s (deliverCommand c s) :=
  (deliverCommand_moves c (K := ⟨True, True, True, s.settings⟩) trivial s).kept

theorem deliveryOf_kept (c : Instr) (s u : State) : Kept u (s.deliveryOf c u) := by
  have hpeer (n : Nat) (d : Instr) : Kept u (fromPeer n (deliverCommand d) u) := by
    unfold fromPeer
    split
    · exact deliverCommand_kept d u
    · exact .refl u
  unfold State.deliveryOf
  split
  · unfold deliverReading
    split
    · exact .refl u
    · exact Calm.kept { Calm.refl u with counters := by simp [countersKept_iff] }
    · exact (rejectRun_calm u).kept
    · exact Calm.kept { Calm.refl u with counters := by simp [countersKept_iff] }
    · exact deliverCommand_kept _ u
  iterate 4 exact hpeer _ _
  · exact deliverCommand_kept _ u

theorem reportFrame_kept (s : State) (n : Nat) : Kept s (reportFrame s n) := by
  have hr : reportFrame s n = if isCollector n then heardReport s.received n else s.received := rfl
  have h1 := (received_calm s).kept
  rw [hr]
  split
  · exact h1.trans (Moves.kept (heardReport_goes (K := ⟨True, True, True, s.settings⟩) s.received n).moves)
  · exact h1

/-- A command but START and POWER_LOSS keeps what every move keeps, or ends step 2 or step 3 first. -/
theorem exec_kept {c : Instr} {s t : State} (h : exec c s = .next t) (hstart : ∀ x, c ≠ .start x) (hloss : c ≠ .powerLoss) :
    (∃ image defaulted, s.startup.step = .config ∧ Kept (takeImage image defaulted s) t) ∨
    (c = .startUpScan ∧ s.startup.step = .scan ∧ Kept (scanEnds s) t) ∨ Kept s t := by
  cases exec_answered h hstart hloss with
  | same => exact .inr (.inr (.refl s))
  | character data parity stop => exact .inr (.inr (character_calm s data parity stop).kept)
  | lineHigh => exact .inr (.inr (lineHigh_calm s).kept)
  | @settled u hu =>
    have hsettle := settle_kept u
    unfold commandEffect at hu
    split at hu
    · refine .inr (.inr (Kept.trans ?_ hsettle))
      unfold onFrame at hu
      split at hu
      · cases hu
      split at hu
      · cases hu; exact (duplicateFrame_calm s).kept
      · dsimp only at hu
        have hr := reportFrame_kept s (by assumption)
        split at hu <;> cases hu
        · exact hr.trans (deliveryOf_kept c s _)
        · exact hr
    · rcases ownEffect_moves hu with ⟨image, d, hstep, rfl⟩ | ⟨hc, hstep, rfl⟩ | hm
      · exact .inl ⟨image, d, hstep, hsettle⟩
      · exact .inr (.inl ⟨hc, hstep, hsettle⟩)
      · exact .inr (.inr (hm.kept.trans hsettle))

/-! ## START and POWER_LOSS -/

theorem restartPowered_next {powered : Bool} {straps : BitVec 3} {s t : State} (h : restartPowered powered straps s = .next t) :
    t = restart powered straps (cutOff s) := by
  unfold restartPowered at h
  split at h <;> cases h
  rfl

/-- START answers with a state after a restart, of the state as it was or after a loss of power. -/
theorem start_next {x : BitVec 3} {s t : State} (h : exec (.start x) s = .next t) :
    t = restart true x s ∨ t = restart true x (cutOff s) := by
  change execStart x s = _ at h
  unfold execStart at h
  split at h
  · exact .inr (restartPowered_next h)
  · cases h; exact .inl rfl

theorem powerLoss_next {s t : State} (h : exec .powerLoss s = .next t) : t = s ∨ t = restart false s.startup.straps (cutOff s) := by
  change execPowerLoss s = _ at h
  unfold execPowerLoss at h
  split at h
  · exact .inr (restartPowered_next h)
  · cases h; exact .inl rfl

theorem cutOff_pending (s : State) : (cutOff s).pending = s.pending := by
  obtain ⟨flash, cfg, h⟩ := cutOff_frame s
  rw [h]

/-! ## The queue (log 1) -/

theorem FixedChange.pending {c : Instr} {s u : State} (h : FixedChange c s u) : u.pending = s.pending := by
  have hp {x : Fixed} (h : u.fixed = x) : u.pending = x.pending := congrArg Fixed.pending h
  cases h with
  | same h => exact hp h
  | takes image d _ h => exact hp (h ▸ takeImage_fixed image d s)
  | scans _ _ h => exact hp (h ▸ scanEnds_fixed s)
  | saves _ _ _ _ h => exact hp h
  | programs _ a bs _ h =>
    rcases h with h | ⟨use, h⟩
    · exact hp h
    · exact hp h
  | erases _ a n h => exact hp h
  | writes image h => exact hp h
  | raises mark _ h => exact hp h

theorem exec_pending {c : Instr} {s t : State} (h : exec c s = .next t) : t.pending = s.pending := by
  by_cases hstart : ∃ x, c = .start x
  · obtain ⟨x, rfl⟩ := hstart
    rcases start_next h with rfl | rfl
    · rfl
    · exact cutOff_pending s
  by_cases hloss : c = .powerLoss
  · subst hloss
    rcases powerLoss_next h with rfl | rfl
    · rfl
    · exact cutOff_pending s
  obtain ⟨u, hu, ht⟩ := exec_fixed h (fun x hx => hstart ⟨x, hx⟩) hloss
  exact (congrArg Fixed.pending ht).trans hu.pending

/-- Settles O17: no part of a command's meaning touches the queue. -/
theorem queueUntouched : Obligations.QueueUntouched := by
  unfold Obligations.QueueUntouched
  exact fun c s t h => exec_pending h

/-! ## The canonical form of the memories (log 3) -/

theorem FixedChange.canonical {c : Instr} {s u : State} (h : FixedChange c s u) (hs : MemoryCanonical s) : MemoryCanonical u := by
  obtain ⟨hflash, hcfg⟩ := hs
  have hboth {flash cfg : Memory} (hf : u.fixed.flash = flash) (hc : u.fixed.cfg = cfg) (hflash : flash.wf = true) (hcfg : cfg.wf = true) :
      MemoryCanonical u := ⟨(show u.store.flash = flash from hf) ▸ hflash, (show u.startup.cfg = cfg from hc) ▸ hcfg⟩
  cases h with
  | same h => exact hboth (congrArg Fixed.flash h) (congrArg Fixed.cfg h) hflash hcfg
  | takes image d _ h => subst h; exact ⟨hflash, hcfg⟩
  | scans _ _ h =>
    subst h
    exact hboth (congrArg Fixed.flash (scanEnds_fixed s)) (congrArg Fixed.cfg (scanEnds_fixed s)) hflash hcfg
  | saves _ _ cfg hwf h => exact hboth (congrArg Fixed.flash h) (congrArg Fixed.cfg h) hflash (hwf hcfg)
  | programs _ a bs _ h =>
    rcases h with h | ⟨use, h⟩
    · exact hboth (congrArg Fixed.flash h) (congrArg Fixed.cfg h) (Memory.program_wf a bs hflash) hcfg
    · exact hboth (congrArg Fixed.flash h) (congrArg Fixed.cfg h) (Memory.tornProgram_wf use a bs hflash) hcfg
  | erases _ a n h => exact hboth (congrArg Fixed.flash h) (congrArg Fixed.cfg h) (Memory.erase_wf a n hflash) hcfg
  | writes image h => exact hboth (congrArg Fixed.flash h) (congrArg Fixed.cfg h) hflash hcfg
  | raises mark _ h => exact hboth (congrArg Fixed.flash h) (congrArg Fixed.cfg h) hflash hcfg

theorem cutOff_canonical {s : State} (hs : MemoryCanonical s) : MemoryCanonical (cutOff s) := by
  have hprogram {t : State} (h : MemoryCanonical t) : MemoryCanonical (cutProgram t) := by
    unfold cutProgram
    split
    · exact ⟨Memory.tornProgram_wf _ _ _ h.1, h.2⟩
    · exact h
  have herase {t : State} (h : MemoryCanonical t) : MemoryCanonical (cutErase t) := by
    unfold cutErase
    split
    · exact ⟨Memory.tornErase_wf _ _ _ h.1, h.2⟩
    · exact h
  have hsave {t : State} (h : MemoryCanonical t) : MemoryCanonical (cutSave t) := by
    unfold cutSave
    split
    · have hwf := Memory.tornWrite_wf (m := t.startup.cfg) (t.freeIndex + 2) 0 savedImageBytes h.2
      generalize t.startup.cfg.tornWrite (t.freeIndex + 2) 0 savedImageBytes = torn at hwf ⊢
      exact ⟨h.1, hwf⟩
    · exact h
  exact hsave (herase (hprogram hs))

theorem exec_canonical {c : Instr} {s t : State} (h : exec c s = .next t) (hs : MemoryCanonical s) : MemoryCanonical t := by
  by_cases hstart : ∃ x, c = .start x
  · obtain ⟨x, rfl⟩ := hstart
    rcases start_next h with rfl | rfl
    · exact hs
    · exact cutOff_canonical hs
  by_cases hloss : c = .powerLoss
  · subst hloss
    rcases powerLoss_next h with rfl | rfl
    · exact hs
    · exact cutOff_canonical hs
  obtain ⟨u, hu, ht⟩ := exec_fixed h (fun x hx => hstart ⟨x, hx⟩) hloss
  have hc := hu.canonical hs
  have hflash : t.store.flash = u.store.flash := congrArg Fixed.flash ht
  have hcfg : t.startup.cfg = u.startup.cfg := congrArg Fixed.cfg ht
  exact ⟨hflash ▸ hc.1, hcfg ▸ hc.2⟩

/-- Settles O18: every operation on a memory keeps the canonical form. -/
theorem memoryStaysCanonical : Obligations.MemoryStaysCanonical := by
  unfold Obligations.MemoryStaysCanonical
  intro s t hs ht
  unfold step at ht
  split at ht
  · cases ht
    unfold tick
    split
    · exact hs
    · exact hs
  · exact exec_canonical ht hs

/-! ## What writes the memories (R154, R191) -/

/-- From `m` to `m'` no bit that was 0 becomes 1, and outside the `n` bytes from `a` on nothing changes. -/
def OnlyClears (m m' : Memory) (a n : Nat) : Prop :=
  ∀ b, m'.read b &&& m.read b = m'.read b ∧ (¬ (a ≤ b ∧ b < a + n) → m'.read b = m.read b)

theorem OnlyClears.refl (m : Memory) (a n : Nat) : OnlyClears m m a n := fun _ => ⟨BitVec.and_self, fun _ => rfl⟩

theorem OnlyClears.of_write {m m' : Memory} {a n : Nat} {v : Byte} (hm : m.wf = true)
    (h : OnlyClears (m.write a (m.read a &&& v)) m' (a + 1) n) : OnlyClears m m' a (n + 1) := by
  intro b
  obtain ⟨hbits, hout⟩ := h b
  rw [Memory.read_write a b _ hm] at hbits hout
  refine ⟨?_, fun hb => ?_⟩
  · by_cases hba : b = a
    · subst hba
      rw [if_pos rfl] at hbits
      have h1 : m'.read b &&& m.read b = m'.read b &&& (m.read b &&& v) &&& m.read b := by rw [hbits]
      rw [h1, ← hbits]
      ext i
      simp only [BitVec.getElem_and]
      cases (m'.read b)[i] <;> cases (m.read b)[i] <;> cases v[i] <;> rfl
    · rwa [if_neg hba] at hbits
  · rw [hout (by omega), if_neg (by omega)]

theorem program_onlyClears {m : Memory} (hm : m.wf = true) (a : Nat) (bs : List Byte) : OnlyClears m (m.program a bs) a bs.length := by
  induction bs generalizing m a with
  | nil => exact .refl m a 0
  | cons v bs ih => exact .of_write hm (ih (Memory.write_wf _ _ hm) (a + 1))

theorem tornProgram_onlyClears {m : Memory} (hm : m.wf = true) (use a : Nat) (bs : List Byte) :
    OnlyClears m (m.tornProgram use a bs) a bs.length := by
  induction bs generalizing m a with
  | nil => exact .refl m a 0
  | cons v bs ih => exact .of_write hm (ih (Memory.write_wf _ _ hm) (a + 1))

theorem FixedChange.cfg {c : Instr} {s u : State} (h : FixedChange c s u) (hsave : ∀ ok, c ≠ .saveCompletion ok) :
    u.startup.cfg = s.startup.cfg := by
  have hc {x : Fixed} (h : u.fixed = x) : u.startup.cfg = x.cfg := congrArg Fixed.cfg h
  cases h with
  | same h => exact hc h
  | takes image d _ h => exact hc (h ▸ takeImage_fixed image d s)
  | scans _ _ h => exact hc (h ▸ scanEnds_fixed s)
  | saves ok save _ _ h => exact absurd save (hsave ok)
  | programs _ a bs _ h =>
    rcases h with h | ⟨use, h⟩
    · exact hc h
    · exact hc h
  | erases _ a n h => exact hc h
  | writes image h => exact hc h
  | raises mark _ h => exact hc h

/-- A command that is no erase leaves the flash as it is, or is the end of a program, which clears bits where it writes. -/
theorem FixedChange.flash {c : Instr} {s u : State} (h : FixedChange c s u) (hlog : c ≠ .sectorErase) (hplan : c ≠ .planSectorErase) :
    u.store.flash = s.store.flash ∨ (endsProgram c = true ∧ ∃ a bs, s.programTarget = some (a, bs) ∧
      (s.store.flash.wf = true → OnlyClears s.store.flash u.store.flash a bs.length)) := by
  have hf {x : Fixed} (h : u.fixed = x) : u.store.flash = x.flash := congrArg Fixed.flash h
  cases h with
  | same h => exact .inl (hf h)
  | takes image d _ h => exact .inl (hf (h ▸ takeImage_fixed image d s))
  | scans _ _ h => exact .inl (hf (h ▸ scanEnds_fixed s))
  | saves _ _ _ _ h => exact .inl (hf h)
  | programs ends a bs ht h =>
    refine .inr ⟨ends, a, bs, ht, fun hwf => ?_⟩
    rcases h with h | ⟨use, h⟩
    · exact (hf h).symm ▸ program_onlyClears hwf a bs
    · exact (hf h).symm ▸ tornProgram_onlyClears hwf use a bs
  | erases erase a n h => exact absurd erase (by simp [hlog, hplan])
  | writes image h => exact .inl (hf h)
  | raises mark _ h => exact .inl (hf h)

/-- Settles O24: the flash is written at the end of a program and of an erase alone, the configuration memory at a save's end. -/
theorem flashWritesConfined : Obligations.FlashWritesConfined := by
  unfold Obligations.FlashWritesConfined
  refine ⟨fun c s t h hstart hloss hsave => ?_, fun c s t h hstart hloss hlog hplan => ?_⟩
  · obtain ⟨u, hu, ht⟩ := exec_fixed h hstart hloss
    exact (congrArg Fixed.cfg ht).trans (hu.cfg hsave)
  · obtain ⟨u, hu, ht⟩ := exec_fixed h hstart hloss
    have htu : t.store.flash = u.store.flash := congrArg Fixed.flash ht
    rw [htu]
    refine ⟨fun hpage hopening hmark hrecord hheader => ?_, fun hwf b => ?_⟩
    · rcases hu.flash hlog hplan with hf | ⟨hends, -⟩
      · exact hf
      · cases c <;> try cases hends
        · exact absurd rfl (hpage _)
        · exact absurd rfl (hopening _)
        · exact absurd rfl (hmark _)
        · exact absurd rfl (hrecord _)
        · exact absurd rfl (hheader _)
    · rcases hu.flash hlog hplan with hf | ⟨-, a, bs, htarget, hclears⟩
      · rw [hf]; exact ⟨BitVec.and_self, fun _ => rfl⟩
      · obtain ⟨hbits, hout⟩ := hclears hwf b
        exact ⟨hbits, fun hnot => hout (hnot (a, bs) htarget)⟩

/-! ## What holds until the next start (R177, R188) -/

theorem FixedChange.held {c : Instr} {s u : State} (h : FixedChange c s u) :
    u.startup.powered = s.startup.powered ∧ u.startup.now = s.startup.now := by
  have hboth {x : Fixed} (h : u.fixed = x) : u.startup.powered = x.powered ∧ u.startup.now = x.now :=
    ⟨congrArg Fixed.powered h, congrArg Fixed.now h⟩
  cases h with
  | same h => exact hboth h
  | takes image d _ h => exact hboth (h ▸ takeImage_fixed image d s)
  | scans _ _ h => exact hboth (h ▸ scanEnds_fixed s)
  | saves _ _ _ _ h => exact hboth h
  | programs _ a bs _ h =>
    rcases h with h | ⟨use, h⟩
    · exact hboth h
    · exact hboth h
  | erases _ a n h => exact hboth h
  | writes image h => exact hboth h
  | raises mark _ h => exact hboth h

theorem FixedChange.mark {c : Instr} {s u : State} (h : FixedChange c s u) (hscan : c ≠ .startUpScan) :
    s.store.uploadMark ≤ u.store.uploadMark := by
  have hm {x : Fixed} (h : u.fixed = x) : u.store.uploadMark = x.uploadMark := congrArg Fixed.uploadMark h
  cases h with
  | same h => exact (hm h).ge
  | takes image d _ h => exact (hm (h ▸ takeImage_fixed image d s)).ge
  | scans scan _ h => exact absurd scan hscan
  | saves _ _ _ _ h => exact (hm h).ge
  | programs _ a bs _ h =>
    rcases h with h | ⟨use, h⟩
    · exact (hm h).ge
    · exact (hm h).ge
  | erases _ a n h => exact (hm h).ge
  | writes image h => exact (hm h).ge
  | raises mark above h => exact (hm h).symm ▸ above

/-- Settles O25: straps, power, time and settings are START's and step 2's own; the mark and the sequence counter are raised alone. -/
theorem holdsUntilStart : Obligations.HoldsUntilStart := by
  unfold Obligations.HoldsUntilStart
  refine ⟨fun c s t h hstart hloss => ?_, fun c s t h hstart hloss hscan => ?_⟩
  · obtain ⟨u, hu, ht⟩ := exec_fixed h hstart hloss
    obtain ⟨hpowered, hnow⟩ := hu.held
    have hpowered' : t.startup.powered = s.startup.powered := (congrArg Fixed.powered ht).trans hpowered
    have hnow' : t.startup.now = s.startup.now := (congrArg Fixed.now ht).trans hnow
    rcases exec_kept h hstart hloss with ⟨image, d, hstep, hk⟩ | ⟨-, hstep, hk⟩ | hk
    · exact ⟨hk.straps, hpowered', hnow', fun hne => absurd hstep hne⟩
    · exact ⟨hk.straps, hpowered', hnow', fun _ => ⟨hk.settings, fun hc => StartStep.noConfusion (hk.step hc)⟩⟩
    · exact ⟨hk.straps, hpowered', hnow', fun hne => ⟨hk.settings, fun hc => hne (hk.step hc)⟩⟩
  · obtain ⟨u, hu, ht⟩ := exec_fixed h hstart hloss
    refine ⟨(hu.mark hscan).trans (congrArg Fixed.uploadMark ht).ge, ?_⟩
    rcases exec_kept h hstart hloss with ⟨image, d, -, hk⟩ | ⟨hc, -⟩ | hk
    · exact hk.seq
    · exact absurd hc hscan
    · exact hk.seq

/-! ## Every command answers (R154, log 2) -/

theorem actProgram_answers {f : State → Option State} {s : State} (h : FlashInside s) : ∃ t, actProgram f s = .next t := by
  cases ht : s.programTarget with
  | none =>
    unfold actProgram
    rw [ht]
    split
    · next heq => cases heq
    · exact act_answers f s
  | some x =>
    rw [actProgram_inside ht (h.1 (x.1, x.2.length) (by simp [State.flashTargets, ht]))]
    exact act_answers f s

theorem restartPowered_answers {powered : Bool} {straps : BitVec 3} {s : State} (h : FlashInside s) :
    ∃ t, restartPowered powered straps s = .next t := by
  unfold restartPowered
  rw [if_pos (List.all_eq_true.2 h.1)]
  exact ⟨_, rfl⟩

theorem inFlash_of_eraseDue {s : State} {plan : Bool} {n : Nat} (h : FlashInside s) (hn : s.eraseDue plan = some n) :
    inFlash (slotAddress n 0) Config.sectorBytes = true := by
  unfold State.eraseDue at hn
  split at hn
  · next e he =>
    split at hn <;> cases hn
    exact h.1 (slotAddress e.sector 0, Config.sectorBytes) (by simp [State.flashTargets, he])
  · cases hn

theorem exec_answers (c : Instr) {s : State} (h : FlashInside s) : ∃ t, exec c s = .next t := by
  have hact {f : State → Option State} (hf : exec c s = act f s) : ∃ t, exec c s = .next t := hf ▸ act_answers f s
  have hown (hf : exec c s = act (ownEffect c) s) : ∃ t, exec c s = .next t := hact hf
  cases c
  case start x =>
    change ∃ t, execStart x s = .next t
    unfold execStart
    split
    · exact restartPowered_answers h
    · exact ⟨_, rfl⟩
  case powerLoss =>
    change ∃ t, execPowerLoss s = .next t
    unfold execPowerLoss
    split
    · exact restartPowered_answers h
    · exact ⟨_, rfl⟩
  case intakeCharacter data parity stop =>
    change ∃ t, execIntakeCharacter data parity stop s = .next t
    unfold execIntakeCharacter
    split <;> exact ⟨_, rfl⟩
  case lineReturnHigh =>
    change ∃ t, execLineReturnHigh s = .next t
    unfold execLineReturnHigh
    split <;> exact ⟨_, rfl⟩
  case sectorErase =>
    change ∃ t, execSectorErase s = .next t
    unfold execSectorErase
    split
    · next hn =>
      rw [atFlash_inside (inFlash_of_eraseDue h hn)]
      exact act_answers _ s
    · exact ⟨_, rfl⟩
  case planSectorErase =>
    change ∃ t, execPlanSectorErase s = .next t
    unfold execPlanSectorErase
    split
    · next hn =>
      rw [atFlash_inside (inFlash_of_eraseDue h hn)]
      exact act_answers _ s
    · exact ⟨_, rfl⟩
  case planRead =>
    change ∃ t, execPlanRead s = .next t
    unfold execPlanRead
    split
    · rw [atFlash_inside h.2]
      exact act_answers _ s
    · exact act_answers _ s
  case pageProgram | sectorOpening | headerMarkProgram | planRecordProgram | planHeaderProgram => exact actProgram_answers h
  case runOpen | runClose | position | presence | held | relay | handover | listRevisit | queryClearConditions | uploadOpen | uploadMark
    | uploadClose | eraseUploaded | clearFindings | planBegin | planData | planEnd | settingWrite | settingSave | dockClearConditions
    | rackFrameOther => exact hact rfl
  all_goals exact hown rfl

theorem exec_unpowered (c : Instr) {s : State} (h : s.startup.powered = false) (hstart : ∀ x, c ≠ .start x) : exec c s = .next s := by
  have hact {f : State → Option State} (hf : exec c s = act f s) : exec c s = .next s := hf.trans (act_unpowered h)
  have hown (hf : exec c s = act (ownEffect c) s) : exec c s = .next s := hact hf
  have hprogram (hf : exec c s = actProgram (ownEffect c) s) : exec c s = .next s := by
    refine hf.trans ?_
    unfold actProgram
    rw [h]
    exact act_unpowered h
  cases c
  case start x => exact absurd rfl (hstart x)
  case powerLoss =>
    change execPowerLoss s = _
    unfold execPowerLoss
    rw [h]
    rfl
  case intakeCharacter data parity stop =>
    change execIntakeCharacter data parity stop s = _
    unfold execIntakeCharacter
    rw [h]
    rfl
  case lineReturnHigh =>
    change execLineReturnHigh s = _
    unfold execLineReturnHigh
    rw [h]
    rfl
  case sectorErase =>
    change execSectorErase s = _
    unfold execSectorErase
    rw [h]
  case planSectorErase =>
    change execPlanSectorErase s = _
    unfold execPlanSectorErase
    rw [h]
  case planRead =>
    change execPlanRead s = _
    unfold execPlanRead
    rw [h]
    exact act_unpowered h
  case pageProgram | sectorOpening | headerMarkProgram | planRecordProgram | planHeaderProgram => exact hprogram rfl
  case runOpen | runClose | position | presence | held | relay | handover | listRevisit | queryClearConditions | uploadOpen | uploadMark
    | uploadClose | eraseUploaded | clearFindings | planBegin | planData | planEnd | settingWrite | settingSave | dockClearConditions
    | rackFrameOther => exact hact rfl
  all_goals exact hown rfl

/-- Settles O26: a fault is an address outside the array, and without power every command but START is excluded. -/
theorem everyCommandAnswers : Obligations.EveryCommandAnswers := by
  unfold Obligations.EveryCommandAnswers
  exact ⟨fun c s h => exec_answers c h, fun c s h hstart => exec_unpowered c h hstart⟩

end Sys2Proof.Machine
end

section
/-!
PROOF. The arithmetic of the packets' results, the detectors' transitions and the effective owners.
-/

namespace Sys2Proof.Machine

/-! ## The range check, the meter flags and a repeat (R84 to R86, R91) -/

/-- Of a repeat the reading alone is tested, against the last one (R86). -/
theorem packetResults_conflict {st : Settings} {day : BitVec 16} {e : Entry} {p : Packet} {l : LastHeard} (hl : e.lastHeard = some l)
    (hkind : packetKind e.lastHeard p.counter = .repeated) :
    packetResults st day e p = [none, none, none, none, none, some (decide (p.reading ≠ l.reading)), none] := by
  have hdiffers : (p.reading != l.reading) = decide (p.reading ≠ l.reading) := by
    by_cases h : p.reading = l.reading <;> simp [h]
  unfold packetResults
  rw [hkind]
  simp only [hl, hdiffers]

theorem packetResults_length (st : Settings) (day : BitVec 16) (e : Entry) (p : Packet) : (packetResults st day e p).length = 7 := by
  by_cases hkind : packetKind e.lastHeard p.counter = .repeated
  · obtain ⟨conflict, h⟩ := packetResults_repeated (st := st) (day := day) hkind
    rw [h]
    rfl
  · rw [packetResults_of_ne_repeated hkind]
    rfl

/-- Settles O5: the range check as it is defined, and the results of a packet that is no repeat stage by stage. -/
theorem rangeFlagsAndRepeats : Obligations.RangeFlagsAndRepeats := by
  intro st day e p
  refine ⟨packetResults_length st day e p, rangePassed_iff, fun hkind => ?_, fun l hl hkind => packetResults_conflict hl hkind⟩
  obtain hrates := packetResults_rates_untested (st := st) (e := e) (p := p) day
  refine ⟨?_, ?_, ?_, fun hrange => ⟨?_, (hrates (.inr (.inl hrange))).1, (hrates (.inr (.inl hrange))).2⟩⟩
  · rw [packetResults_of_ne_repeated hkind]; rfl
  · rw [packetResults_of_ne_repeated hkind]; rfl
  · rw [packetResults_of_ne_repeated hkind]; rfl
  · rw [packetResults_reverse, if_pos (.inr hrange)]

/-! ## Detectors (R103 to R109) -/

/-- Outside ACTIVE a shown result under NOTE raises and forgets (R104). -/
theorem detectorShown_note {ds : DetectorSetting} {d : Detector} (hdisp : ds.disposition = .note) (hstate : d.state ≠ .active) (jump : Bool) :
    detectorShown ds jump d =
      if shownCount ds.debounce jump d.consecutive = ds.debounce then (⟨.idle, 0, 0, some true⟩, true)
      else (⟨.pending, shownCount ds.debounce jump d.consecutive, 0, some true⟩, false) := by
  unfold detectorShown
  cases hs : d.state with
  | active => exact absurd hs hstate
  | idle | pending => rw [hdisp]

/-- Under LATCH a clean result leaves ACTIVE standing (R109). -/
theorem detectorClean_latch {ds : DetectorSetting} {d : Detector} (hdisp : ds.disposition = .latch) (hactive : d.state = .active) :
    detectorClean ds d = ⟨.active, 0, 0, some false⟩ := by
  unfold detectorClean
  rw [hactive, hdisp]

theorem detectorStep_off {ds : DetectorSetting} (hdisp : ds.disposition = .off) (jump : Bool) (r : Option Bool) (d : Detector) :
    detectorStep ds jump r d = (d, false) := by
  match r with
  | none => rfl
  | some true => cases h : d.state <;> simp [detectorShown, hdisp, h]
  | some false => cases h : d.state <;> simp [detectorClean, hdisp, h]

/-- An alarm bubble brings the count to the debounce at once (R105). -/
theorem shownCount_jump {k c : Nat} (hk : k ≤ 8) (hc : c < k) : shownCount k true c = k := by
  rw [shownCount_alarm]; omega

/-- Settles O7: the transitions by disposition, each from its own lemma. -/
theorem detectorRaises : Obligations.DetectorRaises := by
  intro ds d jump
  refine ⟨fun hstate hdisp => detectorShown_of_not_active hdisp hstate jump, fun hstate hdisp => detectorShown_note hdisp hstate jump,
    fun hjump hdebounce hcount hstate hoff => ?_, fun hstate hdisp => ⟨detectorClean_latch hdisp hstate, fun r => ?_⟩,
    fun hstate hdisp => detectorClean_release hdisp hstate, rfl, fun hdisp r => detectorStep_off hdisp jump r d, fun r hr => ?_⟩
  · have hreached := shownCount_jump hdebounce hcount
    rw [hjump, detectorStep_shown]
    by_cases hnote : ds.disposition = .note
    · rw [detectorShown_note hnote hstate, if_pos hreached]
    · rw [detectorShown_of_not_active (disposition_latch_or_release hoff hnote) hstate, if_pos hreached]
  · match r with
    | none => exact hstate
    | some true => rw [detectorStep_shown, detectorShown_active (.inl hdisp) hstate]
    | some false => rw [detectorStep_clean, detectorClean_latch hdisp hstate]
  · match r, hr with
    | none, _ | some false, _ => rfl

/-! ## Shares and owners (R37, R43) -/

theorem slot_range (s : State) : 1 ≤ s.slot ∧ s.slot ≤ 8 := by
  have h := s.startup.straps.isLt
  unfold State.slot
  omega

/-- The share `n` finds its owner among the others, where its own slot does not serve (R43). -/
theorem effectiveOwner_next {s : State} {n : Nat} (hn : 1 ≤ n ∧ n ≤ 8) (hown : n ≠ s.slot) (hpart : s.participates n = false) :
    ∃ i, i ≤ 6 ∧ s.effectiveOwner n = (n + i) % 8 + 1 ∧ ((n + i) % 8 + 1 = s.slot ∨ s.participates ((n + i) % 8 + 1) = true) ∧
      ∀ j < i, ¬ ((n + j) % 8 + 1 = s.slot ∨ s.participates ((n + j) % 8 + 1) = true) := by
  have hslot := slot_range s
  let serves : Nat → Bool := fun i => (n + i) % 8 + 1 == s.slot || s.participates ((n + i) % 8 + 1)
  have hserves (i : Nat) : serves i = true ↔ (n + i) % 8 + 1 = s.slot ∨ s.participates ((n + i) % 8 + 1) = true := by
    simp [serves]
  have hmine : serves ((s.slot + 7 - n) % 8) = true := (hserves _).2 (.inl (by omega))
  obtain ⟨i, hi⟩ : ∃ i, (List.range 8).find? serves = some i := by
    refine Option.isSome_iff_exists.1 (List.find?_isSome.2 ⟨(s.slot + 7 - n) % 8, List.mem_range.2 (by omega), hmine⟩)
  obtain ⟨hi1, hi2, hi3⟩ := List.find?_range_eq_some.1 hi
  have hi2 : i < 8 := List.mem_range.1 hi2
  have hlast : i ≠ 7 := by
    rintro rfl
    have hn7 : (n + 7) % 8 + 1 = n := by omega
    rcases (hserves 7).1 hi1 with h | h
    · exact hown (hn7.symm.trans h)
    · rw [hn7, hpart] at h; cases h
  refine ⟨i, by omega, ?_, (hserves i).1 hi1, fun j hj hs => ?_⟩
  · have hfind : (cyclicAfter n).find? (fun m => m == s.slot || s.participates m) = some ((n + i) % 8 + 1) := by
      unfold cyclicAfter
      rw [List.find?_map]
      exact congrArg (Option.map _) hi
    unfold State.effectiveOwner
    rw [if_neg hown, if_neg (by simp [hpart]), hfind]
    rfl
  · have := hi3 j hj
    rw [(hserves j).2 hs] at this
    cases this

/-- Settles O8: a share's number by its remainder, and the cyclic search, which this station's own slot ends at the latest. -/
theorem sharesAndOwners : Obligations.SharesAndOwners := by
  refine ⟨fun n m hn => ⟨?_, ?_, rfl⟩, by decide, by decide, by decide, by decide, fun s n hn1 hn8 => ?_⟩
  · exact Nat.le_add_left 1 _
  · exact Nat.mod_lt _ hn
  · refine ⟨fun h => ?_, fun hne hp => ?_, fun hserves => ?_⟩
    · unfold State.effectiveOwner; rw [if_pos h]
    · unfold State.effectiveOwner; rw [if_neg hne, if_pos hp]
    · have hown : n ≠ s.slot := fun h => hserves (.inl h)
      have hpart : s.participates n = false := by
        by_contra h
        exact hserves (.inr (by simpa using h))
      obtain ⟨i, hi, howner, hfound, hbefore⟩ := effectiveOwner_next ⟨hn1, hn8⟩ hown hpart
      have hshift (j : Nat) (hj : 1 ≤ j) : n - 1 + j = n + (j - 1) := by omega
      refine ⟨i + 1, by omega, by omega, ?_, ?_, fun j hj hji => ?_⟩
      · rw [howner, hshift _ (by omega), Nat.add_sub_cancel]
      · rw [hshift _ (by omega), Nat.add_sub_cancel]; exact hfound
      · rw [hshift j hj]; exact hbefore (j - 1) (by omega)

end Sys2Proof.Machine
end

section
/-!
PROOF. Appends in turn: what they change depends on the store and the Start-up Controller alone, and nothing else changes. With it the
judgement of held relay entries and the comparison table of a recomputation.
-/

namespace Sys2Proof.Machine

/-! ## Appends in turn (R160) -/

theorem foldl_appendOrDrop_apart (l : List RecordBody) (s : State) : (l.foldl appendOrDrop s).apartAppends = s.apartAppends :=
  foldl_apart (p := State.apartAppends) appendOrDrop_apart l s

/-- Appends change the store and the Start-up Controller alone. -/
theorem foldl_appendOrDrop_frame (l : List RecordBody) (s : State) : l.foldl appendOrDrop s = { s with
    store := (l.foldl appendOrDrop s).store
    startup := (l.foldl appendOrDrop s).startup } :=
  (onlyAppends_of_apart (foldl_appendOrDrop_apart l s)).2

theorem foldl_appendOrDrop_congr (l : List RecordBody) {s t : State} (h : s.store = t.store ∧ s.startup = t.startup) :
    (l.foldl appendOrDrop s).store = (l.foldl appendOrDrop t).store ∧ (l.foldl appendOrDrop s).startup = (l.foldl appendOrDrop t).startup := by
  induction l generalizing s t with
  | nil => exact h
  | cons b l ih => exact ih (appendOrDrop_congr b h)

/-- The store after appends, of which what is served is as it was. -/
theorem foldl_appendOrDrop_serving (l : List RecordBody) (s : State) : (l.foldl appendOrDrop s).store.serving = s.store.serving :=
  (congrArg Store.serving (onlyAppends_of_apart (foldl_appendOrDrop_apart l s)).1.1).trans rfl

/-- An append does not look at what the flash serves. -/
theorem appendOrDrop_withServing (s : State) (b : RecordBody) (x : Option Serving) :
    appendOrDrop { s with store := { s.store with serving := x } } b =
      { appendOrDrop s b with store := { (appendOrDrop s b).store with serving := x } } := by
  have hnote (s : State) : State.noteFull { s with store := { s.store with serving := x } } =
      { s.noteFull with store := { s.noteFull.store with serving := x } } := by
    unfold State.noteFull
    have : (State.scanned { s with store := { s.store with serving := x } } &&
        !({ s with store := { s.store with serving := x } } : State).store.hasRoom) = (s.scanned && !s.store.hasRoom) := rfl
    rw [this]
    split <;> rfl
  have hdue (st : Store) : Store.programIfDue { st with serving := x } = { st.programIfDue with serving := x } := by
    unfold Store.programIfDue
    have : Store.target { st with serving := x } = st.target := rfl
    simp only [this]
    split <;> rfl
  have happend : append { s with store := { s.store with serving := x } } b =
      ({ (append s b).1 with store := { (append s b).1.store with serving := x } }, (append s b).2) := by
    unfold append
    have hroom : Store.hasRoom { s.store with serving := x } = s.store.hasRoom := rfl
    simp only [hroom]
    split
    · rfl
    · split
      · exact Prod.ext ((congrArg (fun st => State.noteFull { s with store := st })
          (hdue (s.store.givenNumber.enterPage ⟨s.store.seqCounter, b, s.now⟩))).trans
          (hnote { s with store := (s.store.givenNumber.enterPage ⟨s.store.seqCounter, b, s.now⟩).programIfDue })) rfl
      · split
        · exact Prod.ext (hnote { s with store := s.store.givenNumber.enterSecond ⟨s.store.seqCounter, b, s.now⟩ }) rfl
        · rfl
  unfold appendOrDrop
  rw [happend]
  cases h : append s b with
  | mk t n => cases n <;> rfl

theorem foldl_appendOrDrop_withServing (l : List RecordBody) (s : State) (x : Option Serving) :
    l.foldl appendOrDrop { s with store := { s.store with serving := x } } =
      { l.foldl appendOrDrop s with store := { (l.foldl appendOrDrop s).store with serving := x } } := by
  induction l generalizing s with
  | nil => rfl
  | cons b l ih => rw [List.foldl_cons, List.foldl_cons, appendOrDrop_withServing, ih]

theorem orphanEngineRead_eq (st : Store) : st.orphanEngineRead = { st with serving := match st.serving with
    | some (.planRead _) => some (.planRead false)
    | some (.rebuildRead _) => some (.rebuildRead false)
    | x => x } := by
  match st with
  | { serving := none, .. } => rfl
  | { serving := some v, .. } => cases v <;> rfl

/-! ## Self-stores (R127) -/

/-- A counter counted up `k` times. -/
theorem iterate_countUp (k : Nat) {n : Nat} (h : n ≤ 65535) : countUp^[k] n = min (n + k) 65535 := by
  induction k generalizing n with
  | zero => simpa using h
  | succ k ih =>
    have hle : countUp n ≤ 65535 := Nat.min_le_right _ _
    rw [Function.iterate_succ_apply, ih hle]
    simp only [countUp, Config.counterMax]
    omega

theorem selfStore_eq (s : State) (p : Packet) (segment : Nat) (stale : Bool) (target : Option Nat) :
    selfStore s p segment stale target = { s with
      store := (appendOrDrop s (unconfirmedRecord s p segment stale target)).store
      startup := (appendOrDrop s (unconfirmedRecord s p segment stale target)).startup
      relay := { s.relay with unconfirmed := countUp s.relay.unconfirmed } } :=
  congrArg (fun u : State => { u with relay := { u.relay with unconfirmed := countUp u.relay.unconfirmed } })
    (onlyAppends_of_apart (appendOrDrop_apart s (unconfirmedRecord s p segment stale target))).2

/-- The RELAY-UNCONFIRMED record of a relay list entry. -/
def entryRecord (s : State) (e : RelayEntry) : RecordBody := unconfirmedRecord s e.packet e.segment e.stale e.target

/-- Of the state it takes the run number alone. -/
theorem entryRecord_congr {s t : State} (h : s.engine = t.engine) : entryRecord s = entryRecord t := by
  funext e
  simp [entryRecord, unconfirmedRecord, State.runNumber, h]

/-! ## Held relay entries judged (R50, R125) -/

/-- The relay list after the entries of `l` have been judged: DUE after the first and second send, gone after the third. -/
def judgedEntries (l list : List RelayEntry) : List RelayEntry :=
  (list.filter fun x => decide (∀ e ∈ l, 3 ≤ e.sends → e.tag ≠ x.tag)).map fun x =>
    if ∃ e ∈ l, e.sends < 3 ∧ e.tag = x.tag then { x with phase := .due } else x

/-- The records of those that go. -/
def expiredRecords (s : State) (l : List RelayEntry) : List RecordBody := (l.filter fun e => decide (3 ≤ e.sends)).map (entryRecord s)

theorem judgedEntries_nil (list : List RelayEntry) : judgedEntries [] list = list := by simp [judgedEntries]

theorem judgedEntries_wait {e : RelayEntry} (h : e.sends < 3) (l list : List RelayEntry) :
    judgedEntries l (list.map fun x => if x.tag = e.tag then { x with phase := .due } else x) = judgedEntries (e :: l) list := by
  unfold judgedEntries
  rw [List.filter_map, List.map_map]
  have htag (x : RelayEntry) : (if x.tag = e.tag then { x with phase := .due } else x).tag = x.tag := by split <;> rfl
  have hfilter : list.filter ((fun x => decide (∀ e ∈ l, 3 ≤ e.sends → e.tag ≠ x.tag)) ∘
        fun x => if x.tag = e.tag then { x with phase := .due } else x) =
      list.filter fun x => decide (∀ y ∈ e :: l, 3 ≤ y.sends → y.tag ≠ x.tag) := by
    refine List.filter_congr fun x _ => ?_
    simp only [Function.comp, htag, List.forall_mem_cons, decide_eq_decide]
    constructor
    · exact fun hl => ⟨fun h3 => absurd h3 (by omega), hl⟩
    · exact fun hl => hl.2
  rw [hfilter]
  refine List.map_congr_left fun x _ => ?_
  simp only [Function.comp, htag, List.exists_mem_cons_iff, h, true_and]
  by_cases hx : x.tag = e.tag
  · simp [hx]
  · simp [hx, Ne.symm hx]

theorem judgedEntries_gone {e : RelayEntry} (h : ¬ e.sends < 3) (l list : List RelayEntry) :
    judgedEntries l (list.filter (·.tag != e.tag)) = judgedEntries (e :: l) list := by
  unfold judgedEntries
  rw [List.filter_filter]
  have hfilter : (list.filter fun x => decide (∀ y ∈ l, 3 ≤ y.sends → y.tag ≠ x.tag) && (x.tag != e.tag)) =
      list.filter fun x => decide (∀ y ∈ e :: l, 3 ≤ y.sends → y.tag ≠ x.tag) := by
    refine List.filter_congr fun x _ => ?_
    rw [Bool.eq_iff_iff]
    simp only [Bool.and_eq_true, decide_eq_true_eq, bne_iff_ne, List.forall_mem_cons]
    constructor
    · exact fun ⟨hl, hx⟩ => ⟨fun _ => Ne.symm hx, hl⟩
    · exact fun ⟨hx, hl⟩ => ⟨hl, Ne.symm (hx (by omega))⟩
  rw [hfilter]
  refine List.map_congr_left fun x _ => ?_
  simp only [List.exists_mem_cons_iff, h, false_and, false_or]

/-- Waits that expire in turn: the list judged, the records of those that go appended in order, each counted. -/
theorem foldl_expireWait (l : List RelayEntry) (s : State) : l.foldl expireWait s = { s with
    relay := { s.relay with
      list := judgedEntries l s.relay.list
      unconfirmed := countUp^[(expiredRecords s l).length] s.relay.unconfirmed }
    store := ((expiredRecords s l).foldl appendOrDrop s).store
    startup := ((expiredRecords s l).foldl appendOrDrop s).startup } := by
  induction l generalizing s with
  | nil => simp [judgedEntries_nil, expiredRecords]
  | cons e l ih =>
    rw [List.foldl_cons]
    by_cases h : e.sends < 3
    · have hs : expireWait s e = { s with
          relay := { s.relay with list := s.relay.list.map fun x => if x.tag = e.tag then { x with phase := .due } else x } } := by
        unfold expireWait
        rw [if_pos h]
        rfl
      have hrecords : expiredRecords s (e :: l) = expiredRecords (expireWait s e) l := by
        unfold expiredRecords
        rw [List.filter_cons_of_neg (by simpa using h), hs]
        rfl
      have hcongr := foldl_appendOrDrop_congr (expiredRecords (expireWait s e) l) (s := expireWait s e) (t := s) (by rw [hs]; exact ⟨rfl, rfl⟩)
      rw [ih, hrecords, hcongr.1, hcongr.2, hs, ← judgedEntries_wait h]
    · have hs : expireWait s e = { s with
          relay := { s.relay with
            list := s.relay.list.filter (·.tag != e.tag)
            unconfirmed := countUp s.relay.unconfirmed }
          store := (appendOrDrop s (entryRecord s e)).store
          startup := (appendOrDrop s (entryRecord s e)).startup } := by
        unfold expireWait
        rw [if_neg h]
        dsimp only [selfStoreEntry]
        rw [selfStore_eq]
        rfl
      have hrecords : expiredRecords s (e :: l) = entryRecord s e :: expiredRecords (expireWait s e) l := by
        unfold expiredRecords
        rw [List.filter_cons_of_pos (by simpa using h), List.map_cons, entryRecord_congr (s := expireWait s e) (t := s) (by rw [hs])]
      have hcongr := foldl_appendOrDrop_congr (expiredRecords (expireWait s e) l) (s := expireWait s e)
        (t := appendOrDrop s (entryRecord s e)) (by rw [hs]; exact ⟨rfl, rfl⟩)
      rw [ih, hrecords, List.foldl_cons, hcongr.1, hcongr.2, List.length_cons, Function.iterate_succ_apply, hs, ← judgedEntries_gone h]

/-- The entries of a share whose wait has run out. -/
def waitedEntries (s : State) (n : Nat) : List RelayEntry :=
  s.relay.list.filter fun e =>
    decide (e.share = n ∧ e.phase = .waiting) && e.lastSend.any fun t => decide (250 ≤ (s.now - t).toNat)

theorem judgeHeldEntries_eq (s : State) (n : Nat) : judgeHeldEntries s n = (waitedEntries s n).foldl expireWait s := by
  have hwaited : (s.relay.list.filter fun e => e.share == n && e.waitOver s.now) = waitedEntries s n := by
    refine List.filter_congr fun e _ => ?_
    unfold RelayEntry.waitOver
    cases e.lastSend with
    | none => simp
    | some t =>
      rw [Bool.eq_iff_iff]
      simp only [elapsed, Config.relayWait, Bool.and_eq_true, beq_iff_eq, decide_eq_true_eq, Option.any_some, and_assoc]
      exact and_congr_right fun _ => and_congr_right fun _ => decide_eq_true_iff
  unfold judgeHeldEntries
  rw [hwaited]

end Sys2Proof.Machine
end

section
/-!
PROOF. The comparison table of a recomputation (R45), row by row.
-/

namespace Sys2Proof.Machine

section
variable {s : State} {n : Nat}

theorem compareShare_notMine (h : s.shareState n = .notMine) (hmine : s.ownerOf n = s.slot ∧ s.isRunning = true) :
    compareShare s n = queueShare s n := by
  unfold compareShare
  simp [h, hmine.1, hmine.2]

theorem compareShare_adopted (h : s.shareState n = .adopted) (hmine : ¬ (s.ownerOf n = s.slot ∧ s.isRunning = true)) :
    compareShare s n = requestRelease s n := by
  have hf : (s.ownerOf n == s.slot && s.isRunning) = false := by simpa using hmine
  unfold compareShare
  rw [h, hf]

theorem compareShare_queued (h : s.shareState n = .queued) (hmine : ¬ (s.ownerOf n = s.slot ∧ s.isRunning = true)) :
    compareShare s n = unqueueShare s n := by
  have hf : (s.ownerOf n == s.slot && s.isRunning) = false := by simpa using hmine
  unfold compareShare
  rw [h, hf]

theorem compareShare_loading (h : s.shareState n = .loading) (hmine : ¬ (s.ownerOf n = s.slot ∧ s.isRunning = true)) :
    compareShare s n = abandonLoad s n := by
  have hf : (s.ownerOf n == s.slot && s.isRunning) = false := by simpa using hmine
  unfold compareShare
  rw [h, hf]

theorem compareShare_same (h : s.shareState n = .own ∨ (s.shareState n = .notMine ∧ ¬ (s.ownerOf n = s.slot ∧ s.isRunning = true)) ∨
    ((s.shareState n = .queued ∨ s.shareState n = .loading ∨ s.shareState n = .adopted) ∧ s.ownerOf n = s.slot ∧ s.isRunning = true)) :
    compareShare s n = s := by
  unfold compareShare
  rcases h with h | ⟨h, hmine⟩ | ⟨h | h | h, howner, hrun⟩
  · rw [h]
  · have hf : (s.ownerOf n == s.slot && s.isRunning) = false := by simpa using hmine
    rw [h, hf]
  iterate 3 rw [h, howner, hrun, beq_self_eq_true, Bool.true_and]

/-- The share's entries judged, in a state whose relay list and run number are those of `s`. -/
theorem judgeHeldEntries_of {u : State} (hrelay : u.relay = s.relay) (hnow : u.now = s.now) (hengine : u.runNumber = s.runNumber)
    (hstartup : u.startup = s.startup) {x : Option Serving} (hstore : u.store = { s.store with serving := x }) :
    judgeHeldEntries u n = { u with
      relay := { s.relay with
        list := judgedEntries (waitedEntries s n) s.relay.list
        unconfirmed := countUp^[(expiredRecords s (waitedEntries s n)).length] s.relay.unconfirmed }
      store := { ((expiredRecords s (waitedEntries s n)).foldl appendOrDrop s).store with serving := x }
      startup := ((expiredRecords s (waitedEntries s n)).foldl appendOrDrop s).startup } := by
  have hwaited : waitedEntries u n = waitedEntries s n := by unfold waitedEntries; rw [hrelay, hnow]
  have hrecord : entryRecord u = entryRecord s := by funext e; simp [entryRecord, unconfirmedRecord, hengine]
  have hrecords : expiredRecords u (waitedEntries s n) = expiredRecords s (waitedEntries s n) := by unfold expiredRecords; rw [hrecord]
  have hcongr := foldl_appendOrDrop_congr (expiredRecords s (waitedEntries s n)) (s := u)
    (t := { s with store := { s.store with serving := x } }) ⟨hstore, hstartup⟩
  rw [foldl_appendOrDrop_withServing _ s x] at hcongr
  rw [judgeHeldEntries_eq, hwaited, foldl_expireWait, hrecords, hcongr.1, hcongr.2, hrelay]

end

/-- The map does not depend on the reading of a packet operation (R43, R80). -/
theorem remap_raceReading (s : State) :
    remap (raceReading s) = { raceReading s with presence := { s.presence with owners := s.allShares.map s.effectiveOwner } } := by
  by_cases h : ∃ item, s.engine.op = .packet item none
  · obtain ⟨item, h⟩ := h
    rw [raceReading_of_waiting h]
    rfl
  · rw [raceReading_of_taken fun item hi => h ⟨item, hi⟩]
    rfl

/-- Settles O9: the table's rows, the judgement of the held entries as one pass over the relay list, and a recomputation's frame. -/
theorem recomputationTable : Obligations.RecomputationTable := by
  refine ⟨fun s n => ⟨fun h hmine => compareShare_notMine h hmine, fun h hmine => compareShare_adopted h hmine, fun h hmine => ?queued,
    fun h hmine => ?loading, fun h => compareShare_same h⟩, fun s => ⟨raceReading_of_taken, fun item hop => ?race⟩, fun s => ?frame⟩
  case queued =>
    have heq : compareShare s n = _ := (compareShare_queued h hmine).trans (judgeHeldEntries_of (s := s)
      (u := { s with presence := { s.presence.setShare n .notMine with adoptQueue := s.presence.adoptQueue.filter (· != n) } })
      rfl rfl rfl rfl (x := s.store.serving) rfl)
    have hserving := foldl_appendOrDrop_serving (expiredRecords s (waitedEntries s n)) s
    refine ⟨?_, fun hle => ?_⟩
    · rw [heq]
      rw [← hserving]
      rfl
    · rw [heq]
      exact iterate_countUp _ hle
  case loading =>
    have heq : compareShare s n = _ := (compareShare_loading h hmine).trans
      (judgeHeldEntries_of (s := s)
      (u := { stopLoad s n with presence := s.presence.setShare n .notMine }) rfl rfl rfl rfl (orphanEngineRead_eq s.store))
    refine ⟨?_, fun hle => ?_⟩
    · rw [heq]
      rfl
    · rw [heq]
      exact iterate_countUp _ hle
  case race =>
    rw [raceReading_of_waiting hop]
    simp [State.readingOf, List.contains_eq_mem]
  case frame =>
    have hframe := recompute_frame s
    have howners : (recompute s).presence.owners = (remap (raceReading s)).presence.owners := by
      have hone (t : State) (n : Nat) : (compareShare t n).presence.owners = t.presence.owners := by
        have hjudge (t : State) (n : Nat) : (judgeHeldEntries t n).presence = t.presence := by
          rw [judgeHeldEntries_eq, foldl_expireWait]
        unfold compareShare
        split
        · rfl
        · unfold unqueueShare
          rw [hjudge]
          rfl
        · unfold abandonLoad
          rw [hjudge]
          rfl
        · rfl
        · rfl
      exact foldl_apart (p := fun s => s.presence.owners) hone _ _
    have hremap := remap_raceReading s
    have hmap : s.allShares.map s.effectiveOwner = (List.range s.settings.collectors).map fun i => s.effectiveOwner (i + 1) := by
      rw [State.allShares, List.map_map]
      rfl
    rw [hmap] at hremap
    refine ⟨?_, ?_, ?_, ?_, ?_⟩
    · rw [← hremap]
      rfl
    · rw [howners, hremap]
    · rw [hframe]
    · rw [hframe]
    · rw [hframe]

end Sys2Proof.Machine
end

section
/-!
PROOF. The CRC of the part (R1). The shift of the register is one-to-one, and eight shifts of a byte only move it up; so the two bytes that
bring the register to zero are those of the register itself.
-/

namespace Sys2Proof.Machine

/-! ## Numbers in bytes -/

@[simp] theorem bytesOf_length (n v : Nat) : (bytesOf n v).length = n := by
  induction n generalizing v with
  | zero => rfl
  | succ n ih => simp [bytesOf, ih]

theorem numberOf_append_singleton (bs : List Byte) (b : Byte) : numberOf (bs ++ [b]) = numberOf bs * 256 + b.toNat := by
  simp [numberOf]

/-- The number in `n` bytes is what they were made of, where it fits. -/
theorem numberOf_bytesOf (n v : Nat) : numberOf (bytesOf n v) = v % 256 ^ n := by
  induction n generalizing v with
  | zero => simp [bytesOf, numberOf, Nat.mod_one]
  | succ n ih =>
    rw [bytesOf, numberOf_append_singleton, ih, BitVec.toNat_ofNat, show 2 ^ 8 = 256 from rfl, Nat.pow_succ', Nat.mod_mul]
    omega

theorem numberOf_bytesOf_of_lt {n v : Nat} (h : v < 256 ^ n) : numberOf (bytesOf n v) = v := by
  rw [numberOf_bytesOf, Nat.mod_eq_of_lt h]

/-! ## The register (R1) -/

theorem crcShift_getLsbD (r : BitVec 16) {k : Nat} (hk : k < 16) :
    (crcShift r).getLsbD k = ((decide (0 < k) && r.getLsbD (k - 1)) ^^ (r.getLsbD 15 && (0x1021 : BitVec 16).getLsbD k)) := by
  have hmsb : r.msb = r.getLsbD 15 := by rw [BitVec.msb_eq_getLsbD_last]
  unfold crcShift
  rw [hmsb]
  cases h15 : r.getLsbD 15 <;> by_cases hz : k = 0 <;>
    simp [hk, hz, Nat.pos_iff_ne_zero, BitVec.getLsbD_eq_getElem (show k - 1 < 16 by omega)]

theorem crcShift_injective : Function.Injective crcShift := by
  intro a b h
  have hbit {k : Nat} (hk : k < 16) := congrArg (fun r : BitVec 16 => r.getLsbD k) h
  have htop : a.getLsbD 15 = b.getLsbD 15 := by
    have := hbit (k := 0) (by decide)
    simp only [crcShift_getLsbD _ (show 0 < 16 by decide)] at this
    simpa using this
  refine BitVec.eq_of_getLsbD_eq fun i hi => ?_
  by_cases h15 : i = 15
  · rw [h15]; exact htop
  · have := hbit (k := i + 1) (by omega)
    simp only [crcShift_getLsbD _ (show i + 1 < 16 by omega), htop] at this
    simpa using this

theorem crcByte_eq (r : BitVec 16) (b : Byte) : crcByte r b = crcShift^[8] (r ^^^ (b.setWidth 16 <<< 8)) := rfl

theorem crc16_append (bs cs : List Byte) : crc16 (bs ++ cs) = cs.foldl crcByte (crc16 bs) := by simp [crc16]

@[simp] theorem crcShift_iterate_zero (i : Nat) : crcShift^[i] 0 = 0 := Function.iterate_fixed rfl i

theorem crcShift_iterate_eq_zero {i : Nat} {r : BitVec 16} : crcShift^[i] r = 0 ↔ r = 0 := by
  constructor
  · intro h
    exact crcShift_injective.iterate i (h.trans (crcShift_iterate_zero i).symm)
  · rintro rfl
    exact crcShift_iterate_zero i

/-- A byte in the low half of the register is only moved up (R1). -/
theorem crcShift_iterate_byte (b : Byte) {i : Nat} (hi : i ≤ 8) : crcShift^[i] (b.setWidth 16) = b.setWidth 16 <<< i := by
  induction i with
  | zero => simp
  | succ i ih =>
    rw [Function.iterate_succ_apply', ih (by omega)]
    have hmsb : (b.setWidth 16 <<< i).msb = false := by
      rw [BitVec.msb_eq_getLsbD_last]
      have : ¬ (16 - 1 - i) < 8 := by omega
      simp
      intro _
      exact BitVec.getLsbD_of_ge _ _ (by omega)
    unfold crcShift
    rw [hmsb]
    simp [← BitVec.shiftLeft_add]

theorem byte_halves (r : BitVec 16) (hi lo : Byte) :
    r ^^^ (hi.setWidth 16 <<< 8) = lo.setWidth 16 ↔ hi = (r >>> 8).setWidth 8 ∧ lo = r.setWidth 8 := by
  constructor
  · intro h
    have hbit (k : Nat) := congrArg (fun r : BitVec 16 => r.getLsbD k) h
    constructor
    · refine BitVec.eq_of_getLsbD_eq fun i h8 => ?_
      have := hbit (8 + i)
      simp [show 8 + i < 16 by omega] at this
      simpa [h8, BitVec.getLsbD_eq_getElem (show 8 + i < 16 by omega)] using this.symm
    · refine BitVec.eq_of_getLsbD_eq fun i h8 => ?_
      have := hbit i
      simp [h8, show i < 16 by omega] at this
      simpa [h8, BitVec.getLsbD_eq_getElem (show i < 16 by omega)] using this.symm
  · rintro ⟨rfl, rfl⟩
    refine BitVec.eq_of_getLsbD_eq fun i h16 => ?_
    by_cases h8 : i < 8
    · simp [h8, h16]
    · simp [h8, h16, show i - 8 < 16 by omega, show i - 8 < 8 by omega, show 8 + (i - 8) = i by omega]

/-- The two bytes that bring the register to zero are its halves (R1). -/
theorem crcByte_crcByte_eq_zero {r : BitVec 16} {hi lo : Byte} :
    crcByte (crcByte r hi) lo = 0 ↔ hi = (r >>> 8).setWidth 8 ∧ lo = r.setWidth 8 := by
  rw [← byte_halves, crcByte_eq, crcShift_iterate_eq_zero, show (0 : BitVec 16) = 0#16 from rfl, BitVec.xor_eq_zero_iff, crcByte_eq,
    ← crcShift_iterate_byte lo le_rfl]
  exact (crcShift_injective.iterate 8).eq_iff

theorem crcBytes_eq (bs : List Byte) : crcBytes bs = [(crc16 bs >>> 8).setWidth 8, (crc16 bs).setWidth 8] := by
  have hlow : BitVec.ofNat 8 (crc16 bs).toNat = (crc16 bs).setWidth 8 := by
    apply BitVec.eq_of_toNat_eq
    simp
  have hhigh : BitVec.ofNat 8 ((crc16 bs).toNat / 256) = (crc16 bs >>> 8).setWidth 8 := by
    apply BitVec.eq_of_toNat_eq
    simp [Nat.shiftRight_eq_div_pow]
  simp [crcBytes, bytesOf, hlow, hhigh]

theorem crc16_eq_zero_iff (bs : List Byte) (hi lo : Byte) : crc16 (bs ++ [hi, lo]) = 0 ↔ [hi, lo] = crcBytes bs := by
  rw [crc16_append, crcBytes_eq]
  simp only [List.foldl_cons, List.foldl_nil, List.cons.injEq, and_true]
  exact crcByte_crcByte_eq_zero

theorem crc16_append_crcBytes (bs : List Byte) : crc16 (bs ++ crcBytes bs) = 0 := by
  have h := (crc16_eq_zero_iff bs ((crc16 bs >>> 8).setWidth 8) ((crc16 bs).setWidth 8)).2 (crcBytes_eq bs).symm
  rwa [← crcBytes_eq] at h

/-- Both ways to check a CRC agree (R1). -/
theorem crcGood_iff {bs : List Byte} {n : Nat} (h : bs.length = n + 2) : crcGood bs 0 n = true ↔ crc16 bs = 0 := by
  obtain ⟨hi, lo, hrest⟩ : ∃ hi lo, bs.drop n = [hi, lo] := List.length_eq_two.1 (by simp [h])
  have hbs : bs = bs.take n ++ [hi, lo] := by rw [← hrest, List.take_append_drop]
  conv_rhs => rw [hbs, crc16_eq_zero_iff]
  simp only [crcGood, List.drop_zero, Nat.zero_add, hrest, beq_iff_eq]
  exact eq_comm

/-- Settles O1: the register byte by byte, and the two bytes after which it is zero. -/
theorem crcRule : Obligations.CrcRule := by
  refine ⟨rfl, fun bs b => ?_, fun r => ?_, by decide +kernel, crcBytes_eq, crc16_append_crcBytes, crc16_eq_zero_iff,
    fun bs n h => crcGood_iff h⟩
  · rw [crc16_append]; rfl
  · unfold crcShift
    rw [BitVec.msb_eq_getLsbD_last]

/-! ## Checks of what the part writes -/

/-- Bytes followed by their CRC check good, wherever they stand. -/
theorem crcGood_append (before bs after : List Byte) : crcGood (before ++ bs ++ crcBytes bs ++ after) before.length bs.length = true := by
  have hlen : (crcBytes bs).length = 2 := bytesOf_length _ _
  unfold crcGood
  rw [beq_iff_eq]
  simp [List.append_assoc, ← hlen]

end Sys2Proof.Machine
end

section
/-!
PROOF. What the part writes as bytes and reads back: the payloads of the frames (R24), the records and headers in flash (R156, R157), and the
settings image (R189).
-/

namespace Sys2Proof.Machine

/-! ## Fields in bytes -/

@[simp] theorem ofNat_toNat_mod_two (v : BitVec 16) : BitVec.ofNat 16 (v.toNat % 65536) = v := by
  rw [Nat.mod_eq_of_lt v.isLt, BitVec.ofNat_toNat, BitVec.setWidth_eq]

@[simp] theorem ofNat_toNat_mod_four (v : BitVec 32) : BitVec.ofNat 32 (v.toNat % 4294967296) = v := by
  rw [Nat.mod_eq_of_lt v.isLt, BitVec.ofNat_toNat, BitVec.setWidth_eq]

theorem fieldOf_bytesOf (n v : Nat) (after : List Byte) : fieldOf (bytesOf n v ++ after) 0 n = v % 256 ^ n := by
  rw [← numberOf_bytesOf, fieldOf, List.drop_zero, List.take_left' (bytesOf_length n v)]

theorem fieldOf_bytesOf_end (n v : Nat) : fieldOf (bytesOf n v) 0 n = v % 256 ^ n := by
  simpa using fieldOf_bytesOf n v []

theorem fieldOf_skip {before : List Byte} {k : Nat} (after : List Byte) (n : Nat) (h : before.length ≤ k) :
    fieldOf (before ++ after) k n = fieldOf after (k - before.length) n := by
  simp [fieldOf, List.drop_append, List.drop_eq_nil_of_le h]

theorem fieldOf_cons {k : Nat} (b : Byte) (bs : List Byte) (n : Nat) (h : 0 < k) : fieldOf (b :: bs) k n = fieldOf bs (k - 1) n :=
  fieldOf_skip (before := [b]) bs n h

theorem byteAt_skip {before : List Byte} {k : Nat} (after : List Byte) (h : before.length ≤ k) :
    byteAt (before ++ after) k = byteAt after (k - before.length) := by
  simp [byteAt, List.getElem?_append_right h]

theorem byteAt_cons {k : Nat} (b : Byte) (bs : List Byte) (h : 0 < k) : byteAt (b :: bs) k = byteAt bs (k - 1) :=
  byteAt_skip (before := [b]) bs h

theorem byteAt_zero (b : Byte) (bs : List Byte) : byteAt (b :: bs) 0 = b := rfl

theorem crcGood_skip {before : List Byte} {k : Nat} (after : List Byte) (n : Nat) (h : before.length ≤ k) :
    crcGood (before ++ after) k n = crcGood after (k - before.length) n := by
  have h' : before.length ≤ k + n := Nat.le_trans h (Nat.le_add_right _ _)
  simp [crcGood, List.drop_append, List.drop_eq_nil_of_le h, List.drop_eq_nil_of_le h', Nat.sub_add_comm h]

theorem crcGood_front {bs : List Byte} {n : Nat} (after : List Byte) (h : bs.length = n) :
    crcGood (bs ++ crcBytes bs ++ after) 0 n = true := by
  subst h
  exact crcGood_append [] bs after

theorem crcGood_front_end {bs : List Byte} {n : Nat} (h : bs.length = n) : crcGood (bs ++ crcBytes bs) 0 n = true := by
  simpa using crcGood_front [] h

theorem fieldOf_one {bs : List Byte} {i : Nat} (h : i < bs.length) : fieldOf bs i 1 = (bs.getD i 0).toNat := by
  unfold fieldOf
  rw [List.drop_eq_getElem_cons h, List.take_succ_cons, List.take_zero, List.getD_eq_getElem _ _ h]
  simp [numberOf]

theorem fieldOf_two {bs : List Byte} {i : Nat} (h : i + 1 < bs.length) :
    fieldOf bs i 2 = 256 * (bs.getD i 0).toNat + (bs.getD (i + 1) 0).toNat := by
  unfold fieldOf
  rw [List.drop_eq_getElem_cons (show i < bs.length by omega), List.take_succ_cons, List.drop_eq_getElem_cons h, List.take_succ_cons,
    List.take_zero, List.getD_eq_getElem _ _ h, List.getD_eq_getElem _ _ (show i < bs.length by omega)]
  simp [numberOf, Nat.mul_comm]

/-! ## The settings in use (R189) -/

theorem clampField_fits {low high : Nat} (v : Nat) (h : low ≤ high) :
    (v < low → clampField v low high = low) ∧ (low ≤ v → v ≤ high → clampField v low high = v) ∧
      (high < v → clampField v low high = high) := by
  unfold clampField
  omega

theorem clampField_within {low high : Nat} (v : Nat) (h : low ≤ high) : low ≤ clampField v low high ∧ clampField v low high ≤ high := by
  unfold clampField
  omega

theorem positionTimeoutOf_mem (code : Nat) :
    positionTimeoutOf code = 1000 ∨ positionTimeoutOf code = 2000 ∨ positionTimeoutOf code = 5000 ∨ positionTimeoutOf code = 10000 := by
  unfold positionTimeoutOf
  split <;> simp

theorem settingsOf_detector (image : List Byte) {j : Nat} (hj : j < 7) : (settingsOf image).detector j = detectorSettingOf image j := by
  simp [Settings.detector, settingsOf, hj]

theorem settingsOf_band (image : List Byte) {i : Nat} (hi : i < 4) : (settingsOf image).band i = bandOf image i := by
  simp [Settings.band, settingsOf, hi]

theorem acceptedImage_savedImage {image : List Byte} (h : image.length = 96) : acceptedImage (savedImage image) = some image := by
  have hgood : crcGood (image ++ crcBytes image) 0 imageBytes = true := crcGood_front_end h
  rw [acceptedImage, savedImage, if_pos hgood, imageBytes, List.take_left' h]

/-- Settles O11: each field is the image's field clamped to its range. -/
theorem settingsInRange : Obligations.SettingsInRange := by
  refine ⟨fun image => ?_, fun image h => ?_, by decide +kernel, fun image => acceptedImage_savedImage⟩
  · refine ⟨clampField_within _ (by decide), clampField_within _ (by decide), by simp [settingsOf], ?_, by simp [settingsOf], ?_,
      clampField_within _ (by decide), (clampField_within _ (by decide)).2, clampField_within _ (by decide), positionTimeoutOf_mem _⟩
    · simp only [settingsOf, List.forall_mem_map]
      intro j _
      obtain ⟨h1, h8⟩ := clampField_within (fieldOf image (3 + 4 * j) 1) (show 1 ≤ 8 by decide)
      obtain ⟨h1', h15⟩ := clampField_within (fieldOf image (5 + 4 * j) 1) (show 1 ≤ 15 by decide)
      exact ⟨h1, h8, (clampField_within _ (by decide)).2, h1', h15⟩
    · simp only [settingsOf, List.forall_mem_map]
      intro i _
      obtain ⟨h1, h2⟩ := clampField_within (fieldOf image (30 + 3 * i) 2) (show 100 ≤ 1000 by decide)
      exact ⟨h1, h2, (clampField_within _ (by decide)).2⟩
  · have byte {i : Nat} (hi : i < 96) := fieldOf_one (bs := image) (i := i) (by omega)
    have word {i : Nat} (hi : i + 1 < 96) := fieldOf_two (bs := image) (i := i) (by omega)
    dsimp only
    refine ⟨?_, ?_, fun j hj => ?_, fun i hi => ?_, ?_, ?_, ?_, ?_, ?_⟩
    · rw [← byte (i := 0) (by decide)]
      exact clampField_fits _ (by decide)
    · rw [← byte (i := 1) (by decide)]
      exact clampField_fits _ (by decide)
    · rw [settingsOf_detector _ hj, ← byte (i := 2 + 4 * j) (by omega), ← byte (i := 3 + 4 * j) (by omega),
        ← byte (i := 4 + 4 * j) (by omega), ← byte (i := 5 + 4 * j) (by omega)]
      exact ⟨rfl, clampField_fits _ (by decide), clampField_fits _ (by decide), clampField_fits _ (by decide)⟩
    · rw [settingsOf_band _ hi, ← word (i := 30 + 3 * i) (by omega), ← byte (i := 32 + 3 * i) (by omega)]
      exact ⟨clampField_fits _ (by decide), clampField_fits _ (by decide)⟩
    · rw [← byte (i := 42) (by decide)]
      exact clampField_fits _ (by decide)
    · rw [← word (i := 43) (by decide)]
      exact clampField_fits _ (by decide)
    · rw [← byte (i := 45) (by decide)]
      exact clampField_fits _ (by decide)
    · rw [← byte (i := 46) (by decide)]
      rfl
    · rw [← byte (i := 47) (by decide)]
      exact decide_eq_true_iff

/-! ## What flash holds (R60, R156, R157) -/

@[simp] theorem crcBytes_length (bs : List Byte) : (crcBytes bs).length = 2 := bytesOf_length _ _

theorem recordCovered_length (n : Nat) (r : RecordBody) : (recordCovered n r).length = 30 := by simp [recordCovered]

theorem recordGood_recordBytes (n : Nat) (r : RecordBody) : recordGood (recordBytes n r) = true := by
  have hcrc : crcGood (recordBytes n r) 0 30 = true := crcGood_front_end (recordCovered_length n r)
  have hkind : BitVec.ofNat 8 r.kind.code ≠ 0xFF := by cases r.kind <;> decide
  have hfree : allOnes (recordBytes n r) = false := by
    rw [allOnes, List.all_eq_false]
    exact ⟨BitVec.ofNat 8 r.kind.code, by simp [recordBytes, recordCovered], by simpa using hkind⟩
  rw [recordGood, hfree, hcrc]
  rfl

theorem marks_late (r : RecordBody) : r.marks[6] = r.late := by
  unfold RecordBody.marks
  cases r.stale <;> cases r.late <;> cases r.alarm <;> rfl

theorem recordOf_recordBytes (pos : LogPos) {n : Nat} (r : RecordBody) (hn : n < 4294967296) :
    recordOf pos (recordBytes n r) =
      ⟨pos, n, r.kind.code, r.meterId, r.counter, r.reading, r.flags, r.run, r.late, recordBytes n r⟩ := by
  have hkind : (BitVec.ofNat 8 r.kind.code).toNat = r.kind.code := by cases r.kind <;> rfl
  have hmarks := marks_late r
  simp [recordOf, recordBytes, recordCovered, List.append_assoc, fieldOf_bytesOf, fieldOf_skip, fieldOf_cons, byteAt_skip, byteAt_cons,
    byteAt_zero, hkind, hmarks,
    Nat.mod_eq_of_lt hn]

/-- Bytes all ones are the greatest number. -/
theorem allOnes_bytesOf_four {v : Nat} (hv : v < 4294967295) : allOnes (bytesOf 4 v) = false := by
  by_contra hall
  have hbytes : bytesOf 4 v = List.replicate 4 0xFF := by
    refine List.eq_replicate_iff.2 ⟨bytesOf_length _ _, fun b hb => ?_⟩
    have := List.all_eq_true.1 (Bool.not_eq_false _ ▸ hall) b hb
    exact eq_of_beq this
  have hnumber := numberOf_bytesOf_of_lt (n := 4) (v := v) (by omega)
  rw [hbytes] at hnumber
  have : numberOf (List.replicate 4 0xFF) = 4294967295 := by decide
  omega

theorem openingBytes_length (o : Opening) : (openingBytes o).length = 32 := by
  simp [openingBytes, headerCovered, reserveBytes]

theorem reserveBytes_valid {bound : Nat} (hb : bound < 4294967295) :
    allOnes (reserveBytes bound) = false ∧ crcGood (reserveBytes bound) 0 4 = true ∧ fieldOf (reserveBytes bound) 0 4 = bound := by
  refine ⟨?_, crcGood_front_end (bytesOf_length _ _), ?_⟩
  · have := allOnes_bytesOf_four hb
    simp only [allOnes, reserveBytes, List.all_append] at this ⊢
    rw [this, Bool.false_and]
  · rw [reserveBytes, fieldOf_bytesOf]
    omega

/-- An opening programs the first of the three reserve entries (R162). -/
theorem openingBytes_reserves (o : Opening) (hb : o.bound < 4294967295) : [1, 2, 3].filterMap (reserveAt (openingBytes o)) = [o.bound] := by
  obtain ⟨hones, hcrc, hfield⟩ := reserveBytes_valid hb
  have hlen : (headerCovered o.seq o.eraseCount ++ crcBytes (headerCovered o.seq o.eraseCount) ++ [0x7F]).length = 12 := by
    simp [headerCovered]
  have hreserve : (reserveBytes o.bound).length = 6 := by simp [reserveBytes]
  have hfirst : ((openingBytes o).drop 12).take 6 = reserveBytes o.bound := by
    rw [openingBytes, List.append_assoc _ (reserveBytes _), List.drop_left' hlen, List.take_left' hreserve]
  have hlater (i : Nat) : (openingBytes o).drop (18 + i) = (List.replicate 14 0xFF).drop i := by
    rw [openingBytes, ← List.drop_drop, List.drop_left' (by rw [List.length_append, hlen, hreserve])]
  have hone : reserveAt (openingBytes o) 1 = some o.bound := by simp [reserveAt, reserveOffset, hfirst, hones, hcrc, hfield]
  have htwo : reserveAt (openingBytes o) 2 = none := by
    rw [reserveAt, show reserveOffset 2 = 18 + 0 from rfl, hlater]
    rfl
  have hthree : reserveAt (openingBytes o) 3 = none := by
    rw [reserveAt, show reserveOffset 3 = 18 + 6 from rfl, hlater]
    rfl
  simp [hone, htwo, hthree]

theorem headerOf_openingBytes (o : Opening) (hs : o.seq < 4294967296) (he : o.eraseCount < 16777216) (hb : o.bound < 4294967295) :
    headerOf (openingBytes o) = {
      allOnes := false
      magicGood := true
      crcGood := true
      seq := o.seq
      eraseCount := o.eraseCount
      opened := true
      full := false
      uploaded := false
      eraseBegun := false
      retired := false
      reserves := [o.bound] } := by
  have hones : allOnes (openingBytes o) = false := by
    rw [allOnes, List.all_eq_false]
    exact ⟨0x7F, by simp [openingBytes], by decide⟩
  have hcrc : crcGood (openingBytes o) 0 9 = true := by
    have hlen : (headerCovered o.seq o.eraseCount).length = 9 := by simp [headerCovered]
    simpa only [List.append_assoc, openingBytes] using crcGood_front ([0x7F] ++ (reserveBytes o.bound ++ List.replicate 14 0xFF)) hlen
  have hmarks : byteAt (openingBytes o) marksOffset = 0x7F := by
    simp [openingBytes, headerCovered, List.append_assoc, byteAt_skip, marksOffset, byteAt_zero]
  rw [headerOf, hones, hcrc, hmarks, openingBytes_reserves o hb]
  simp [openingBytes, headerCovered, List.append_assoc, fieldOf_bytesOf, fieldOf_skip, headerMagic]
  omega

theorem planHeaderOf_planHeaderBytes {record : List Byte} (p : Plan) (spare : List Byte) (hlen : record.length = 19)
    (hcount : 1 ≤ p.count ∧ p.count ≤ 16384) (hsegs : 1 ≤ p.segments ∧ p.segments ≤ 512) :
    planHeaderOf (record ++ planHeaderBytes p ++ spare) = some p := by
  have hcrc : crcGood (record ++ planHeaderBytes p ++ spare) 19 9 = true := by
    rw [List.append_assoc, crcGood_skip _ _ (by omega), hlen]
    exact crcGood_front spare (by simp [planHeaderCovered])
  have hstate : byteAt (record ++ planHeaderBytes p ++ spare) 27 = 0x3C := by
    simp [planHeaderBytes, planHeaderCovered, List.append_assoc, byteAt_skip, byteAt_zero, hlen]
  have hident : fieldOf (record ++ planHeaderBytes p ++ spare) 19 4 = p.ident.toNat := by
    have := p.ident.isLt
    simp [planHeaderBytes, planHeaderCovered, List.append_assoc, fieldOf_bytesOf, fieldOf_skip, hlen]
    omega
  have hrecords : fieldOf (record ++ planHeaderBytes p ++ spare) 23 2 = p.count := by
    simp [planHeaderBytes, planHeaderCovered, List.append_assoc, fieldOf_bytesOf, fieldOf_skip, hlen]
    omega
  have hsegments : fieldOf (record ++ planHeaderBytes p ++ spare) 25 2 = p.segments := by
    simp [planHeaderBytes, planHeaderCovered, List.append_assoc, fieldOf_bytesOf, fieldOf_skip, hlen]
    omega
  rw [planHeaderOf, hcrc, hstate, hident, hrecords, hsegments]
  simp [hcount, hsegs]

/-- Settles O15: each field stands where the reader looks for it. -/
theorem flashFormatsReadBack : Obligations.FlashFormatsReadBack :=
  ⟨fun pos _ r hn => ⟨by simp [recordBytes, recordCovered_length], recordGood_recordBytes _ r, recordOf_recordBytes pos r hn⟩,
    fun o hs he hb => ⟨openingBytes_length o, headerOf_openingBytes o hs he hb⟩,
    fun _ p spare hlen h1 h2 h3 h4 => planHeaderOf_planHeaderBytes p spare hlen ⟨h1, h2⟩ ⟨h3, h4⟩⟩

end Sys2Proof.Machine
end

section
/-!
PROOF. The receive filter (R25): what it makes of a frame of each class, the payloads read back, and the frames that it refuses.
-/

namespace Sys2Proof.Machine

/-! ## The payloads read back (R24) -/

@[simp] theorem presenceBytes_length (p : PresencePayload) : (presenceBytes p).length = 14 := by simp [presenceBytes]

@[simp] theorem heldBytes_length (m : MeterId) (c : BitVec 16) : (heldBytes m c).length = 6 := by simp [heldBytes]

@[simp] theorem handoverBytes_length (p : HandoverPayload) : (handoverBytes p).length = 13 := by simp [handoverBytes]

@[simp] theorem relayBytes_length (p : RelayPayload) : (relayBytes p).length = 15 := by simp [relayBytes]

theorem presenceOf_presenceBytes (p : PresencePayload) : presenceOf (presenceBytes p) = p := by
  simp [presenceOf, presenceBytes, List.append_assoc, fieldOf_bytesOf, fieldOf_skip, fieldOf_cons, byteAt_skip, byteAt_cons, byteAt_zero]

theorem handoverOf_handoverBytes (p : HandoverPayload) : handoverOf (handoverBytes p) = p := by
  simp [handoverOf, handoverBytes, List.append_assoc, fieldOf_bytesOf, fieldOf_skip, byteAt_skip, byteAt_cons, byteAt_zero]

theorem relayOf_relayBytes (p : RelayPayload) : relayOf (relayBytes p) = p := by
  simp [relayOf, relayBytes, List.append_assoc, fieldOf_bytesOf, fieldOf_skip, byteAt_skip, byteAt_cons, byteAt_zero]

/-! ## The filter, class by class (R25) -/

/-- A frame for this station or for all. -/
def isFor (own : Nat) (f : RackFrame) : Prop := f.dst.toNat = own ∨ f.dst.toNat = 15

theorem readFrame_elsewhere {own : Nat} {f : RackFrame} (h : ¬ isFor own f) : readFrame own f = .setAside :=
  if_pos (not_or.1 h)

theorem readFrame_wrongClass {own : Nat} {f : RackFrame}
    (hcls : f.cls.toNat = 6 ∨ f.cls.toNat = 7 ∨ f.cls.toNat = 9 ∨ 11 ≤ f.cls.toNat) :
    readFrame own f = .setAside := by
  unfold readFrame
  split
  · rfl
  · split
    case h_9 => rfl
    all_goals omega

theorem readFrame_wrongSource {own : Nat} {f : RackFrame}
    (hsrc : ((f.cls.toNat = 0 ∨ f.cls.toNat = 8) ∧ f.src.toNat ≠ 10) ∨ (f.cls.toNat = 1 ∧ f.src.toNat ≠ 9) ∨
      (f.cls.toNat = 10 ∧ f.src.toNat ≠ 11) ∨ (2 ≤ f.cls.toNat ∧ f.cls.toNat ≤ 5 ∧ isCollector f.src.toNat = false)) :
    readFrame own f = .setAside := by
  rcases hsrc with ⟨hcls | hcls, hsrc⟩ | ⟨hcls, hsrc⟩ | ⟨hcls, hsrc⟩ | ⟨hlow, hhigh, hsrc⟩
  case inr.inr.inr =>
    obtain hcls | hcls | hcls | hcls : f.cls.toNat = 2 ∨ f.cls.toNat = 3 ∨ f.cls.toNat = 4 ∨ f.cls.toNat = 5 := by omega
    all_goals simp [readFrame, hcls, hsrc]
  all_goals simp [readFrame, hcls, hsrc, Config.consoleSlot, Config.navigationSlot, Config.dockSlot]

section
variable {own : Nat} {f : RackFrame} (here : isFor own f)
include here

theorem notElsewhere : ¬ (f.dst.toNat ≠ own ∧ f.dst.toNat ≠ Config.allStations) := not_and_or.2 (by
  rcases here with h | h
  · exact .inl (not_not.2 h)
  · exact .inr (not_not.2 h))

theorem readFrame_run (hcls : f.cls.toNat = 0) (hsrc : f.src.toNat = 10) (hlen : f.payload.length = 5) :
    readFrame own f =
      if (byteAt f.payload 0).toNat = 1 then
        .delivered (.runOpen (BitVec.ofNat 16 (fieldOf f.payload 1 2)) (BitVec.ofNat 16 (fieldOf f.payload 3 2)))
      else if (byteAt f.payload 0).toNat = 2 then
        .delivered (.runClose (BitVec.ofNat 16 (fieldOf f.payload 1 2)) (BitVec.ofNat 16 (fieldOf f.payload 3 2)))
      else .runReject := by
  simp only [readFrame, if_neg (notElsewhere here), hcls, hsrc, Config.consoleSlot, hlen, ne_eq, not_true, if_false]
  split
  · next h => rw [if_pos h]
  · next h => rw [if_neg (show ¬ (byteAt f.payload 0).toNat = 1 by omega), if_pos h]
  · next h1 h2 => rw [if_neg h1, if_neg h2]

theorem readFrame_position (hcls : f.cls.toNat = 1) (hsrc : f.src.toNat = 9) (hlen : f.payload.length = 3) :
    readFrame own f = .delivered (.position (byteAt f.payload 0) (BitVec.ofNat 16 (fieldOf f.payload 1 2))) := by
  simp [readFrame, if_neg (notElsewhere here), hcls, hsrc, Config.navigationSlot, hlen]

theorem readFrame_query (hcls : f.cls.toNat = 8) (hsrc : f.src.toNat = 10) (hlen : f.payload.length = 1 ∨ f.payload.length = 3) :
    readFrame own f =
      if (byteAt f.payload 0).toNat = 1 then
        (if f.payload.length = 3 then .delivered (.listRevisit (BitVec.ofNat 16 (fieldOf f.payload 1 2))) else .formatError)
      else if (byteAt f.payload 0).toNat = 2 then
        (if f.payload.length = 1 then .delivered .queryClearConditions else .formatError)
      else .setAside := by
  have hn : ¬ (f.payload.length ≠ 1 ∧ f.payload.length ≠ 3) := by omega
  simp only [readFrame, if_neg (notElsewhere here), hcls, hsrc, Config.consoleSlot, if_neg hn, ne_eq, not_true, if_false]
  split
  · next h => rw [if_pos h]
  · next h => rw [if_neg (show ¬ (byteAt f.payload 0).toNat = 1 by omega), if_pos h]
  · next h1 h2 => rw [if_neg h1, if_neg h2]

theorem readFrame_dock (hcls : f.cls.toNat = 10) (hsrc : f.src.toNat = 11) (hlen : f.payload.length ≠ 0) :
    readFrame own f = match dockCommandOf f.payload with
      | some c => .delivered c
      | none => .dockReject := by
  simp only [readFrame, if_neg (notElsewhere here), hcls, hsrc, Config.dockSlot, if_neg hlen, ne_eq, not_true, if_false] <;> rfl

theorem readFrame_wrongLength_peer (hsrc : isCollector f.src.toNat = true)
    (hlen : (f.cls.toNat = 2 ∧ f.payload.length ≠ 14) ∨ (f.cls.toNat = 3 ∧ f.payload.length ≠ 6) ∨
      (f.cls.toNat = 4 ∧ f.payload.length ≠ 13) ∨ (f.cls.toNat = 5 ∧ f.payload.length ≠ 15)) : readFrame own f = .formatError := by
  rcases hlen with ⟨hcls, hlen⟩ | ⟨hcls, hlen⟩ | ⟨hcls, hlen⟩ | ⟨hcls, hlen⟩
  all_goals simp [readFrame, if_neg (notElsewhere here), hcls, hsrc, hlen]

theorem readFrame_wrongLength_fixed
    (hlen : (f.cls.toNat = 0 ∧ f.src.toNat = 10 ∧ f.payload.length ≠ 5) ∨ (f.cls.toNat = 1 ∧ f.src.toNat = 9 ∧ f.payload.length ≠ 3) ∨
      (f.cls.toNat = 10 ∧ f.src.toNat = 11 ∧ f.payload.length = 0)) : readFrame own f = .formatError := by
  rcases hlen with ⟨hcls, hsrc, hlen⟩ | ⟨hcls, hsrc, hlen⟩ | ⟨hcls, hsrc, hlen⟩
  all_goals simp [readFrame, if_neg (notElsewhere here), hcls, hsrc, hlen, Config.consoleSlot, Config.navigationSlot, Config.dockSlot]

theorem readFrame_wrongLength_query (hcls : f.cls.toNat = 8) (hsrc : f.src.toNat = 10) (h1 : f.payload.length ≠ 1)
    (h3 : f.payload.length ≠ 3) : readFrame own f = .formatError := by
  simp [readFrame, if_neg (notElsewhere here), hcls, hsrc, h1, h3, Config.consoleSlot]

end

/-! ## Heads of payloads -/

theorem byteAt_zero_of_head {bs : List Byte} {b : Byte} (h : bs.head? = some b) : byteAt bs 0 = b := by
  cases bs with
  | nil => nomatch h
  | cons c bs => exact Option.some.inj h

theorem byteAt_zero_ne {bs : List Byte} {b : Byte} {k : Nat} (h : bs.head? ≠ some b) (hlen : 0 < bs.length) (hk : b.toNat = k) :
    (byteAt bs 0).toNat ≠ k := by
  cases bs with
  | nil => nomatch hlen
  | cons c bs => exact fun hb => h (congrArg some (BitVec.eq_of_toNat_eq (hb.trans hk.symm)))

theorem byteAt_zero_eq_getD {bs : List Byte} (hlen : 0 < bs.length) : byteAt bs 0 = bs.getD 0 0 := by
  cases bs with
  | nil => nomatch hlen
  | cons c bs => rfl

/-- No command has this operation, or not with this length (R174). -/
theorem dockCommandOf_none {bs : List Byte}
    (h : let op := (byteAt bs 0).toNat
      let n := bs.length
      ((op = 1 ∨ op = 2) ∧ n ≠ 5) ∨ ((op = 3 ∨ op = 4 ∨ op = 5 ∨ op = 8 ∨ op = 10 ∨ op = 11) ∧ n ≠ 1) ∨ (op = 6 ∧ n ≠ 9) ∨
        (op = 7 ∧ n ≠ 35) ∨ (op = 9 ∧ (n < 3 ∨ 18 < n)) ∨ op = 0 ∨ 11 < op) : dockCommandOf bs = none := by
  dsimp only at h
  unfold dockCommandOf
  split
  case h_9 => exact if_neg (by omega)
  case h_12 => rfl
  all_goals omega

/-! ## The frames delivered -/

section
variable {own : Nat} {src dst : BitVec 4} (here : dst.toNat = own ∨ dst.toNat = 15)
include here

theorem readFrame_peer (hsrc : isCollector src.toNat = true) :
    (∀ p, readFrame own ⟨2, src, dst, presenceBytes p⟩ = .delivered (.presence src p)) ∧
    (∀ m c, readFrame own ⟨3, src, dst, heldBytes m c⟩ = .delivered (.held src m c)) ∧
    (∀ p, readFrame own ⟨4, src, dst, handoverBytes p⟩ = .delivered (.handover src p)) ∧
    (∀ p, readFrame own ⟨5, src, dst, relayBytes p⟩ = .delivered (.relay src p)) := by
  have hhere (c : BitVec 4) (bs : List Byte) := notElsewhere (own := own) (f := ⟨c, src, dst, bs⟩) here
  refine ⟨fun p => ?_, fun m c => ?_, fun p => ?_, fun p => ?_⟩
  · simp [readFrame, if_neg (hhere _ _), hsrc, presenceOf_presenceBytes]
  · simp [readFrame, if_neg (hhere _ _), hsrc, heldBytes, fieldOf_bytesOf, fieldOf_skip, fieldOf_bytesOf_end]
  · simp [readFrame, if_neg (hhere _ _), hsrc, handoverOf_handoverBytes]
  · simp [readFrame, if_neg (hhere _ _), hsrc, relayOf_relayBytes]

/-- A dock frame that carries a command is that command. -/
theorem readFrame_dock_of {bs : List Byte} {c : Instr} (hlen : bs.length ≠ 0) (h : dockCommandOf bs = some c) :
    readFrame own ⟨10, 11, dst, bs⟩ = .delivered c := by
  rw [readFrame_dock (f := ⟨10, 11, dst, bs⟩) here rfl rfl hlen, h]

theorem readFrame_runOpen (run day : BitVec 16) :
    readFrame own ⟨0, 10, dst, [1] ++ bytesOf 2 run.toNat ++ bytesOf 2 day.toNat⟩ = .delivered (.runOpen run day) := by
  rw [readFrame_run (f := ⟨0, 10, dst, _⟩) here rfl rfl (by simp)]
  simp [fieldOf_bytesOf, fieldOf_bytesOf_end, fieldOf_skip, fieldOf_cons, byteAt_zero]

theorem readFrame_runClose (run day : BitVec 16) :
    readFrame own ⟨0, 10, dst, [2] ++ bytesOf 2 run.toNat ++ bytesOf 2 day.toNat⟩ = .delivered (.runClose run day) := by
  rw [readFrame_run (f := ⟨0, 10, dst, _⟩) here rfl rfl (by simp)]
  simp [fieldOf_bytesOf, fieldOf_bytesOf_end, fieldOf_skip, fieldOf_cons, byteAt_zero]

theorem readFrame_listRevisit (start : BitVec 16) :
    readFrame own ⟨8, 10, dst, [1] ++ bytesOf 2 start.toNat⟩ = .delivered (.listRevisit start) := by
  rw [readFrame_query (f := ⟨8, 10, dst, _⟩) here rfl rfl (by simp)]
  simp [fieldOf_bytesOf_end, fieldOf_cons, byteAt_zero]

theorem readFrame_queryClear : readFrame own ⟨8, 10, dst, [2]⟩ = .delivered .queryClearConditions :=
  readFrame_query (f := ⟨8, 10, dst, [2]⟩) here rfl rfl (.inl rfl)

theorem readFrame_positionBytes (v : Byte) (n : BitVec 16) :
    readFrame own ⟨1, 9, dst, [v] ++ bytesOf 2 n.toNat⟩ = .delivered (.position v n) := by
  rw [readFrame_position (f := ⟨1, 9, dst, _⟩) here rfl rfl (by simp)]
  simp [fieldOf_bytesOf_end, fieldOf_cons, byteAt_zero]

end

/-! ## The commands of the dock (R174) -/

theorem dockCommandOf_upload (n : BitVec 32) :
    dockCommandOf ([1] ++ bytesOf 4 n.toNat) = some (.uploadOpen n) ∧ dockCommandOf ([2] ++ bytesOf 4 n.toNat) = some (.uploadMark n) := by
  constructor <;> simp [dockCommandOf, fieldOf_bytesOf_end, fieldOf_cons, byteAt_zero]

theorem dockCommandOf_planBegin (n : BitVec 32) (a b : BitVec 16) :
    dockCommandOf ([6] ++ bytesOf 4 n.toNat ++ bytesOf 2 a.toNat ++ bytesOf 2 b.toNat) = some (.planBegin n a b) := by
  simp [dockCommandOf, List.append_assoc, fieldOf_bytesOf, fieldOf_bytesOf_end, fieldOf_skip, fieldOf_cons, byteAt_zero]

theorem dockCommandOf_planData (a : BitVec 16) {bs : List Byte} (h : bs.length = 32) :
    dockCommandOf ([7] ++ bytesOf 2 a.toNat ++ bs) = some (.planData a bs) := by
  have hdrop : (bytesOf 2 a.toNat ++ bs).drop 2 = bs := List.drop_left' (bytesOf_length _ _)
  simp [dockCommandOf, fieldOf_bytesOf, fieldOf_cons, byteAt_zero, h, hdrop]

theorem dockCommandOf_settingWrite (a : Byte) {bs : List Byte} (h1 : 1 ≤ bs.length) (h16 : bs.length ≤ 16) :
    dockCommandOf ([9, a] ++ bs) = some (.settingWrite a bs) := by
  have hlen : 3 ≤ ([9, a] ++ bs).length ∧ ([9, a] ++ bs).length ≤ 18 := by simp; omega
  exact if_pos hlen

/-- Settles O14: each class has its length and its source, and each payload is taken apart where it was put together. -/
theorem filterReadsFrames : Obligations.FilterReadsFrames := by
  refine ⟨fun own src dst here => ⟨readFrame_peer here, fun run day => ⟨readFrame_runOpen here run day, readFrame_runClose here run day,
      readFrame_listRevisit here run⟩, readFrame_queryClear here, readFrame_positionBytes here, fun n => ?_, fun n a b => ?_,
      fun a bs h => ?_, fun a bs h1 h16 => ?_, ?_, ?_, ?_, ?_, ?_, ?_⟩, fun own f => ?_⟩
  · exact ⟨readFrame_dock_of here (by simp) (dockCommandOf_upload n).1, readFrame_dock_of here (by simp) (dockCommandOf_upload n).2⟩
  · exact readFrame_dock_of here (by simp) (dockCommandOf_planBegin n a b)
  · exact readFrame_dock_of here (by simp) (dockCommandOf_planData a h)
  · exact readFrame_dock_of here (by simp) (dockCommandOf_settingWrite a h1 h16)
  iterate 6 exact readFrame_dock_of here (by simp) rfl
  refine ⟨readFrame_elsewhere, readFrame_wrongClass, fun h => readFrame_wrongSource (.inl h),
    fun h => readFrame_wrongSource (.inr (.inl h)), fun h => readFrame_wrongSource (.inr (.inr (.inl h))),
    fun h => readFrame_wrongSource (.inr (.inr (.inr h))), fun here hc hs hn => readFrame_wrongLength_fixed here (.inl ⟨hc, hs, hn⟩),
    fun here hc hs hn h1 h2 => ?_, fun here hc hs hn => readFrame_wrongLength_fixed here (.inr (.inl ⟨hc, hs, hn⟩)),
    readFrame_wrongLength_peer, fun here hc hs hop hn => ?_, fun here hc hs hop hn => ?_, readFrame_wrongLength_query,
    fun here hc hs hn h1 h2 => ?_, fun here hc hs hn => readFrame_wrongLength_fixed here (.inr (.inr ⟨hc, hs, hn⟩)),
    fun here hc hs hn => ?_⟩
  · rw [readFrame_run here hc hs hn, if_neg (byteAt_zero_ne (k := 1) h1 (by omega) rfl), if_neg (byteAt_zero_ne (k := 2) h2 (by omega) rfl)]
  · by_cases h1 : f.payload.length = 1
    · rw [readFrame_query here hc hs (.inl h1), byteAt_zero_of_head hop, if_pos (by decide), if_neg hn]
    · exact readFrame_wrongLength_query here hc hs h1 hn
  · by_cases h3 : f.payload.length = 3
    · rw [readFrame_query here hc hs (.inr h3), byteAt_zero_of_head hop, if_neg (by decide), if_pos (by decide), if_neg hn]
    · exact readFrame_wrongLength_query here hc hs hn h3
  · rw [readFrame_query here hc hs hn, if_neg (byteAt_zero_ne (k := 1) h1 (by omega) rfl), if_neg (byteAt_zero_ne (k := 2) h2 (by omega) rfl)]
  · intro op hop
    rw [readFrame_dock here hc hs (by omega), dockCommandOf_none]
    rw [byteAt_zero_eq_getD hn]
    exact hop

end Sys2Proof.Machine
end

section
/-!
PROOF. The wire (R17 to R21): a stuffed region holds no run of seven, its receiver takes the stuff bits out again, and finds in what a sender
drives the fields it was made of, with a good CRC.
-/

namespace Sys2Proof.Machine

/-! ## Bit stuffing (R19) -/

/-- After a run of `n` bits `prev`, no run in the bits that follow is longer than six. -/
def RunsWithin (prev : Bool) (n : Nat) : List Bool → Prop
  | [] => n ≤ 6
  | b :: bs => n ≤ 6 ∧ RunsWithin b (if b = prev then n + 1 else 1) bs

theorem RunsWithin.le_six {prev : Bool} {n : Nat} {bs : List Bool} (h : RunsWithin prev n bs) : n ≤ 6 := by
  cases bs with
  | nil => exact h
  | cons b bs => exact h.1

theorem RunsWithin.replicate {b : Bool} {n k : Nat} {after : List Bool} (h : RunsWithin b n (List.replicate k b ++ after)) :
    n + k ≤ 6 := by
  induction k generalizing n with
  | zero => exact h.le_six
  | succ k ih =>
    obtain ⟨_, hrest⟩ := h
    rw [if_pos rfl] at hrest
    have := ih hrest
    omega

theorem RunsWithin.no_seven {prev b : Bool} {n : Nat} {before after : List Bool}
    (h : RunsWithin prev n (before ++ List.replicate 7 b ++ after)) : False := by
  induction before generalizing prev n with
  | nil =>
    obtain ⟨_, hrest⟩ := h
    have := RunsWithin.replicate (k := 6) hrest
    have : 1 ≤ if b = prev then n + 1 else 1 := by split <;> omega
    omega
  | cons c before ih => exact ih h.2

theorem stuffAfter_runsWithin (bs : List Bool) {prev : Bool} {n : Nat} (hn : n ≤ 6) : RunsWithin prev n (stuffAfter prev n bs) := by
  induction bs generalizing prev n with
  | nil =>
    unfold stuffAfter
    split
    · exact ⟨hn, by simp [RunsWithin]⟩
    · exact hn
  | cons b bs ih =>
    unfold stuffAfter
    split
    · refine ⟨hn, ?_, ?_⟩
      · simp
      · have hrun : (if b = !prev then (if (!prev) = prev then n + 1 else 1) + 1 else 1) = if b = !prev then 2 else 1 := by simp
        rw [hrun]
        exact ih (by split <;> omega)
    · exact ⟨hn, ih (by split <;> omega)⟩

theorem stuffed_no_seven (bits : List Bool) (b : Bool) : ¬ List.replicate 7 b <:+: stuffed bits := by
  rintro ⟨before, after, h⟩
  cases bits with
  | nil =>
    have := congrArg List.length h
    simp [stuffed] at this
  | cons c bits =>
    have hruns : RunsWithin (!c) 0 (stuffed (c :: bits)) := by
      refine ⟨by omega, ?_⟩
      rw [if_neg (by simp)]
      exact stuffAfter_runsWithin bits (by omega)
    rw [← h] at hruns
    exact hruns.no_seven

theorem stuffAfter_length (bs : List Bool) {prev : Bool} {n : Nat} (h1 : 1 ≤ n) (h6 : n ≤ 6) :
    (stuffAfter prev n bs).length ≤ bs.length + (bs.length + n - 1) / 5 := by
  induction bs generalizing prev n with
  | nil =>
    unfold stuffAfter
    split
    · next h => simp [h]
    · simp
  | cons b bs ih =>
    unfold stuffAfter
    split
    · have hrun : 1 ≤ (if b = !prev then 2 else 1) ∧ (if b = !prev then 2 else 1) ≤ 2 := by split <;> omega
      have := ih (prev := b) hrun.1 (by omega)
      simp only [List.length_cons]
      omega
    · have hrun : 1 ≤ (if b = prev then n + 1 else 1) ∧ (if b = prev then n + 1 else 1) ≤ n + 1 := by split <;> omega
      have := ih (prev := b) hrun.1 (by omega)
      simp only [List.length_cons]
      omega

theorem unstuffAfter_stuffAfter (bs : List Bool) {prev : Bool} {n : Nat} (hn : n ≤ 6) : unstuffAfter prev n (stuffAfter prev n bs) = bs := by
  induction bs generalizing prev n with
  | nil =>
    unfold stuffAfter
    split
    · next h => simp [unstuffAfter, h]
    · rfl
  | cons b bs ih =>
    unfold stuffAfter
    split
    · next h =>
      rw [unstuffAfter, if_pos h, unstuffAfter, if_neg (by omega), ih (by split <;> omega)]
    · next h => rw [unstuffAfter, if_neg h, ih (by split <;> omega)]

/-- Settles O13: no run passes six, each five further bits bring at most one stuff bit, and the receiver drops what was put in. -/
theorem stuffingBreaksRuns : Obligations.StuffingBreaksRuns := by
  refine ⟨stuffed_no_seven, fun bits h => ?_, fun bits => ?_⟩
  · cases bits with
    | nil => nomatch h
    | cons b bits =>
      have := stuffAfter_length bits (prev := b) (n := 1) le_rfl (by omega)
      simp only [stuffed, List.length_cons] at h ⊢
      omega
  · cases bits with
    | nil => rfl
    | cons b bits => rw [stuffed, unstuffed, unstuffAfter_stuffAfter bits (by omega)]

/-! ## Fields in bits (R17) -/

@[simp] theorem bitsOf_length (n v : Nat) : (bitsOf n v).length = n := by simp [bitsOf]

theorem bitsNumber_append_singleton (bs : List Bool) (b : Bool) : bitsNumber (bs ++ [b]) = bitsNumber bs * 2 + b.toNat := by
  simp [bitsNumber]

theorem bitsOf_succ (n v : Nat) : bitsOf (n + 1) v = bitsOf n (v / 2) ++ [v.testBit 0] := by
  rw [bitsOf, List.range_succ, List.map_append, bitsOf]
  congr 1
  · refine List.map_congr_left fun i hi => ?_
    have := List.mem_range.1 hi
    rw [show n + 1 - 1 - i = (n - 1 - i) + 1 by omega, Nat.testBit_succ]
  · simp

theorem bitsNumber_bitsOf (n v : Nat) : bitsNumber (bitsOf n v) = v % 2 ^ n := by
  induction n generalizing v with
  | zero => simp [bitsOf, bitsNumber, Nat.mod_one]
  | succ n ih =>
    have hbit : (v.testBit 0).toNat = v % 2 := by
      rw [Nat.testBit_zero]
      rcases Nat.mod_two_eq_zero_or_one v with h | h <;> simp [h]
    rw [bitsOf_succ, bitsNumber_append_singleton, ih, hbit, Nat.pow_succ', Nat.mod_mul]
    omega

theorem bitsNumber_bitVec {w : Nat} (v : BitVec w) : bitsNumber (bitsOf w v.toNat) = v.toNat := by
  rw [bitsNumber_bitsOf, Nat.mod_eq_of_lt v.isLt]

/-- The bits of the fields before the payload, start bit first (R17). -/
def headBits (f : RackFrame) : List Bool :=
  false :: (bitsOf 4 f.cls.toNat ++ bitsOf 4 f.src.toNat ++ bitsOf 4 f.dst.toNat ++ bitsOf 6 f.payload.length)

/-- The bits of a payload (R17). -/
def payloadBits (bs : List Byte) : List Bool := bs.flatMap fun b => bitsOf 8 b.toNat

theorem frameBits_eq (f : RackFrame) : frameBits f = headBits f ++ (payloadBits f.payload ++ bitsOf 16 (frameCrc f).toNat) := by
  simp [frameBits, headBits, payloadBits, List.append_assoc]

@[simp] theorem headBits_length (f : RackFrame) : (headBits f).length = 19 := by simp [headBits]

@[simp] theorem payloadBits_length (bs : List Byte) : (payloadBits bs).length = 8 * bs.length := by
  induction bs with
  | nil => rfl
  | cons b bs ih =>
    rw [payloadBits, List.flatMap_cons, List.length_append, bitsOf_length]
    simp only [payloadBits] at ih
    simp only [ih, List.length_cons]
    omega

@[simp] theorem frameBits_length (f : RackFrame) : (frameBits f).length = 35 + 8 * f.payload.length := by
  simp [frameBits_eq]
  omega

theorem payloadBits_field {bs : List Byte} {i : Nat} (hi : i < bs.length) (after : List Bool) :
    ((payloadBits bs ++ after).drop (8 * i)).take 8 = bitsOf 8 bs[i].toNat := by
  have hsplit : payloadBits bs ++ after = payloadBits (bs.take i) ++ (bitsOf 8 bs[i].toNat ++ (payloadBits (bs.drop (i + 1)) ++ after)) := by
    conv_lhs => rw [← List.take_append_drop i bs, List.drop_eq_getElem_cons hi]
    simp only [payloadBits, List.flatMap_append, List.flatMap_cons, List.append_assoc]
  have hlen : (payloadBits (bs.take i)).length = 8 * i := by
    rw [payloadBits_length, List.length_take_of_le (by omega)]
  rw [hsplit, List.drop_left' hlen, List.take_left' (bitsOf_length _ _)]

/-- The bits taken up to any bit past the header show the length field of the frame (R17). -/
theorem lengthField_headBits (f : RackFrame) (after : List Bool) (h : f.payload.length ≤ 48) :
    lengthField (headBits f ++ after) = f.payload.length := by
  have hfield : ((headBits f ++ after).drop 13).take 6 = bitsOf 6 f.payload.length := by
    simp [headBits, List.drop_append, List.drop_eq_nil_of_le]
  rw [lengthField, hfield, bitsNumber_bitsOf]
  omega

theorem takenCrcGood_frameBits (f : RackFrame) (h : f.payload.length ≤ 48) : takenCrcGood (frameBits f) = true := by
  have hlen : lengthField (frameBits f) = f.payload.length := by rw [frameBits_eq, lengthField_headBits f _ h]
  have hcls : ((frameBits f).drop 1).take 4 = bitsOf 4 f.cls.toNat := by
    simp [frameBits_eq, headBits]
  have hsrc : ((frameBits f).drop 5).take 4 = bitsOf 4 f.src.toNat := by
    simp [frameBits_eq, headBits]
  have hdst : ((frameBits f).drop 9).take 4 = bitsOf 4 f.dst.toNat := by
    simp [frameBits_eq, headBits, List.drop_append, List.take_append]
  have hcrc : ((frameBits f).drop (19 + 8 * f.payload.length)).take 16 = bitsOf 16 (frameCrc f).toNat := by
    rw [frameBits_eq, ← List.append_assoc, List.drop_left' (by simp), List.take_of_length_le (by simp)]
  have hpayload : ((List.range f.payload.length).map fun i => BitVec.ofNat 8 (bitsNumber (((frameBits f).drop (19 + 8 * i)).take 8))) =
      f.payload := by
    refine List.ext_getElem (by simp) fun i _ hi => ?_
    rw [List.getElem_map, List.getElem_range, frameBits_eq, ← List.drop_drop, List.drop_left' (headBits_length f),
      payloadBits_field hi, bitsNumber_bitVec, BitVec.ofNat_toNat, BitVec.setWidth_eq]
  simp only [takenCrcGood, hlen, hcls, hsrc, hdst, hcrc, hpayload, bitsNumber_bitVec, BitVec.ofNat_toNat, BitVec.setWidth_eq, beq_self_eq_true]

/-! ## The receiver's judgement (R20, R21) -/

/-- After its last bit a frame is judged by its CRC, the stuff bit after it taken out (R21). -/
theorem judge_end (good : Bool) (b : Bool) (n : Nat) (rest : List Bool) :
    (if n = 6 then
        match stuffAfter b n [] ++ rest with
        | [] => judgeTail good []
        | c :: rest' => if c = b then (if good then .stuffViolation else .crcFailure false) else judgeTail good rest'
      else judgeTail good (stuffAfter b n [] ++ rest)) = judgeTail good rest := by
  by_cases h : n = 6 <;> simp [stuffAfter, h]

/-- One bit taken that is no stuff bit and not the last (R20). -/
theorem judgeFrom_take {taken : List Bool} {prev b : Bool} {run : Nat} {rest : List Bool} (hrun : run ≠ 6)
    (hlong : ¬ ((taken ++ [b]).length = 19 ∧ 48 < lengthField (taken ++ [b])))
    (hend : ¬ (19 ≤ (taken ++ [b]).length ∧ (taken ++ [b]).length = 35 + 8 * lengthField (taken ++ [b]))) :
    judgeFrom taken prev run (b :: rest) = judgeFrom (taken ++ [b]) b (if b = prev then run + 1 else 1) rest := by
  rw [judgeFrom, if_neg hrun]
  simp only [if_neg hlong, if_neg hend]

/-- The last bit taken (R21). -/
theorem judgeFrom_last {taken : List Bool} {prev b : Bool} {run : Nat} {rest : List Bool} (hrun : run ≠ 6)
    (hlong : ¬ ((taken ++ [b]).length = 19 ∧ 48 < lengthField (taken ++ [b])))
    (hend : 19 ≤ (taken ++ [b]).length ∧ (taken ++ [b]).length = 35 + 8 * lengthField (taken ++ [b])) :
    judgeFrom taken prev run (b :: (stuffAfter b (if b = prev then run + 1 else 1) [] ++ rest)) =
      judgeTail (takenCrcGood (taken ++ [b])) rest := by
  rw [judgeFrom, if_neg hrun]
  simp only [if_neg hlong, if_pos hend]
  exact judge_end _ _ _ _

theorem lengthField_taken {f : RackFrame} (h : f.payload.length ≤ 48) {taken bits : List Bool} (htaken : taken ++ bits = frameBits f)
    (hlen : 19 ≤ taken.length) : lengthField taken = f.payload.length := by
  rw [frameBits_eq] at htaken
  obtain ⟨after, rfl⟩ : headBits f <+: taken :=
    List.prefix_of_prefix_length_le ⟨_, rfl⟩ ⟨bits, htaken⟩ (by simpa using hlen)
  exact lengthField_headBits f after h

/-- The receiver takes the stuffed bits of a frame up to the last and finds its CRC good. -/
theorem judgeFrom_stuffAfter {f : RackFrame} (h : f.payload.length ≤ 48) (rest : List Bool) {bits taken : List Bool} {prev : Bool} {run : Nat}
    (hne : bits ≠ []) (htaken : taken ++ bits = frameBits f) (hrun : run ≤ 6) :
    judgeFrom taken prev run (stuffAfter prev run bits ++ rest) = judgeTail true rest := by
  induction bits generalizing taken prev run with
  | nil => exact absurd rfl hne
  | cons b bits ih =>
    have htaken' : (taken ++ [b]) ++ bits = frameBits f := by rw [← htaken, List.append_assoc]; rfl
    have hall : (taken ++ [b]).length + bits.length = 35 + 8 * f.payload.length := by
      rw [← List.length_append, htaken', frameBits_length]
    have hfield := lengthField_taken h htaken'
    have hlong : ¬ ((taken ++ [b]).length = 19 ∧ 48 < lengthField (taken ++ [b])) := by
      rintro ⟨h19, h48⟩
      rw [hfield h19.ge] at h48
      omega
    have hstep {prev : Bool} {run : Nat} (hrun : run < 6) :
        judgeFrom taken prev run (b :: (stuffAfter b (if b = prev then run + 1 else 1) bits ++ rest)) = judgeTail true rest := by
      by_cases hbits : bits = []
      · subst hbits
        have hend : 19 ≤ (taken ++ [b]).length ∧ (taken ++ [b]).length = 35 + 8 * lengthField (taken ++ [b]) := by
          have h19 : 19 ≤ (taken ++ [b]).length := by simp only [List.length_nil] at hall; omega
          rw [hfield h19]
          exact ⟨h19, hall⟩
        rw [judgeFrom_last hrun.ne hlong hend, ← List.append_nil (taken ++ [b]), htaken', takenCrcGood_frameBits f h]
      · have hend : ¬ (19 ≤ (taken ++ [b]).length ∧ (taken ++ [b]).length = 35 + 8 * lengthField (taken ++ [b])) := by
          rintro ⟨h19, hlast⟩
          rw [hfield h19] at hlast
          have := List.length_pos_iff.2 hbits
          omega
        rw [judgeFrom_take hrun.ne hlong hend]
        exact ih hbits htaken' (by split <;> omega)
    by_cases h6 : run = 6
    · rw [stuffAfter, if_pos h6, List.cons_append, judgeFrom, if_pos h6, if_neg (by simp), List.cons_append]
      exact hstep (run := 1) (by omega)
    · rw [stuffAfter, if_neg h6, List.cons_append]
      exact hstep (by omega)

/-- Settles O12: bit by bit, the receiver takes what the sender stuffed. -/
theorem wireFrameJudgedValid : Obligations.WireFrameJudgedValid := by
  intro f h
  obtain ⟨bits, hbits⟩ : ∃ bits, frameBits f = false :: bits := ⟨_, rfl⟩
  have hne : bits ≠ [] := by
    rintro rfl
    have := frameBits_length f
    rw [hbits] at this
    simp at this
    omega
  have hjudge := judgeFrom_stuffAfter h (List.replicate 7 true ++ recessiveTail) (taken := [false]) (prev := false) (run := 1) hne
    hbits.symm (by omega)
  rw [wireBits, hbits, stuffed, List.cons_append, judgeBits, List.append_assoc, hjudge]
  rfl

end Sys2Proof.Machine
end

section
/-!
PROOF. The step and the end of a command: what follows where nothing waits for the engine's choice (log 12), and what PRESENCE carries (R39).
-/

namespace Sys2Proof.Machine

/-! ## One step (log 1) -/

/-- Settles O16: by the two cases of the queue. -/
theorem stepRunsFront : Obligations.StepRunsFront := by
  refine ⟨fun c rest s h => ?_, fun s h hp he => ?_, fun s e h hp he => ?_, fun s h hp => ?_⟩
  · rw [step, h]
  all_goals simp only [step, h, tick, hp, if_true]
  · simp only [he, Option.map_none]
    rw [← he]
  · simp only [he, Option.map_some, Option.isNone_iff_eq_none]
  · rfl

/-! ## The end of a command where nothing waits for the engine -/

/-- A state without what the erase list's service, the plan write queue, the arbiter and the report of a full store change. -/
def State.apartService (s : State) : State :=
  { s with
    store.rows := []
    store.eraseList := []
    store.progs := []
    store.marks := []
    store.planErase := none
    store.serving := none
    store.erase := none
    dock.load.queue := []
    startup.conds.storeFull := false }

/-- Of a state only what is served at the end of a command has changed, what is being served goes on, and STORE_FULL stays set. -/
structure Serves (s t : State) : Prop where
  apart : t.apartService = s.apartService
  serving : s.store.serving.isSome = true → t.store.serving = s.store.serving
  full : s.startup.conds.storeFull = true → t.startup.conds.storeFull = true

theorem Serves.refl (s : State) : Serves s s := ⟨rfl, fun _ => rfl, id⟩

theorem Serves.trans {s t u : State} (h : Serves s t) (h' : Serves t u) : Serves s u :=
  ⟨h'.apart.trans h.apart, fun hs => (h'.serving (h.serving hs ▸ hs)).trans (h.serving hs), fun hf => h'.full (h.full hf)⟩

theorem requestMark_serves (s : State) (st : Store) (m : MarkReq) (h : Serves s { s with store := st }) :
    Serves s { s with store := st.requestMark m } := by
  unfold Store.requestMark
  split
  · exact h
  · exact ⟨h.apart, h.serving, h.full⟩

theorem serviceEraseList_serves (s : State) : Serves s { s with store := s.store.serviceEraseList } := by
  unfold Store.serviceEraseList
  split
  · split
    · exact ⟨rfl, fun _ => rfl, id⟩
    · exact requestMark_serves s _ _ ⟨rfl, fun _ => rfl, id⟩
  · exact .refl s

theorem requestPlanRecord_serves (s : State) : Serves s (requestPlanRecord s) := by
  unfold requestPlanRecord
  split
  all_goals exact ⟨rfl, fun _ => rfl, id⟩

theorem serveProgram_serves (s : State) (p : ProgramReq) (h : s.store.serving.isSome = false) : Serves s (serveProgram s p) := by
  have hidle {x : Option Serving} : s.store.serving.isSome = true → x = s.store.serving := fun hs => absurd (h.symm.trans hs) Bool.false_ne_true
  unfold serveProgram
  cases p with
  | planRecord =>
    dsimp only
    unfold servePlanRecord
    split
    · exact ⟨rfl, hidle, id⟩
    · exact ⟨rfl, hidle, id⟩
  | _ => exact ⟨rfl, hidle, id⟩

theorem beginErase_serves (s : State) : Serves s { s with store := beginErase s.store } := by
  unfold beginErase
  split
  · exact .refl s
  · split
    all_goals exact ⟨rfl, fun _ => rfl, id⟩

theorem arbitrate_serves (s : State) : Serves s (arbitrate s) := by
  unfold arbitrate
  split
  · exact .refl s
  next h =>
  have hfree : s.store.serving.isSome = false := Bool.eq_false_of_not_eq_true h
  have hread (x : Serving) : Serves s { s with store.serving := some x } :=
    ⟨rfl, fun hs => absurd (hfree.symm.trans hs) Bool.false_ne_true, id⟩
  split
  · exact serveProgram_serves s _ hfree
  split
  · exact hread _
  split
  · exact hread _
  split
  · exact hread _
  split
  · exact ⟨rfl, fun hs => absurd (hfree.symm.trans hs) Bool.false_ne_true, id⟩
  · exact beginErase_serves s

theorem noteFull_serves (s : State) : Serves s s.noteFull := by
  unfold State.noteFull
  split
  · exact ⟨rfl, fun _ => rfl, fun _ => rfl⟩
  · exact .refl s

/-- Where the engine has no choice to make, the end of a command serves the flash, answers the query and offers a frame (log 12). -/
theorem settle_of_settled {s : State} (h : EngineSettled s) : ∃ u, Serves s u ∧ settle s = offer (cleanRetry (answerQuery u)) := by
  have hchoice : engineChoose (engineChoose s) = s := by rw [show engineChoose s = s from h, show engineChoose s = s from h]
  refine ⟨_, ?_, rfl⟩
  rw [hchoice]
  exact (serviceEraseList_serves s).trans ((requestPlanRecord_serves _).trans ((arbitrate_serves _).trans (noteFull_serves _)))

/-- What the offer and the retry's clearing change: the receiver's state, the frame on the bus and the retry item. -/
theorem offer_cleanRetry_frame (s : State) : ∃ rx sending retry,
    offer (cleanRetry s) = { s with rack := { s.rack with rx := rx, sending := sending, retry := retry } } ∧
      (s.rack.sending.isSome = true → rx = s.rack.rx ∧ sending = s.rack.sending) := by
  have hclean : ∃ retry, cleanRetry s = { s with rack := { s.rack with retry := retry } } := by
    unfold cleanRetry
    repeat' split
    · exact ⟨_, rfl⟩
    · exact ⟨_, rfl⟩
    · exact ⟨_, rfl⟩
  obtain ⟨retry, hretry⟩ := hclean
  rw [hretry]
  unfold offer
  split
  · next h =>
    have hfree : s.rack.sending.isSome = false := by
      simp only [Bool.and_eq_true] at h
      exact Option.isSome_eq_false_iff.2 h.2
    split
    · exact ⟨_, _, _, rfl, fun hs => absurd (hfree.symm.trans hs) Bool.false_ne_true⟩
    · exact ⟨_, _, _, rfl, fun _ => ⟨rfl, rfl⟩⟩
  · exact ⟨_, _, _, rfl, fun _ => ⟨rfl, rfl⟩⟩

theorem answerQuery_frame (s : State) : ∃ tracker tag, answerQuery s = { s with tracker := tracker, nextTag := tag } := by
  unfold answerQuery
  split
  · split
    · exact ⟨_, _, rfl⟩
    · unfold askRevisit
      split
      · exact ⟨_, _, rfl⟩
      · exact ⟨_, _, rfl⟩
  · exact ⟨_, _, rfl⟩

/-- No query waits, or the frame of a REVISIT reply is on the bus: nothing is answered (R152). -/
theorem answerQuery_quiet {s : State} (h : s.tracker.query = none ∨ ∃ x, s.rack.sending = some x ∧ x.frame.cls = 9) :
    answerQuery s = s := by
  unfold answerQuery
  rcases h with h | ⟨x, hx, hcls⟩
  · rw [h]
  · split
    · rw [if_pos (by simp [Rack.sendsRevisit, hx, hcls])]
    · rfl

/-- The query that waits is answered where no frame of a REVISIT reply is on the bus (R152). -/
theorem answerQuery_asks {s : State} {start : BitVec 16} (hq : s.tracker.query = some start)
    (h : ∀ x, s.rack.sending = some x → x.frame.cls ≠ 9) : answerQuery s = askRevisit start s := by
  have hsends : s.rack.sendsRevisit = false := by
    unfold Rack.sendsRevisit
    split
    · next x hx => exact beq_eq_false_iff_ne.2 (h x hx)
    · rfl
  simp only [answerQuery, hq, hsends, Bool.false_eq_true, if_false]

/-- Settles O27: stage by stage, each with what it may change. -/
theorem settlingFrame : Obligations.SettlingFrame := by
  intro s hsettled t
  obtain ⟨u, hserves, ht⟩ := settle_of_settled hsettled
  obtain ⟨tracker, tag, hanswer⟩ := answerQuery_frame u
  obtain ⟨rx, sending, retry, hoffer, hbus⟩ := offer_cleanRetry_frame (answerQuery u)
  rw [hoffer, hanswer] at ht
  have hapart {α : Type} (f : State → α) : f u.apartService = f s.apartService := congrArg f hserves.apart
  have hrack : u.rack = s.rack := hapart State.rack
  have htracker : u.tracker = s.tracker := hapart State.tracker
  have htag : u.nextTag = s.nextTag := hapart State.nextTag
  have hproj {α : Type} (f : State → α) := congrArg f ht
  have hstartup' : t.startup = u.startup := hproj State.startup
  have hdock' : t.dock = u.dock := hproj State.dock
  have hstore' : t.store = u.store := hproj State.store
  have hrack' : t.rack = { u.rack with rx := rx, sending := sending, retry := retry } := hproj State.rack
  have htracker' : t.tracker = tracker := hproj State.tracker
  have htag' : t.nextTag = tag := hproj State.nextTag
  have hradio : t.radio = s.radio := (hproj State.radio).trans (hapart State.radio)
  have hpresence : t.presence = s.presence := (hproj State.presence).trans (hapart State.presence)
  have hengine : t.engine = s.engine := (hproj State.engine).trans (hapart State.engine)
  have hrelay : t.relay = s.relay := (hproj State.relay).trans (hapart State.relay)
  have hindex : t.freeIndex = s.freeIndex := (hproj State.freeIndex).trans (hapart State.freeIndex)
  have hpending : t.pending = s.pending := (hproj State.pending).trans (hapart State.pending)
  have hanswered : t.tracker = (answerQuery u).tracker ∧ t.nextTag = (answerQuery u).nextTag := by
    rw [hanswer]
    exact ⟨htracker', htag'⟩
  have hservedStartup : { u.startup with conds := { u.startup.conds with storeFull := false } } =
      { s.startup with conds := { s.startup.conds with storeFull := false } } := hapart State.startup
  have hservedDock : { u.dock with load := { u.dock.load with queue := [] } } = { s.dock with load := { s.dock.load with queue := [] } } :=
    hapart State.dock
  have hservedStore : u.apartService.store = s.apartService.store := hapart State.store
  clear_value t
  clear hproj ht
  refine ⟨hradio, hpresence, hengine, hrelay, hindex, hpending,
    fun hquiet => ?_, fun start hquery hfree => ?_, ?_, fun hs => ?_, ?_, fun hf => ?_, ?_, ?_, fun hs => ?_⟩
  · rw [hanswered.1, hanswered.2, answerQuery_quiet (htracker.symm ▸ hrack.symm ▸ hquiet)]
    exact ⟨htracker, htag⟩
  · have hask : answerQuery u = askRevisit start u := answerQuery_asks (htracker.symm ▸ hquery) (hrack.symm ▸ hfree)
    rw [hanswered.1, hanswered.2, hask, ← htag, ← htracker]
    refine ⟨fun r hr => ?_, fun hr => ?_⟩
    · rw [askRevisit_of_pending start hr]
      exact ⟨rfl, rfl⟩
    · rw [askRevisit_of_none start hr]
      exact ⟨rfl, rfl⟩
  · rw [← hrack, hrack']
  · rw [← hrack] at hs ⊢
    rw [hrack']
    rw [hanswer] at hbus
    exact hbus hs
  · rw [hstartup']
    exact congrArg (fun x : Startup => { x with conds := { x.conds with storeFull := u.startup.conds.storeFull } }) hservedStartup
  · rw [hstartup']
    exact hserves.full hf
  · rw [hdock']
    exact congrArg (fun x : Dock => { x with load := { x.load with queue := u.dock.load.queue } }) hservedDock
  · rw [hstore']
    exact congrArg (fun x : Store => { x with
      rows := u.store.rows
      eraseList := u.store.eraseList
      progs := u.store.progs
      marks := u.store.marks
      planErase := u.store.planErase
      serving := u.store.serving
      erase := u.store.erase }) hservedStore
  · rw [hstore']
    exact hserves.serving hs

end Sys2Proof.Machine
end

section
/-!
PROOF. What a loss of power leaves in the memories (R154, R191), what PRESENCE carries (R39), the store's answer to an append (R160), and the
state after reset.
-/

namespace Sys2Proof.Machine

/-! ## Reads after an erase, a cut-off erase and a cut-off save (R154) -/

theorem Memory.read_erase (m : Memory) (a n b : Nat) :
    (m.erase a n).read b = if a ≤ b ∧ b < a + n then 0xFF else m.read b := by
  induction m with
  | nil => simp [Memory.erase, Memory.read]
  | cons c m ih =>
    obtain ⟨k, v⟩ := c
    unfold Memory.erase at ih ⊢
    by_cases hk : a ≤ k ∧ k < a + n
    · rw [List.filter_cons_of_neg (by simpa using hk), ih]
      split
      · rfl
      · next hb =>
        have : k ≠ b := fun h => hb (h ▸ hk)
        simp [Memory.read, this]
    · rw [List.filter_cons_of_pos (by simp only [Bool.not_and, Bool.or_eq_true, Bool.not_eq_true', decide_eq_false_iff_not]; omega), Memory.read, ih, Memory.read]
      split
      · next h => rw [if_neg (h ▸ hk)]
      · rfl

theorem Memory.read_tornErase (use : Nat) (m : Memory) {a n b : Nat} (hb : ¬ (a ≤ b ∧ b < a + n)) :
    (m.tornErase use a n).read b = m.read b := by
  induction m with
  | nil => rfl
  | cons c m ih =>
    obtain ⟨k, v⟩ := c
    unfold Memory.tornErase at ih ⊢
    rw [List.filterMap_cons]
    by_cases hk : a ≤ k ∧ k < a + n
    · have hkb : k ≠ b := fun h => hb (h ▸ hk)
      simp only [if_pos hk]
      split
      · next h => rw [ih, Memory.read, if_neg hkb]
      · next x h =>
        split at h
        · cases h
        · cases h
          rw [Memory.read, if_neg hkb, ih, Memory.read, if_neg hkb]
    · simp only [if_neg hk, Memory.read, ih]

theorem Memory.read_foldl_write {f : Nat → Byte} {a b : Nat} (is : List Nat) {m : Memory} (hm : m.wf = true) (hb : ∀ i ∈ is, a + i ≠ b) :
    (is.foldl (fun m i => m.write (a + i) (f i)) m).read b = m.read b := by
  induction is generalizing m with
  | nil => rfl
  | cons i is ih =>
    have hi := hb i (List.mem_cons_self ..)
    rw [List.foldl_cons, ih (Memory.write_wf _ _ hm) fun j hj => hb j (List.mem_cons_of_mem _ hj), Memory.read_write _ _ _ hm, if_neg]
    exact fun h => hi h.symm

theorem Memory.read_tornWrite (use : Nat) {m : Memory} {a n b : Nat} (hm : m.wf = true) (hb : a + n ≤ b) :
    (m.tornWrite use a n).read b = m.read b :=
  Memory.read_foldl_write (f := fun i => Config.freeByte use (a + i)) _ hm fun i hi => by
    have := List.mem_range.1 hi
    omega

/-! ## Loss of power (R188) -/

theorem cutProgram_flash (s : State) :
    (s.programTarget = none → (cutProgram s).store.flash = s.store.flash) ∧
    (s.store.flash.wf = true → ∀ b, (∀ x, s.programTarget = some x → ¬ (x.1 ≤ b ∧ b < x.1 + x.2.length)) →
      (cutProgram s).store.flash.read b = s.store.flash.read b) := by
  unfold cutProgram
  split
  · next a bs h =>
    exact ⟨fun hn => (nomatch h.symm.trans hn), fun hwf b hb => (tornProgram_onlyClears hwf _ a bs b).2 (hb _ h)⟩
  · exact ⟨fun _ => rfl, fun _ _ _ => rfl⟩

theorem cutErase_flash (s : State) :
    (s.store.erase = none → (cutErase s).store.flash = s.store.flash) ∧
    (∀ b, (∀ e, s.store.erase = some e → ¬ (slotAddress e.sector 0 ≤ b ∧ b < slotAddress e.sector 0 + Config.sectorBytes)) →
      (cutErase s).store.flash.read b = s.store.flash.read b) := by
  unfold cutErase
  split
  · next e h => exact ⟨fun hn => (nomatch h.symm.trans hn), fun b hb => Memory.read_tornErase _ _ (hb e h)⟩
  · exact ⟨fun _ => rfl, fun _ _ => rfl⟩

theorem cutSave_cfg (s : State) :
    (s.startup.save = none → (cutSave s).startup.cfg = s.startup.cfg) ∧
    (s.startup.cfg.wf = true → ∀ b, 98 ≤ b → (cutSave s).startup.cfg.read b = s.startup.cfg.read b) := by
  unfold cutSave
  split
  · next h =>
    refine ⟨fun hn => (nomatch h.symm.trans hn), fun hwf b hb => ?_⟩
    dsimp only
    rw [Memory.read_tornWrite _ hwf (by rw [savedImageBytes]; omega)]
  · exact ⟨fun _ => rfl, fun _ _ _ => rfl⟩

theorem cutProgram_rest (s : State) : (cutProgram s).store.erase = s.store.erase ∧ (cutProgram s).startup = s.startup := by
  unfold cutProgram; split <;> exact ⟨rfl, rfl⟩

theorem cutErase_startup (s : State) : (cutErase s).startup = s.startup := by unfold cutErase; split <;> rfl

theorem cutSave_flash (s : State) : (cutSave s).store.flash = s.store.flash := by unfold cutSave; split <;> rfl

theorem cutOff_flash (s : State) : (cutOff s).store.flash = (cutErase (cutProgram s)).store.flash := cutSave_flash _

theorem cutOff_cfg (s : State) :
    (s.startup.save = none → (cutOff s).startup.cfg = s.startup.cfg) ∧
    (s.startup.cfg.wf = true → ∀ b, 98 ≤ b → (cutOff s).startup.cfg.read b = s.startup.cfg.read b) := by
  have hsame : (cutErase (cutProgram s)).startup = s.startup := (cutErase_startup _).trans (cutProgram_rest s).2
  have h := cutSave_cfg (cutErase (cutProgram s))
  rwa [hsame] at h

/-- A loss of power leaves every byte that no program and no erase in progress was writing. -/
theorem cutOff_flash_outside {s : State} (hwf : s.store.flash.wf = true) {b : Nat}
    (hb : ∀ x ∈ s.flashTargets, ¬ (x.1 ≤ b ∧ b < x.1 + x.2)) : (cutOff s).store.flash.read b = s.store.flash.read b := by
  rw [cutOff_flash, (cutErase_flash _).2 b, (cutProgram_flash s).2 hwf b]
  · intro x hx
    exact hb (x.1, x.2.length) (by simp [State.flashTargets, hx])
  · intro e he
    rw [(cutProgram_rest s).1] at he
    exact hb (slotAddress e.sector 0, Config.sectorBytes) (by simp [State.flashTargets, he])

theorem cutOff_flash_untouched {s : State} (h : s.flashTargets = []) : (cutOff s).store.flash = s.store.flash := by
  have hnone : s.programTarget = none ∧ s.store.erase = none := by
    unfold State.flashTargets at h
    cases hp : s.programTarget <;> cases he : s.store.erase <;> simp [hp, he] at h ⊢
  rw [cutOff_flash, (cutErase_flash _).1 ((cutProgram_rest s).1.trans hnone.2), (cutProgram_flash s).1 hnone.1]

/-- Settles O32: what is lost, and what of the memories is cut off. -/
theorem startAndPowerLoss : Obligations.StartAndPowerLoss := by
  intro straps s
  refine ⟨fun hp => ⟨?_, ?_⟩, fun hp hin => ⟨(cutOff s).store.flash, (cutOff s).startup.cfg, ?_, ?_, cutOff_flash_untouched,
    fun hwf b => cutOff_flash_outside hwf, (cutOff_cfg s).1, (cutOff_cfg s).2⟩⟩
  · change execStart straps s = _
    simp [execStart, hp, restart]
  · change execPowerLoss s = _
    simp [execPowerLoss, hp]
  all_goals
    have hall : (s.flashTargets.all fun x => inFlash x.1 x.2) = true := List.all_eq_true.2 hin
    have hindex : (cutOff s).freeIndex = s.freeIndex + 3 := by
      obtain ⟨_, _, h⟩ := cutOff_frame s
      rw [h]
  · change execStart straps s = _
    rw [execStart, if_pos hp, restartPowered, if_pos hall, restart, hindex, cutOff_pending]
  · change execPowerLoss s = _
    rw [execPowerLoss, if_pos hp, restartPowered, if_pos hall, restart, hindex, cutOff_pending]

/-! ## What PRESENCE carries (R39) -/

/-- Of a byte with one bit set for each number chosen, bit `i` is that of number `i`. -/
theorem foldl_bits_getLsbD {p : Nat → Bool} {bit : Nat → Byte} {i : Nat} (hbit : ∀ k < 8, (bit k).getLsbD i = decide (i = k)) {k : Nat}
    (hk : k ≤ 8) : ((List.range k).foldl (fun acc i => if p i then acc ||| bit i else acc) 0).getLsbD i = (decide (i < k) && p i) := by
  induction k with
  | zero => simp
  | succ k ih =>
    rw [List.range_succ, List.foldl_append, List.foldl_cons, List.foldl_nil]
    by_cases hp : p k = true
    · rw [if_pos hp, BitVec.getLsbD_or, ih (by omega), hbit k (by omega)]
      by_cases h : i = k
      · simp [h, hp]
      · simp [h, show i < k + 1 ↔ i < k by omega]
    · rw [if_neg hp, ih (by omega)]
      by_cases h : i = k
      · simp [h, Bool.eq_false_of_not_eq_true hp]
      · simp [show i < k + 1 ↔ i < k by omega]

theorem numberSet_getLsbD (p : Nat → Bool) {i : Nat} (hi : i < 8) : (numberSet p).getLsbD i = p (i + 1) := by
  have hbits : ∀ i < 8, ∀ k < 8, (((1 <<< k : Nat) : Byte)).getLsbD i = decide (i = k) := by decide
  exact (foldl_bits_getLsbD (p := fun i => p (i + 1)) (hbits i hi) le_rfl).trans (by simp [hi])

/-- A field of flags shows each flag at its place, and nothing past the last (R192). -/
theorem flagsField_getLsbD (flags : List Bool) {i : Nat} (hi : i < 16) :
    (flags.foldr (fun b (acc : BitVec 16) => (acc <<< 1) ||| (if b then 1 else 0)) 0).getLsbD i = flags.getD i false := by
  induction flags generalizing i with
  | nil => simp
  | cons b flags ih =>
    rw [List.foldr_cons, BitVec.getLsbD_or, BitVec.getLsbD_shiftLeft]
    cases i with
    | zero => cases b <;> simp
    | succ i =>
      have := ih (i := i) (by omega)
      cases b <;> simpa [hi] using this

theorem conditionsField_bits (s : State) :
    (List.range 16).map s.conditionsField.getLsbD = [s.startup.conds.fresh, s.startup.conds.intakeOverrun, s.startup.conds.positionStale,
      s.startup.conds.storeFull, s.startup.conds.storeFault, s.startup.conds.txFault, s.startup.conds.duplicateSlot,
      s.startup.conds.configDefaulted, s.planInvalid, s.capacity, false, false, false, false, false, false] := by
  have hbits : (List.range 16).map s.conditionsField.getLsbD = (List.range 16).map fun i =>
      [s.startup.conds.fresh, s.startup.conds.intakeOverrun, s.startup.conds.positionStale,
        s.startup.conds.storeFull, s.startup.conds.storeFault, s.startup.conds.txFault, s.startup.conds.duplicateSlot,
        s.startup.conds.configDefaulted, s.planInvalid, s.capacity].getD i false :=
    List.map_congr_left fun i hi => flagsField_getLsbD _ (List.mem_range.1 hi)
  rw [hbits]
  rfl

theorem participates_iff (s : State) (n : Nat) :
    s.participates n = true ↔ ∃ v, s.presence.entry n = some v ∧ (s.now - v.lastHeard).toNat < 2000 ∧
      (v.presumed.isSome = true ∨ ∃ x, v.contents = some x ∧ x.runState = 5 ∧ s.engine.currentRun = some x.run ∧
        s.engine.plan.map (·.ident) = some x.plan) := by
  unfold State.participates
  cases hentry : s.presence.entry n with
  | none => simp
  | some v =>
    have helapsed : decide (elapsed s.now v.lastHeard < Config.absenceTime) = true ↔ (s.now - v.lastHeard).toNat < 2000 := decide_eq_true_iff
    rw [Bool.and_eq_true, helapsed]
    cases hc : v.contents <;> simp [hc, State.agrees, and_assoc]

/-- Settles O31: field by field. -/
theorem presenceContent : Obligations.PresenceContent := by
  intro s
  refine ⟨fun t ht => by simp [State.offer2, ht, State.frame, Config.allStations], presenceBytes_length _, rfl, rfl, ?_, ?_, rfl,
    fun n h1 h8 => ⟨?_, ?_⟩, conditionsField_bits s, participates_iff s⟩
  · change (match s.engine.runState with
      | some r => r.code
      | none => 0) = _
    cases s.engine.runState with
    | none => rfl
    | some r => cases r <;> rfl
  · change s.presencePlan = _
    unfold State.presencePlan
    cases s.engine.runState with
    | none => rfl
    | some r => cases r <;> cases s.engine.plan <;> rfl
  · change s.adoptedSet.getLsbD (n - 1) = _
    rw [State.adoptedSet, numberSet_getLsbD _ (by omega), Nat.sub_add_cancel h1]
    simp [Bool.decide_and, beq_eq_decide]
  · change s.participation.getLsbD (n - 1) = _
    rw [State.participation, numberSet_getLsbD _ (by omega), Nat.sub_add_cancel h1]
    simp [State.isRunning, beq_eq_decide]

/-! ## The store's answer to an append (R160, R161) -/

theorem accepts_iff (st : Store) :
    st.accepts = true ↔ st.hasRoom = true ∧ (st.programming = true → st.second.length < 8) := by
  cases h : st.programming <;> simp [Store.accepts, h]

theorem hasRoom_iff (st : Store) :
    st.hasRoom = true ↔ st.seqCounter < 4294967295 ∧
      (st.pageBuf.length + st.second.length < (match st.head with
        | some (_, slot) => 128 - slot
        | none => 0) ∨ st.candidateErased = true) := by
  unfold Store.hasRoom Store.held Store.places
  rw [Bool.and_eq_true, decide_eq_true_iff, Bool.or_eq_true, decide_eq_true_iff]
  cases st.head <;> rfl

theorem noteFull_eq (s : State) : s.noteFull = { s with startup := { s.startup with conds := { s.startup.conds with
    storeFull := s.startup.conds.storeFull || (s.scanned && !s.store.hasRoom) } } } := by
  unfold State.noteFull
  cases h : s.scanned && !s.store.hasRoom
  · simp
  · simp

theorem append_filling {s : State} (b : RecordBody) (hroom : s.store.hasRoom = true) (hfilling : s.store.programming = false) :
    append s b = (State.noteFull { s with store :=
      (s.store.givenNumber.enterPage ⟨s.store.seqCounter, b, s.now⟩).programIfDue }, some s.store.seqCounter) := by
  simp [append, hroom, hfilling]

theorem append_programming {s : State} (b : RecordBody) (hroom : s.store.hasRoom = true) (hprogramming : s.store.programming = true)
    (hsecond : s.store.second.length < 8) :
    append s b = (State.noteFull { s with store := s.store.givenNumber.enterSecond ⟨s.store.seqCounter, b, s.now⟩ },
      some s.store.seqCounter) := by
  simp [append, hroom, hprogramming, Config.bufferCapacity, hsecond]

/-- A filling page buffer with a record in it begins its program where it is due (R161, R163). -/
theorem programIfDue_of_filling {st : Store} (hfilling : st.programming = false) (hheld : st.pageBuf ≠ []) :
    (st.target ≤ st.pageBuf.length ∨ st.flushing = true → st.programIfDue = st.startProgram) ∧
    (¬ (st.target ≤ st.pageBuf.length ∨ st.flushing = true) → st.programIfDue = st) := by
  unfold Store.programIfDue
  constructor
  · intro h
    exact if_pos (by simpa [hfilling, hheld] using h)
  · intro h
    exact if_neg (by simpa [hfilling, hheld] using h)

/-- What an accepted append makes of the state (R160). -/
theorem append_entered {s : State} (b : RecordBody) (h : s.store.accepts = true) :
    (append s b).1 = { s with
      store := { s.store with
        seqCounter := s.store.seqCounter + 1
        lastGiven := s.store.seqCounter
        pageBuf := if s.store.programming then s.store.pageBuf else s.store.pageBuf ++ [⟨s.store.seqCounter, b, s.now⟩]
        second := if s.store.programming then s.store.second ++ [⟨s.store.seqCounter, b, s.now⟩] else s.store.second
        programming := (append s b).1.store.programming
        progs := (append s b).1.store.progs }
      startup := { s.startup with conds := { s.startup.conds with
        storeFull := s.startup.conds.storeFull || (s.scanned && !(append s b).1.store.hasRoom) } } } := by
  obtain ⟨hroom, hsecond⟩ := (accepts_iff _).1 h
  cases hp : s.store.programming with
  | true =>
    rw [append_programming b hroom hp (hsecond hp), noteFull_eq]
    rfl
  | false =>
    rw [append_filling b hroom hp, noteFull_eq]
    unfold Store.programIfDue
    split <;> rfl

/-- Settles O30: the branches of the append. -/
theorem appendsJudged : Obligations.AppendsJudged := by
  intro s b st places t
  refine ⟨hasRoom_iff st, fun h => ?_, fun h => ?_⟩
  · have hrefused := append_refused b h
    refine ⟨hrefused, ?_⟩
    rw [appendOrDrop, hrefused]
    rfl
  · obtain ⟨hroom, hsecond⟩ := (accepts_iff _).1 h
    have hentered : t = _ := append_entered b h
    have hnumber := append_accepted b h
    have happend : append s b = (t, some st.seqCounter) := Prod.ext rfl hnumber
    refine ⟨hnumber, by rw [appendOrDrop, happend], ?_, fun hp => ?_, fun hp => ?_, fun hscan => ?_⟩
    · rw [hentered]
    · have ht : t = _ := congrArg Prod.fst (append_programming b hroom hp (hsecond hp))
      rw [ht, noteFull_eq]
      exact ⟨hp, rfl⟩
    · have ht : t = _ := congrArg Prod.fst (append_filling b hroom hp)
      have hstore : t.store = (st.givenNumber.enterPage ⟨st.seqCounter, b, s.now⟩).programIfDue := by rw [ht, noteFull_eq]
      have hprogram := programIfDue_of_filling (st := st.givenNumber.enterPage ⟨st.seqCounter, b, s.now⟩) hp
        (by simp [Store.enterPage])
      have hlen : (st.givenNumber.enterPage ⟨st.seqCounter, b, s.now⟩).pageBuf.length = st.pageBuf.length + 1 := by
        simp [Store.enterPage, Store.givenNumber]
      rw [hlen] at hprogram
      rw [hstore]
      refine ⟨fun hdue => ?_, fun hdue => ?_⟩
      · rw [hprogram.1 hdue]
        exact ⟨rfl, rfl⟩
      · rw [hprogram.2 hdue]
        exact ⟨hp, rfl⟩
    · have hfull : t.startup.conds.storeFull = (s.startup.conds.storeFull || (s.scanned && !t.store.hasRoom)) :=
        congrArg (fun x : State => x.startup.conds.storeFull) hentered
      rw [hfull, hscan, Bool.true_and]

/-! ## The state after reset (R188) -/

theorem reset_runLaw : RunLaw State.reset where
  plan := fun _ h => nomatch h
  shares := fun _ => by decide
  count := by decide

theorem reset_scoreLaw : ScoreLaw State.reset where
  scores := fun _ h => nomatch h
  starting := fun _ => ⟨rfl, rfl, by decide, by decide, fun _ h => (nomatch h), rfl, by decide, by decide, by decide⟩

theorem reset_trackerLaw : TrackerLaw State.reset where
  capacity := by decide
  meters := by decide
  counts := by decide
  revisit := by decide
  revisitOrder := by decide
  building _ h := nomatch h
  loading
    | 0, h | 1, h | 2, h | 3, h => nomatch h
    | _ + 4, h => nomatch h
  queue := by decide

theorem reset_countersInRange : CountersInRange State.reset := by
  unfold CountersInRange
  decide +kernel

theorem reset_withinCapacity : WithinCapacity State.reset where
  intake := by decide
  relayQueue := by decide
  relayList := by decide
  relayPairs := by decide
  heldMemory := by decide
  heldPairs := by decide
  heldPending := by decide
  heldPendingPairs := by decide
  notices := by decide
  noticeMeters := by decide
  replies := by decide
  table := by decide
  tableMeters := by decide
  adoption := ⟨by decide, by decide, fun _ => by decide, by decide, by decide, by decide⟩
  pageBuffer := by decide
  pageFilling _ := by decide
  writeQueue := by decide
  logSectors := by decide
  eraseSectors := by decide
  eraseRange := by decide
  eraseList := by decide

/-- Settles O23: the state after reset, field by field. -/
theorem resetValues : Obligations.ResetValues := by
  refine ⟨reset_memoryCanonical, reset_countersInRange, reset_withinCapacity, reset_runLaw, reset_scoreLaw, reset_trackerLaw,
    fun h => (nomatch h), ⟨by decide, by decide⟩, by decide +kernel, rfl, rfl, rfl, rfl,
    rfl, rfl, rfl, rfl, by decide, ?_⟩
  repeat' apply And.intro
  all_goals rfl

end Sys2Proof.Machine
end

section
/-!
PROOF. What entries removed in turn leave (R70), the engine's choice (R76), the arbiter's (R166) and the transmit selector's (R32), and the
configuration taken at step 2 (R189).
-/

namespace Sys2Proof.Machine

/-! ## Entries removed (R70) -/

theorem removeEntry_frame (s : State) (e : Entry) : removeEntry s e = { s with
    store := (giveKept s e).store
    startup := (giveKept s e).startup
    engine := s.engine.dropEntry e
    tracker := s.tracker.forget e } := by
  unfold removeEntry
  rw [giveKept_frame]

theorem foldl_removeEntry_frame (l : List Entry) (s : State) : l.foldl removeEntry s = { s with
    store := ((l.filterMap (·.kept)).foldl appendOrDrop s).store
    startup := ((l.filterMap (·.kept)).foldl appendOrDrop s).startup
    engine := { s.engine with
      table := s.engine.table.filter fun e => !l.any (·.meterId == e.meterId)
      handing := s.engine.handing.filter fun i => !l.any (·.meterId == i.meterId) }
    tracker := l.foldl Tracker.forget s.tracker } := by
  have hrest : ∃ store startup table handing, l.foldl removeEntry s = { s with
      store := store
      startup := startup
      engine := { s.engine with table := table, handing := handing }
      tracker := l.foldl Tracker.forget s.tracker } := by
    induction l generalizing s with
    | nil => exact ⟨_, _, _, _, rfl⟩
    | cons e l ih =>
      obtain ⟨store, startup, table, handing, h⟩ := ih (removeEntry s e)
      rw [List.foldl_cons, h, removeEntry_frame]
      exact ⟨_, _, _, _, rfl⟩
  obtain ⟨hstore, hstartup, hhanding⟩ := foldl_removeEntry l s
  have htable := foldl_removeEntry_table l s
  obtain ⟨store, startup, table, handing, h⟩ := hrest
  rw [h] at hstore hstartup hhanding htable ⊢
  subst hstore hstartup hhanding htable
  rfl

/-- A load begins (R47). -/
theorem beginLoad_eq (s : State) (n : Nat) : beginLoad s n = { s with
    store := (((s.engine.entriesOf n).filterMap (·.kept)).foldl appendOrDrop s).store
    startup := (((s.engine.entriesOf n).filterMap (·.kept)).foldl appendOrDrop s).startup
    engine := { s.engine with
      table := s.engine.table.filter fun e => !(s.engine.entriesOf n).any (·.meterId == e.meterId)
      handing := s.engine.handing.filter fun i => !(s.engine.entriesOf n).any (·.meterId == i.meterId)
      untracked := s.engine.untracked ++ [(n, 0)]
      op := .load n 0 }
    tracker := (s.engine.entriesOf n).foldl Tracker.forget s.tracker
    presence := { s.presence.setShare n .loading with adoptQueue := s.presence.adoptQueue.drop 1 } } := by
  unfold beginLoad
  rw [foldl_removeEntry_frame]

/-- Entries of one meter alone go where no meter stands in the table twice. -/
theorem filter_not_any_meter {table : List Entry} (h : (table.map (·.meterId)).Nodup) (p : Entry → Bool) :
    (table.filter fun e => !(table.filter p).any (·.meterId == e.meterId)) = table.filter fun e => !p e := by
  refine List.filter_congr fun e he => ?_
  congr 1
  refine Bool.eq_iff_iff.2 ⟨fun hany => ?_, fun hp => ?_⟩
  · obtain ⟨x, hx, hm⟩ := List.any_eq_true.1 hany
    obtain ⟨hx, hpx⟩ := List.mem_filter.1 hx
    have : x = e := List.inj_on_of_nodup_map h hx he (eq_of_beq hm)
    rwa [← this]
  · exact List.any_eq_true.2 ⟨e, List.mem_filter.2 ⟨he, hp⟩, beq_self_eq_true _⟩

/-! ## The engine's choice (R76) -/

theorem engineChoose_idle {s : State} (hop : s.engine.op = .idle) (hrel : s.engine.releases = []) (hreq : s.engine.requests = []) :
    engineChoose s = if s.isRunning then
      match s.presence.adoptQueue with
      | n :: _ => beginLoad s n
      | [] => choosePacket s
    else s := by
  unfold engineChoose
  rw [if_neg (not_not.2 hop), hrel, hreq]
  cases s.presence.adoptQueue <;> cases s.isRunning <;> rfl

/-- Settles O28: the branches of the choice. -/
theorem engineChoiceOrder : Obligations.EngineChoiceOrder := by
  refine ⟨fun s h => if_pos h, fun s n rest hop hrel => ?_, fun s rest hop hrel => ?_, fun s r rest hop hrel hreq => ?_, fun u => ?_,
    fun s n rest hop hrel hreq hqueue hrun => ?_, fun s hop hrel hreq hrun => ?_, fun s hop hrel hreq hqueue hrun => ?_⟩
  · simp [engineChoose, hop, hrel]
  · simp [engineChoose, hop, hrel]
  · simp [engineChoose, hop, hrel, hreq]
  · refine ⟨fun _ => rfl, rfl, fun _ => rfl, rfl, rfl, rfl, fun _ _ => rfl, fun p hp => ⟨fun hslot => ?_, fun hslot => ?_⟩, fun hp => ?_⟩
    · rw [beginRequest, beginBuild, hp]
      exact if_pos (decide_eq_true hslot)
    · rw [beginRequest, beginBuild, hp]
      exact if_neg (by rw [State.isOwner, decide_eq_true_iff]; exact Nat.not_le.2 hslot)
    · rw [beginRequest, beginBuild, hp]
  · rw [engineChoose_idle hop hrel hreq, hrun, hqueue]
    change (beginLoad s n).engine.op = _ ∧ (beginLoad s n).presence.adoptQueue = _ ∧ (beginLoad s n).presence.shares = _ ∧
      (beginLoad s n).engine.untracked = _ ∧ (∀ e ∈ (beginLoad s n).engine.table, _) ∧
      ((beginLoad s n).store = _ ∧ (beginLoad s n).engine.handing = _) ∧ (_ → (beginLoad s n).engine.table = _)
    rw [beginLoad_eq]
    refine ⟨rfl, by rw [hqueue]; rfl, rfl, rfl, fun e he horigin => ?_, ⟨rfl, rfl⟩, fun hmeters => ?_⟩
    · obtain ⟨he, hkeep⟩ := List.mem_filter.1 he
      have hgone : (s.engine.entriesOf n).any (·.meterId == e.meterId) = true :=
        List.any_eq_true.2 ⟨e, List.mem_filter.2 ⟨he, beq_iff_eq.2 horigin⟩, beq_self_eq_true _⟩
      rw [hgone] at hkeep
      exact Bool.false_ne_true hkeep
    · refine (filter_not_any_meter hmeters _).trans (List.filter_congr fun e _ => ?_)
      rw [beq_eq_decide, decide_not]
  · rw [engineChoose_idle hop hrel hreq, hrun]
    rfl
  · rw [engineChoose_idle hop hrel hreq, hrun, hqueue]
    refine ⟨fun p ps hradio hside => ?_, fun i is hrelay hside => ?_⟩
    · change choosePacket s = takeIntake s p ps
      unfold choosePacket
      rw [hradio]
      cases hrelay : s.engine.relayQueue with
      | nil => rfl
      | cons i is => rw [hside.resolve_left (by simp [hrelay])]
    · change choosePacket s = takeRelay s i is
      unfold choosePacket
      rw [hrelay]
      cases hradio : s.radio.queue with
      | nil => rfl
      | cons p ps => rw [hside.resolve_left (by simp [hradio])]

/-! ## The arbiter's choice (R166) -/

/-- A program that waits and can be served is served first, where no other does. -/
theorem find_servable {progs : List ProgramReq} {servable : ProgramReq → Bool} {p : ProgramReq} (hp : p ∈ progs) (hserve : servable p = true)
    (honly : ∀ q ∈ progs, servable q = true → q = p) : progs.find? servable = some p := by
  obtain ⟨q, hq⟩ := Option.isSome_iff_exists.1 (List.find?_isSome.2 ⟨p, hp, hserve⟩)
  rw [hq, honly q (List.mem_of_find?_eq_some hq) (List.find?_some hq)]

theorem arbitrate_program {s : State} {p : ProgramReq} (hfree : s.store.serving = none) (h : s.store.progs.find? s.store.servable = some p) :
    arbitrate s = serveProgram s p := by
  simp [arbitrate, hfree, h]

theorem arbitrate_lower {s : State} (hfree : s.store.serving = none) (h : s.store.progs = []) :
    arbitrate s =
      if s.engine.op.readsPlan || s.checkWaits then { s with store.serving := some (.planRead true) }
      else if s.engine.op.readsLog then { s with store.serving := some (.rebuildRead true) }
      else if s.dock.session.ask.isSome then { s with store.serving := some (.uploadRead true) }
      else
        match s.store.marks with
        | m :: rest =>
          { s with
            store.marks := rest
            store.serving := some (.mark m) }
        | [] => { s with store := beginErase s.store } := by
  unfold arbitrate
  simp only [hfree, h, Option.isSome_none, Bool.false_eq_true, if_false, List.find?_nil] <;> rfl

theorem arbitrate_reads {s : State} (hfree : s.store.serving = none) (h : s.store.progs = [])
    (hreads : s.engine.op.readsPlan = true ∨ s.checkWaits = true) :
    arbitrate s = { s with store := { s.store with serving := some (.planRead true) } } := by
  rw [arbitrate_lower hfree h, if_pos (Bool.or_eq_true_iff.2 hreads)]

/-- The users below the reads of the plan, in their ranks (R166). -/
theorem arbitrate_marks {s : State} (hfree : s.store.serving = none) (h : s.store.progs = [])
    (hreads : ¬ (s.engine.op.readsPlan = true ∨ s.checkWaits = true)) (hlog : s.engine.op.readsLog = false)
    (hask : s.dock.session.ask = none) :
    arbitrate s = match s.store.marks with
      | m :: rest =>
        { s with
          store.marks := rest
          store.serving := some (.mark m) }
      | [] => { s with store := beginErase s.store } := by
  rw [arbitrate_lower hfree h, if_neg (mt Bool.or_eq_true_iff.1 hreads), hlog, hask]
  rfl

/-! ## The transmit selector's choice (R32) -/

theorem nextItem_eq (s : State) :
    s.nextItem = [s.offer2, s.offer3, s.offer4, s.offer5, s.offer6, s.offer7, s.offer9, s.offer11].findSome? id := by
  have hcons (o : Option Sending) (l : List (Option Sending)) : (o :: l).findSome? id = o.or (l.findSome? id) := by
    cases o <;> rfl
  simp only [hcons, List.findSome?_nil, Option.or_none, State.nextItem, Option.or_assoc]

theorem frame_src (s : State) (cls dst : Nat) (payload : List Byte) : (s.frame cls dst payload).src.toNat = s.slot := by
  have hslot : s.slot ≤ 8 := by
    have := s.startup.straps.isLt
    unfold State.slot
    omega
  rw [State.frame, BitVec.toNat_ofNat, Nat.mod_eq_of_lt (by omega)]

/-- A HANDOVER offered is the oldest whose share belongs to another slot (R54). -/
theorem offer4_of {s : State} {x : Sending} (h : s.offer4 = some x) : ∃ i ∈ s.engine.handing, ∃ e : Entry,
    s.ownerOf i.share ≠ s.slot ∧ x = ⟨i.tag, s.frame 4 (s.ownerOf i.share) (handoverBytes e.handover)⟩ := by
  unfold State.offer4 at h
  split at h
  · obtain ⟨i, hi, hx⟩ := List.exists_of_findSome?_eq_some h
    split at hx
    · cases hx
    · next hother =>
      obtain ⟨e, _, rfl⟩ := Option.map_eq_some_iff.1 hx
      exact ⟨i, hi, e, hother, rfl⟩
  · cases h

/-- A RELAY offered is the first pending entry's (R123). -/
theorem offer5_of {s : State} {x : Sending} (h : s.offer5 = some x) : ∃ e ∈ s.relay.list,
    s.relayPending e = true ∧ x = ⟨e.tag, s.frame 5 (s.ownerOf e.share) (relayBytes e.payload)⟩ := by
  obtain ⟨e, he, rfl⟩ := Option.map_eq_some_iff.1 h
  exact ⟨e, List.mem_of_find?_eq_some he, List.find?_some he, rfl⟩

theorem relayPending_iff (s : State) (e : RelayEntry) :
    s.relayPending e = true ↔ (e.phase = .unsent ∨ e.phase = .due) ∧ s.shareState e.share = .notMine ∧ s.ownerOf e.share ≠ s.slot := by
  simp [State.relayPending, and_assoc]

theorem offer7_of {s : State} {x : Sending} (h : s.offer7 = some x) : ∃ (t : TallyItem) (r : SegmentRow),
    x = ⟨t.tag, s.frame 7 Config.consoleSlot r.bytes⟩ := by
  obtain ⟨t, _, ht⟩ := Option.bind_eq_some_iff.1 h
  obtain ⟨r, _, rfl⟩ := Option.map_eq_some_iff.1 ht
  exact ⟨t, r, rfl⟩

theorem offer11_of {s : State} {x : Sending} (h : s.offer11 = some x) : ∃ tag bytes, x = ⟨tag, s.frame 11 Config.dockSlot bytes⟩ := by
  unfold State.offer11 at h
  dsimp only at h
  split at h
  · cases h
    split
    · exact ⟨_, _, rfl⟩
    · exact ⟨_, _, rfl⟩
  · cases h
    exact ⟨_, _, rfl⟩
  · cases h
    exact ⟨_, _, rfl⟩
  · cases h

/-- Every frame offered is of its class and destination, and from this station (R24). -/
theorem offers (s : State) :
    (∀ x, s.offer2 = some x → ∃ tag bytes, x = ⟨tag, s.frame 2 Config.allStations bytes⟩) ∧
    (∀ x, s.offer3 = some x → ∃ tag bytes, x = ⟨tag, s.frame 3 Config.allStations bytes⟩) ∧
    (∀ x, s.offer6 = some x → ∃ tag bytes, x = ⟨tag, s.frame 6 Config.consoleSlot bytes⟩) ∧
    (∀ x, s.offer9 = some x → ∃ tag bytes, x = ⟨tag, s.frame 9 Config.consoleSlot bytes⟩) := by
  refine ⟨fun x h => ?_, fun x h => ?_, fun x h => ?_, fun x h => ?_⟩
  all_goals
    obtain ⟨_, _, rfl⟩ := Option.map_eq_some_iff.1 h
    exact ⟨_, _, rfl⟩

theorem nextItem_src {s : State} {x : Sending} (h : s.nextItem = some x) : x.frame.src.toNat = s.slot := by
  rw [nextItem_eq] at h
  obtain ⟨o, ho, hx⟩ := List.exists_of_findSome?_eq_some h
  obtain ⟨h2, h3, h6, h9⟩ := offers s
  have hframe {cls dst : Nat} (hx : ∃ tag bytes, x = ⟨tag, s.frame cls dst bytes⟩) : x.frame.src.toNat = s.slot := by
    obtain ⟨tag, bytes, rfl⟩ := hx
    exact frame_src s cls dst bytes
  simp only [List.mem_cons, List.not_mem_nil, or_false] at ho
  rcases ho with rfl | rfl | rfl | rfl | rfl | rfl | rfl | rfl
  · exact hframe (h2 x hx)
  · exact hframe (h3 x hx)
  · obtain ⟨i, _, e, _, rfl⟩ := offer4_of hx
    exact frame_src ..
  · obtain ⟨e, _, _, rfl⟩ := offer5_of hx
    exact frame_src ..
  · exact hframe (h6 x hx)
  · obtain ⟨i, r, rfl⟩ := offer7_of hx
    exact frame_src ..
  · exact hframe (h9 x hx)
  · exact hframe (offer11_of hx)

theorem offer11_data {s : State} {d : UploadItem} (hd : s.dock.session.data = some d)
    (hfirst : ∀ r, s.dock.replies.head? = some r → d.tag ≤ r.tag) :
    s.offer11 = some ⟨d.tag, s.frame 11 Config.dockSlot d.frameBytes⟩ := by
  unfold State.offer11
  rw [hd]
  cases hr : s.dock.replies.head? with
  | none => rfl
  | some r => exact congrArg some (if_neg (Nat.not_lt.2 (hfirst r hr)))

theorem offer11_reply {s : State} {r : Reply} {rest : List Reply} (hr : s.dock.replies = r :: rest)
    (hfirst : ∀ d, s.dock.session.data = some d → r.tag < d.tag) :
    s.offer11 = some ⟨r.tag, s.frame 11 Config.dockSlot (s.replyBytes r.body)⟩ := by
  unfold State.offer11
  rw [hr]
  cases hd : s.dock.session.data with
  | none => rfl
  | some d => exact congrArg some (if_pos (hfirst d hd))

/-- Settles O29: the ranks of the flash, the classes of the bus, and each frame as formed. -/
theorem arbiterAndSelector : Obligations.ArbiterAndSelector := by
  refine ⟨fun s h => if_pos h, fun s hfree => ⟨fun hopen hhead hpage hno hnorec hnohead => ?_, fun hopen hprog hnorec hnohead => ?_,
    fun i bs rest hprogs hqueue => ?_, fun hprogs => ?_, fun hprogs => ⟨arbitrate_reads hfree hprogs, fun hreads hlog => ?_,
    fun hreads hlog => ⟨fun hask => ?_, fun hask => ⟨fun m rest hmarks => ?_, fun hmarks herase => ⟨fun n hplan => ?_,
    fun n x rest hplan hlist => ?_⟩⟩⟩⟩⟩, fun s => ?_, fun s => ?_, fun s => ?_⟩
  · rw [arbitrate_program hfree (find_servable hpage (by simp [Store.servable, hopen, hhead]) fun q hq _ => ?_)]
    · rfl
    · cases q with
      | logPage => rfl
      | opening => exact absurd hq hno
      | planRecord => exact absurd hq hnorec
      | planHeader => exact absurd hq hnohead
  · rw [arbitrate_program hfree (find_servable hprog hopen fun q hq hserve => ?_)]
    · rfl
    · cases q with
      | logPage => simp [Store.servable, Option.isSome_iff_ne_none.1 hopen] at hserve
      | opening => rfl
      | planRecord => exact absurd hq hnorec
      | planHeader => exact absurd hq hnohead
  · rw [arbitrate_program (p := .planRecord) hfree (by rw [hprogs]; rfl), serveProgram, hprogs]
    simp only [servePlanRecord, hqueue]
    rfl
  · rw [arbitrate_program (p := .planHeader) hfree (by rw [hprogs]; rfl), serveProgram, hprogs]
    rfl
  · rw [arbitrate_lower hfree hprogs, if_neg (mt Bool.or_eq_true_iff.1 hreads), if_pos hlog]
  · rw [arbitrate_lower hfree hprogs, if_neg (mt Bool.or_eq_true_iff.1 hreads), hlog, hask]
    rfl
  · rw [arbitrate_marks hfree hprogs hreads hlog hask, hmarks]
  · rw [arbitrate_marks hfree hprogs hreads hlog hask, hmarks]
    simp [beginErase, herase, hplan]
  · rw [arbitrate_marks hfree hprogs hreads hlog hask, hmarks]
    simp [beginErase, herase, hplan, hlist]
  · obtain ⟨h2, h3, h6, h9⟩ := offers s
    refine ⟨nextItem_eq s, fun x => nextItem_src, fun x h => ?_, fun x h => ?_, fun x h => ?_, fun x h => ?_, fun x h => ?_, fun x h => ?_,
      fun x h => ?_, fun x h => ?_⟩
    · obtain ⟨_, _, rfl⟩ := h2 x h
      exact ⟨rfl, rfl⟩
    · obtain ⟨_, _, rfl⟩ := h3 x h
      exact ⟨rfl, rfl⟩
    · obtain ⟨_, _, _, _, rfl⟩ := offer4_of h
      rfl
    · obtain ⟨_, _, _, rfl⟩ := offer5_of h
      rfl
    · obtain ⟨_, _, rfl⟩ := h6 x h
      exact ⟨rfl, rfl⟩
    · obtain ⟨_, _, rfl⟩ := offer7_of h
      exact ⟨rfl, rfl⟩
    · obtain ⟨_, _, rfl⟩ := h9 x h
      exact ⟨rfl, rfl⟩
    · obtain ⟨_, _, rfl⟩ := offer11_of h
      exact ⟨rfl, rfl⟩
  · refine ⟨fun hrun => ?_, fun i rest e l hrun hhanding hother he hl => ?_, fun x h => ?_, fun x h => ?_, fun e rest hlist hphase hshare hother => ?_,
      fun i rest h => ?_, fun n rest h => ?_, fun i rest r h hr => ?_, fun r h => ?_, fun d hd hfirst => offer11_data hd hfirst,
      fun r rest hr hfirst => ?_⟩
    · simp [State.offer4, hrun]
    · simp [State.offer4, hrun, hhanding, hother, he, State.frame, handoverBytes, Entry.handover, hl]
    · obtain ⟨i, hi, e, hother, rfl⟩ := offer4_of h
      exact ⟨i, hi, rfl, rfl, hother⟩
    · obtain ⟨e, he, hpending, rfl⟩ := offer5_of h
      exact ⟨e, he, by rw [Nat.mul_comm 16]; rfl, (relayPending_iff s e).1 hpending⟩
    · have hpending := (relayPending_iff s e).2 ⟨hphase, hshare, hother⟩
      exact ⟨⟨e.tag, s.frame 5 (s.ownerOf e.share) (relayBytes e.payload)⟩, by simp only [State.offer5, hlist, List.find?_cons, hpending, Option.map_some], rfl⟩
    · simp [State.offer3, h, State.frame, heldBytes, Config.allStations]
    · simp [State.offer6, h, State.frame, Notice.bytes, Config.consoleSlot]
    · simp [State.offer7, h, hr, State.frame, SegmentRow.bytes, Config.consoleSlot]
    · simp [State.offer9, h, State.frame, revisitBytes, Config.consoleSlot]
    · rw [offer11_reply hr hfirst]
      refine ⟨fun bs h => ?_, fun h => ?_, fun h => ?_, fun h => ?_⟩
      · rw [h]
        rfl
      · simp only [h, State.replyBytes, State.uploadEnd1, State.frame, List.append_assoc]
        rfl
      · rw [h]
        rfl
      · rw [h]
        rfl
  · unfold offer
    by_cases h : s.startup.step = .up ∧ s.rack.rx = .idle ∧ s.rack.sending = none
    · obtain ⟨hup, hidle, hfree⟩ := h
      simp only [State.isUp, hup, hidle, hfree, beq_self_eq_true, Option.isNone_none, Bool.and_self, if_true, and_self] <;> rfl
    · rw [if_neg h, if_neg]
      simpa [State.isUp, and_assoc] using h

/-! ## The configuration (R189) -/

@[simp] theorem Memory.readBytes_length (m : Memory) (a n : Nat) : (m.readBytes a n).length = n := by simp [Memory.readBytes]

theorem acceptedImage_eq {bs : List Byte} (h : bs.length = 98) :
    acceptedImage bs = if crc16 bs = 0 then some (bs.take 96) else none := by
  have hgood := crcGood_iff (bs := bs) (n := 96) h
  unfold acceptedImage imageBytes
  by_cases hcrc : crc16 bs = 0
  · rw [if_pos (hgood.2 hcrc), if_pos hcrc]
  · rw [if_neg (mt hgood.1 hcrc), if_neg hcrc]

theorem configAnswered_of_accepted {s : State} {image : List Byte} (h : acceptedImage s.configBytes = some image) :
    configAnswered s = takeImage image false s := by
  rw [configAnswered, h]

theorem configAnswered_of_refused {s : State} (h : acceptedImage s.configBytes = none) : configAnswered s = takeImage defaultImage true s := by
  rw [configAnswered, h]

/-- The image is accepted where the CRC over the 98 bytes leaves the register at zero (R1, R189). -/
theorem configAnswered_eq (s : State) : configAnswered s =
    if crc16 (s.startup.cfg.readBytes 0 98) = 0 then takeImage ((s.startup.cfg.readBytes 0 98).take 96) false s
    else takeImage defaultImage true s := by
  have hbytes : s.configBytes = s.startup.cfg.readBytes 0 98 := rfl
  have haccepted := acceptedImage_eq (bs := s.configBytes) (by rw [hbytes, Memory.readBytes_length])
  rw [← hbytes]
  by_cases hcrc : crc16 s.configBytes = 0
  · rw [if_pos hcrc] at haccepted ⊢
    exact configAnswered_of_accepted haccepted
  · rw [if_neg hcrc] at haccepted ⊢
    exact configAnswered_of_refused haccepted

theorem remap_eq (s : State) : remap s = { s with presence := { s.presence with
    owners := (List.range s.settings.collectors).map fun i => s.effectiveOwner (i + 1) } } := by
  rw [remap, State.allShares, List.map_map]
  rfl

theorem takeImage_eq (image : List Byte) (d : Bool) (s : State) : takeImage image d s = { s with
    startup := { s.startup with
      image := image
      settings := settingsOf image
      step := .scan
      conds := { s.startup.conds with configDefaulted := s.startup.conds.configDefaulted || d } }
    presence := { s.presence with
      shares := (List.range (settingsOf image).collectors).map fun i => if i + 1 = s.slot then .own else .notMine
      owners := (List.range (settingsOf image).collectors).map fun i => s.effectiveOwner (i + 1)
      adoptQueue := [] } } := by
  unfold takeImage
  rw [remap_eq]
  rfl

/-- A slot heard at station time 0 and presumed participates until 2,000 ms have passed (R41, R42). -/
theorem effectiveOwner_afterStart {s : State} {k n : Nat} (hview : s.presence.view = (Presence.afterStart s.slot k).view)
    (hnow : s.now.toNat < 2000) (h1 : 1 ≤ n) (h8 : n ≤ 8) : s.effectiveOwner n = n := by
  unfold State.effectiveOwner
  by_cases hown : n = s.slot
  · rw [if_pos hown, hown]
  · have hmem : (⟨n, 0, none, some 2000⟩ : ViewEntry) ∈ s.presence.view := by
      rw [hview]
      refine List.mem_map.2 ⟨n - 1, List.mem_filter.2 ⟨List.mem_range.2 (by omega), ?_⟩, by rw [Nat.sub_add_cancel h1]⟩
      rw [Nat.sub_add_cancel h1]
      exact bne_iff_ne.2 hown
    obtain ⟨v, hv⟩ := Option.isSome_iff_exists.1 (List.find?_isSome (p := (·.slot == n)).2 ⟨_, hmem, beq_self_eq_true n⟩)
    obtain ⟨i, -, hi⟩ := List.mem_map.1 (hview ▸ List.mem_of_find?_eq_some hv)
    have hpart : s.participates n = true := by
      refine (participates_iff s n).2 ⟨v, hv, ?_, .inl ?_⟩
      · rw [← hi]
        simpa using hnow
      · rw [← hi]
        rfl
    rw [if_neg hown, if_pos hpart]

/-- Settles O33: the image's judgement, and what it makes of settings, shares and map. -/
theorem configurationTaken : Obligations.ConfigurationTaken := by
  intro s hp hstep
  refine ⟨?_, fun hlate => ?_, fun hearly => ?_, fun image d => ⟨takeImage_eq image d s, fun hview hnow => ?_⟩⟩
  · change execConfigRead s = _
    rw [execConfigRead, act, if_pos hp, hstep, onlyIf, if_pos (by rfl), configAnswered_eq]
  · change execConfigAnswerTimeout s = _
    have hdue : s.answerOverdue = true := by simpa [State.answerOverdue, hstep, elapsed, Config.answerTime] using hlate
    rw [execConfigAnswerTimeout, act, if_pos hp, onlyIf, if_pos hdue]
  · change execConfigAnswerTimeout s = _
    have hdue : ¬ s.answerOverdue = true := by simpa [State.answerOverdue, hstep, elapsed, Config.answerTime] using hearly
    rw [execConfigAnswerTimeout, act, if_pos hp, onlyIf, if_neg hdue]
  · rw [takeImage_eq]
    refine List.map_congr_left fun i hi => effectiveOwner_afterStart hview hnow (by omega) ?_
    have hmax := (clampField_within (fieldOf image 0 1) (show 2 ≤ 8 by decide)).2
    exact Nat.le_trans (List.mem_range.1 hi) hmax

/-! ## The line receiver (R2 to R4) -/

/-- A character is spoiled where its data and parity bits hold an odd number of ones, or the stop bit is low (R2). -/
theorem characterSpoiled_eq (data : Byte) (parity stop : Bool) : characterSpoiled data parity stop =
    !(decide (((List.range 8).countP (fun i => data.getLsbD i) + (if parity = true then 1 else 0)) % 2 = 0) && stop) := by
  unfold characterSpoiled parityGood
  generalize (List.range 8).countP (fun i => data.getLsbD i) = k
  rcases Nat.mod_two_eq_zero_or_one k with h | h <;> cases parity <;> simp [h, Nat.add_mod]

/-- Settles O35: character by character. -/
theorem intakeCharacters : Obligations.IntakeCharacters := by
  refine ⟨fun data parity stop s hp hhigh => ?_, fun s hp hhigh => ?_⟩
  · have hones : ((List.range 8).filter fun i => data.getLsbD i).length = (List.range 8).countP fun i => data.getLsbD i :=
      List.countP_eq_length_filter.symm
    dsimp only
    rw [hones]
    have hgood := characterSpoiled_eq data parity stop
    generalize (decide (((List.range 8).countP (fun i => data.getLsbD i) + (if parity = true then 1 else 0)) % 2 = 0) && stop) = good at hgood ⊢
    change execIntakeCharacter data parity stop s = _
    have hnext : execIntakeCharacter data parity stop s = .next { s with radio := s.radio.character data parity stop } := by
      simp [execIntakeCharacter, hp, hhigh]
    rw [hnext, Radio.character, hgood]
    congr 2
    cases good
    · rw [Bool.not_false, if_pos rfl]
      unfold Radio.spoiledCharacter
      cases hline : s.radio.line <;> rfl
    · rw [Bool.not_true, if_neg Bool.false_ne_true]
      unfold Radio.goodCharacter
      cases hline : s.radio.line with
      | idle =>
        dsimp only
        by_cases h : data = 16
        · rw [if_pos h, if_pos h, h]
        · rw [if_neg h, if_neg h]
          rfl
      | assembling bs =>
        dsimp only
        by_cases h : bs.length < 17
        · rw [if_pos h, if_pos h]
        · rw [if_neg h, if_neg h]
          rfl
      | spoiled => rfl
  · change execLineReturnHigh s = _
    simp [execLineReturnHigh, hp, hhigh, Radio.lineHigh]

end Sys2Proof.Machine
end

section
/-!
PROOF. The lines: a completed front-end frame (R4 to R10), the receiver's faults (R20, R21), frames heard (R22, R25) and the outcome of an own
frame (R28 to R33).
-/

namespace Sys2Proof.Machine

/-! ## A completed front-end frame (R4 to R10) -/

theorem byteAt_eq_getD {bs : List Byte} {i : Nat} (h : i < bs.length) : byteAt bs i = bs.getD i 0 := by
  rw [byteAt, List.getD_eq_getElem _ _ h, List.getD_eq_getElem _ _ h]

theorem bubbleOf_length {bs : List Byte} (h : bs.length = 17) : (bubbleOf bs).length = 14 := by simp [bubbleOf, h]

/-- The packet of a bubble, field by field (R7). -/
theorem packetOf_eq {bubble : List Byte} (h : bubble.length = 14) (rssi channel : Byte) : packetOf bubble rssi channel = {
    meterId := BitVec.ofNat 32 (numberOf (bubble.take 4))
    counter := BitVec.ofNat 16 (numberOf ((bubble.drop 4).take 2))
    reading := BitVec.ofNat 32 (numberOf ((bubble.drop 6).take 4))
    digits := BitVec.ofNat 4 ((bubble.getD 10 0).toNat / 16)
    alarm := (bubble.getD 10 0).toNat % 16 == 2
    flags := bubble.getD 11 0 &&& 0xFC
    rssi := rssi
    channel := channel } := by
  unfold packetOf usedFlags
  rw [fieldOf_one (by omega), byteAt_eq_getD (by omega)]
  rfl

theorem admitPacket_eq (s : State) (p : Packet) : admitPacket s p =
    if s.engine.runState ≠ some .running then { s with radio := { s.radio with outOfRun := min (s.radio.outOfRun + 1) 65535 } }
    else if s.radio.queue.length < 16 then { s with radio := { s.radio with queue := s.radio.queue ++ [p] } }
    else { s with
      radio := { s.radio with overrun := min (s.radio.overrun + 1) 65535 }
      startup := { s.startup with conds := { s.startup.conds with intakeOverrun := true } } } := by
  have hrun : s.isRunning = true ↔ s.engine.runState = some .running := beq_iff_eq
  unfold admitPacket
  by_cases h : s.engine.runState = some .running
  · rw [hrun.2 h, if_neg (not_not.2 h)]
    rfl
  · rw [Bool.eq_false_of_not_eq_true (mt hrun.1 h), if_pos h]
    rfl

/-- A bubble is judged for its CRC, then its meter ID and kind, then admitted (R5, R6). -/
theorem judgeBubble_eq {bubble : List Byte} (h : bubble.length = 14) (s : State) (rssi channel : Byte) :
    judgeBubble s bubble rssi channel =
      if crc16 bubble ≠ 0 then { s with radio := { s.radio with intakeCrc := min (s.radio.intakeCrc + 1) 65535 } }
      else if (packetOf bubble rssi channel).meterId = 0 ∨ (packetOf bubble rssi channel).meterId = 0xFFFFFFFF ∨
          ((bubble.getD 10 0).toNat % 16 ≠ 1 ∧ (bubble.getD 10 0).toNat % 16 ≠ 2) then
        { s with radio := { s.radio with malformed := min (s.radio.malformed + 1) 65535 } }
      else admitPacket s (packetOf bubble rssi channel) := by
  have hcrc : crcGood bubble 0 12 = true ↔ crc16 bubble = 0 := crcGood_iff h
  have hvalid : (!validMeterId (packetOf bubble rssi channel).meterId || !kindValid bubble) = true ↔
      ((packetOf bubble rssi channel).meterId = 0 ∨ (packetOf bubble rssi channel).meterId = 0xFFFFFFFF ∨
        ((bubble.getD 10 0).toNat % 16 ≠ 1 ∧ (bubble.getD 10 0).toNat % 16 ≠ 2)) := by
    unfold validMeterId kindValid
    rw [fieldOf_one (by omega)]
    simp only [Bool.or_eq_true, Bool.not_eq_true', Bool.and_eq_false_iff, bne_eq_false_iff_eq, Bool.or_eq_false_iff, beq_eq_false_iff_ne,
      or_assoc]
  unfold judgeBubble
  dsimp only
  by_cases hgood : crc16 bubble = 0
  · rw [hcrc.2 hgood, if_neg (not_not.2 hgood), Bool.not_true, if_neg Bool.false_ne_true]
    exact if_congr hvalid rfl rfl
  · rw [Bool.eq_false_of_not_eq_true (mt hcrc.1 hgood), if_pos hgood]
    rfl

theorem completeFrame_eq {bs : List Byte} (h : bs.length = 17) (s : State) : completeFrame s bs =
    if 15 < (bs.getD 16 0).toNat then { s with radio := { s.radio with lineErrors := min (s.radio.lineErrors + 1) 65535 } }
    else judgeBubble s (bubbleOf bs) (bs.getD 15 0) (bs.getD 16 0) := by
  unfold completeFrame
  rw [byteAt_eq_getD (by omega), byteAt_eq_getD (by omega)]
  rfl

/-- Settles O36: the checks in their order. -/
theorem gapExpiryJudges : Obligations.GapExpiryJudges := by
  intro s hp hgap hhigh hline idle up lineError
  change execGapExpiry s = _
  have hdue : (s.radio.gapRunning && !s.radio.awaitHigh && s.radio.line != .idle) = true := by simp [hgap, hhigh, hline]
  rw [execGapExpiry, act, if_pos hp, onlyIf, if_pos hdue]
  unfold gapExpires
  cases hl : s.radio.line with
  | idle => rfl
  | spoiled => rfl
  | assembling bs =>
    dsimp only
    by_cases h17 : bs.length = 17
    · rw [if_pos h17, completeFrame_eq h17]
      by_cases hchannel : 15 < (bs.getD 16 0).toNat
      · rw [if_pos hchannel, if_pos (.inr hchannel)]
      · rw [if_neg hchannel, if_neg (not_or.2 ⟨not_not.2 h17, hchannel⟩), judgeBubble_eq (bubbleOf_length h17), admitPacket_eq,
          packetOf_eq (bubbleOf_length h17)]
        rfl
    · rw [if_neg h17, if_pos (.inl h17)]
      rfl

/-! ## The receiver (R20 to R23) -/

theorem act_onlyIf {c : State → Bool} {f : State → State} {s : State} (hp : s.startup.powered = true) (h : c s = true) :
    act (fun s => onlyIf (c s) (f s)) s = .next (settle (f s)) :=
  act_next hp (by simp [onlyIf, h])

theorem follows_iff (s : State) : s.follows = true ↔ s.rack.rx = .idle ∨ s.rack.rx = .frame ∨ s.rack.rx = .ownSpoiled := by
  simp [State.follows, or_assoc]

theorem countFormat_eq (s : State) : countFormat s = { s with rack := { s.rack with
    rxFormat := if s.rack.rx ≠ .ownSpoiled then min (s.rack.rxFormat + 1) 65535 else s.rack.rxFormat } } := by
  unfold countFormat
  by_cases h : s.rack.rx = .ownSpoiled
  · simp only [h, ne_eq, not_true, if_true, if_false]
    rw [← h]
  · rw [if_neg h, if_pos h]
    rfl

theorem countCrc_eq (s : State) : countCrc s = { s with rack := { s.rack with
    rxCrc := if s.rack.rx ≠ .ownSpoiled then min (s.rack.rxCrc + 1) 65535 else s.rack.rxCrc } } := by
  unfold countCrc
  by_cases h : s.rack.rx = .ownSpoiled
  · simp only [h, ne_eq, not_true, if_true, if_false]
    rw [← h]
  · rw [if_neg h, if_pos h]
    rfl

/-- Settles O37: each verdict with what it counts. -/
theorem receiverJudges : Obligations.ReceiverJudges := by
  refine ⟨fun s hp hrx => act_onlyIf (c := fun s => s.rack.rx == .searching) (f := fun s => { s with rack.rx := .idle }) hp (by rw [hrx]; rfl), fun bits s v hp hrx hv hne => ?_,
    fun s hp hrx => act_onlyIf hp ((follows_iff s).2 hrx)⟩
  intro isCrc isFormat
  refine act_next (f := receiveFault (judgeBits bits)) hp ?_
  unfold receiveFault
  rw [hv, (follows_iff s).2 hrx]
  cases v with
  | valid clean =>
    cases clean with
    | true => exact absurd rfl hne
    | false => simp [isCrc, isFormat, receiveTo]
  | stuffViolation | lengthAbove48 | endFieldDominant => simp [isCrc, isFormat, countFormat_eq, receiveTo]
  | crcFailure clean => cases clean <;> simp [isCrc, isFormat, countCrc_eq, receiveTo]

/-! ## Frames from other stations (R22, R25) -/

/-- A command that is a frame is that frame's reports and delivery (R22, R25). -/
theorem exec_eq_onFrame {c : Instr} {n : Nat} (h : frameSource c = some n) (s : State) :
    exec c s = act (fun s => onFrame n (s.deliveryOf c) s) s := by
  cases c <;> cases h <;> rfl

theorem exec_onFrame {c : Instr} {n : Nat} {s u : State} (hc : frameSource c = some n) (hp : s.startup.powered = true)
    (h : onFrame n (s.deliveryOf c) s = some u) : exec c s = .next (settle u) :=
  (exec_eq_onFrame hc s).trans (act_next hp h)

theorem reportFrame_eq (s : State) (n : Nat) : reportFrame s n = if isCollector n then heardReport s.received n else s.received := rfl

theorem onFrame_other {n : Nat} {d : State → State} {s : State} (hf : s.follows = true) (hn : n ≠ s.slot) :
    onFrame n d s = some (if s.isUp then d (reportFrame s n) else reportFrame s n) := by
  have hup : (reportFrame s n).isUp = s.isUp := by
    rw [reportFrame_eq]
    split
    · exact heardReport_isUp _ _
    · rfl
  rw [onFrame, hf, Bool.not_true, if_neg Bool.false_ne_true, if_neg hn]
  dsimp only
  rw [hup]

theorem isUp_iff (s : State) : s.isUp = true ↔ s.startup.step = .up := beq_iff_eq

/-- A frame's delivery changes of the Rack Port the receive format count alone (R25). -/
theorem deliveryOf_rack (s : State) (c : Instr) (u : State) : ∃ k, (s.deliveryOf c u).rack = { u.rack with rxFormat := k } := by
  have hpeer (n : Nat) (c : Instr) : ∃ k, (fromPeer n (deliverCommand c) u).rack = { u.rack with rxFormat := k } := by
    unfold fromPeer
    split
    · exact ⟨_, deliverCommand_rack c u⟩
    · exact ⟨_, rfl⟩
  unfold State.deliveryOf
  split
  · exact ⟨_, deliverReading_rack _ u⟩
  iterate 4 exact hpeer _ _
  · exact ⟨_, deliverCommand_rack c u⟩

theorem reportFrame_rack {s : State} {x : Sending} (h : s.rack.sending = some x) (n : Nat) : (reportFrame s n).rack = s.rack := by
  have hreceived : s.received.rack = s.rack := by
    change s.rack.afterFrame = s.rack
    rw [Rack.afterFrame, h]
  rw [reportFrame_eq]
  split
  · rw [heardReport_rack, hreceived]
  · exact hreceived

/-- A frame of this station's own stays on the bus whatever frame comes from another station (R31; log 10). -/
theorem exec_keeps_sending {c : Instr} {n : Nat} {s t : State} {x : Sending} (hc : frameSource c = some n) (hn : n ≠ s.slot)
    (hx : s.rack.sending = some x) (h : exec c s = .next t) : t.rack.sending = some x ∧ t.rack.rx = s.rack.rx := by
  by_cases hp : s.startup.powered = true
  · by_cases hf : s.follows = true
    · rw [exec_onFrame hc hp (onFrame_other hf hn)] at h
      cases h
      have hrack : ∃ k, (if s.isUp then s.deliveryOf c (reportFrame s n) else reportFrame s n).rack = { s.rack with rxFormat := k } := by
        split
        · obtain ⟨k, hk⟩ := deliveryOf_rack s c (reportFrame s n)
          exact ⟨k, by rw [hk, reportFrame_rack hx]⟩
        · exact ⟨_, reportFrame_rack hx n⟩
      obtain ⟨k, hk⟩ := hrack
      have hsend := settle_of_sending (x := x) (by rw [hk]; exact hx)
      rw [hk] at hsend
      exact hsend
    · rw [exec_eq_onFrame hc, act_excluded (by simp [onFrame, hf])] at h
      cases h
      exact ⟨hx, rfl⟩
  · rw [exec_eq_onFrame hc, act_unpowered (Bool.eq_false_of_not_eq_true hp)] at h
    cases h
    exact ⟨hx, rfl⟩

/-- An outcome of a frame whose item has left its producer is reported to nobody (R31). -/
theorem exec_frameSent_gone {t : State} {x : Sending} (hp : t.startup.powered = true) (hx : t.rack.sending = some x)
    (hgone : t.isLive x.frame.cls.toNat x.tag = false) :
    exec .frameSent t = .next (settle { t with rack := { t.rack with rx := .idle, sending := none, retry := none } }) := by
  refine act_next (f := whileSending frameSent) hp ?_
  rw [whileSending, hx]
  have hlive : ({ t with rack := { t.rack with rx := .idle, sending := none, retry := none } } : State).isLive x.frame.cls.toNat x.tag = false :=
    hgone
  exact congrArg some (if_neg (by rw [hlive]; exact Bool.false_ne_true))

/-- Settles O38: reports, then delivery. -/
theorem framesHeard : Obligations.FramesHeard := by
  refine ⟨fun c n s hp hc => ⟨fun hf => ?_, fun hf hn => ?_, fun hf hn hstep => ?_⟩, fun f s hp hf hn hstep => ?_, fun s => ?_,
    fun c n s t x hc hn hx h => ⟨(exec_keeps_sending hc hn hx h).1, (exec_keeps_sending hc hn hx h).2,
      fun hp hgone => exec_frameSent_gone hp (exec_keeps_sending hc hn hx h).1 hgone⟩⟩
  · rw [exec_eq_onFrame hc, act_excluded (by simp [onFrame, hf])]
  · rw [exec_onFrame hc hp (u := duplicateFrame s) (by simp [onFrame, hf, hn])]
    exact (act_onlyIf hp hf).symm
  · rw [exec_onFrame hc hp (onFrame_other hf hn), if_neg (mt (isUp_iff s).1 hstep), reportFrame_eq]
  · intro u
    rw [exec_onFrame (c := .rackFrameOther f) rfl hp (onFrame_other hf hn), if_pos ((isUp_iff s).2 hstep), reportFrame_eq]
    change Host.Outcome.next (settle (deliverReading (readFrame s.slot f) u)) = _
    cases readFrame s.slot f <;> rfl
  · unfold State.received Rack.afterFrame
    cases hx : s.rack.sending with
    | none => simp [hx]
    | some x => simp

end Sys2Proof.Machine
end

section
/-!
PROOF. The outcome of an own frame (R28 to R33): the item finished, kept, or counted toward the drop.
-/

namespace Sys2Proof.Machine

theorem whileSending_of {f : State → Sending → State} {s : State} {x : Sending} (h : s.rack.sending = some x) :
    whileSending f s = some (f s x) := by rw [whileSending, h]

theorem exec_whileSending {f : State → Sending → State} {s : State} {x : Sending} (hp : s.startup.powered = true)
    (h : s.rack.sending = some x) : act (whileSending f) s = .next (settle (f s x)) :=
  act_next hp (whileSending_of h)

theorem finishFrame_gone {s : State} {x : Sending} (h : s.isLive x.frame.cls.toNat x.tag = false) : finishFrame s x = s :=
  if_neg (by rw [h]; exact Bool.false_ne_true)

theorem finishFrame_live {s : State} {x : Sending} (h : s.isLive x.frame.cls.toNat x.tag = true) :
    finishFrame s x = finishItem s x.frame.cls.toNat x.tag x.frame.dst.toNat :=
  if_pos h

theorem retryCount_eq (r : Option Retry) (cls tag : Nat) : retryCount r cls tag =
    match r with
    | some r => if r.cls = cls ∧ r.tag = tag then r.count + 1 else 1
    | none => 1 := rfl

theorem retryItem_eq (s : State) (x : Sending) : retryItem s x =
    if s.isLive x.frame.cls.toNat x.tag = false then s
    else if retryCount s.rack.retry x.frame.cls.toNat x.tag < 8 then
      { s with rack := { s.rack with
        retry := some ⟨x.frame.cls.toNat, x.tag, retryCount s.rack.retry x.frame.cls.toNat x.tag⟩ } }
    else finishFrame { s with
      rack := { s.rack with
        retry := none
        txDrops := min (s.rack.txDrops + 1) 65535 }
      startup := { s.startup with conds := { s.startup.conds with txFault := true } } } x := by
  unfold retryItem
  dsimp only
  cases h : s.isLive x.frame.cls.toNat x.tag with
  | false => rfl
  | true => rfl

/-- The item of a HANDOVER, finished: its HANDING entry goes, or where that is HANDING no longer the item alone (R54). -/
theorem finishHandover_eq {s : State} {tag : Nat} {i : HandingItem} (hi : s.engine.handing.find? (·.tag == tag) = some i) :
    (∀ e, s.engine.lookup i.meterId = some e → e.status = .handing → finishHandover s tag = removeEntry s e) ∧
    ((∀ e, s.engine.lookup i.meterId = some e → e.status ≠ .handing) → finishHandover s tag = dropHandover s tag) := by
  unfold finishHandover
  rw [hi]
  dsimp only
  cases he : s.engine.lookup i.meterId with
  | none => exact ⟨fun e h => (nomatch h), fun _ => rfl⟩
  | some e =>
    refine ⟨fun e' h hs => ?_, fun h => ?_⟩
    · cases h
      exact if_pos hs
    · exact if_neg (h e rfl)

theorem finishReply_eq (s : State) (tag : Nat) :
    (∀ d, s.dock.session.data = some d → d.tag = tag → finishReply s tag = finishUpload s d.number) ∧
    ((∀ d, s.dock.session.data = some d → d.tag ≠ tag) →
      finishReply s tag = { s with dock := { s.dock with replies := s.dock.replies.filter (·.tag != tag) } }) := by
  unfold finishReply
  cases hd : s.dock.session.data with
  | none => exact ⟨fun d h => (nomatch h), fun _ => rfl⟩
  | some d =>
    refine ⟨fun d' h ht => ?_, fun h => if_neg (h d rfl)⟩
    cases h
    exact if_pos ht

/-- An item finished, class by class (R31). -/
theorem finishItem_eq (s : State) (tag dst : Nat) :
    finishItem s 2 tag dst = { s with presence := { s.presence with item := none } } ∧
    finishItem s 3 tag dst = { s with relay := { s.relay with heldPending := s.relay.heldPending.filter (·.tag != tag) } } ∧
    finishItem s 5 tag dst = { s with relay := { s.relay with list := s.relay.list.map fun e =>
      if e.tag = tag then { e with
        sends := e.sends + 1
        lastSend := some s.now
        target := some dst
        phase := .waiting } else e } } ∧
    finishItem s 6 tag dst = { s with engine := { s.engine with notices := s.engine.notices.filter (·.tag != tag) } } ∧
    finishItem s 7 tag dst = { s with tracker := { s.tracker with tallies := s.tracker.tallies.filter (·.tag != tag) } } ∧
    finishItem s 9 tag dst = { s with tracker := { s.tracker with reply := none } } ∧
    finishItem s 4 tag dst = finishHandover s tag ∧ finishItem s 11 tag dst = finishReply s tag :=
  ⟨rfl, rfl, rfl, rfl, rfl, rfl, rfl, rfl⟩

/-- Settles O39: outcome by outcome, and class by class. -/
theorem ownFramesSettled : Obligations.OwnFramesSettled := by
  refine ⟨fun s x hp hx => ⟨exec_whileSending hp hx, exec_whileSending hp hx, fun atStart => ?_⟩, fun s x => finishFrame_gone, fun s e => ?_,
    fun s x hlive => ?_⟩
  · exact (exec_whileSending (f := transmitError atStart) hp hx).trans (by rw [transmitError, retryItem_eq]; rfl)
  · rw [removeEntry_frame]
    unfold giveKept
    cases e.kept with
    | none => rfl
    | some b =>
      have hframe := (onlyAppends_of_apart (appendOrDrop_apart s b)).2
      dsimp only
      generalize appendOrDrop s b = v at hframe ⊢
      rw [hframe]
      rfl
  · rw [finishFrame_live hlive]
    obtain ⟨h2, h3, h5, h6, h7, h9, h4, h11⟩ := finishItem_eq s x.tag x.frame.dst.toNat
    have hcls {c : BitVec 4} (h : x.frame.cls = c) : x.frame.cls.toNat = c.toNat := congrArg BitVec.toNat h
    refine ⟨fun h => ?_, fun h => ?_, fun h => ?_, fun h => ?_, fun h => ?_, fun h => ?_, fun h i hi => ?_, fun h d hd ht => ?_, fun h hd => ?_⟩
    all_goals rw [hcls h]
    · exact h2
    · exact h3
    · exact h5
    · exact h6
    · exact h7
    · exact h9
    · rw [show (4 : BitVec 4).toNat = 4 from rfl, h4]
      exact finishHandover_eq hi
    · rw [show (11 : BitVec 4).toNat = 11 from rfl, h11]
      exact (finishReply_eq s x.tag).1 d hd ht
    · rw [show (11 : BitVec 4).toNat = 11 from rfl, h11]
      exact (finishReply_eq s x.tag).2 hd

end Sys2Proof.Machine
end

section
/-!
PROOF. Runs opened (R138 to R140), positions (R146, R149), queries (R152, R193), presence (R38 to R42) and the peers' readings (R125 to R133).
-/

namespace Sys2Proof.Machine

/-! ## Frames delivered -/

theorem exec_console {c : Instr} {d : State → State} {s : State} (h : Hears s 10) (hc : exec c s = act (onFrame 10 d) s) :
    exec c s = .next (settle (d s.received)) :=
  hc.trans (hears_act h (by decide))

theorem exec_navigation {c : Instr} {d : State → State} {s : State} (h : Hears s 9) (hc : exec c s = act (onFrame 9 d) s) :
    exec c s = .next (settle (d s.received)) :=
  hc.trans (hears_act h (by decide))

/-! ## RUN OPEN (R138 to R140) -/

theorem acceptRun_frame (s : State) : acceptRun s = { s with
    tracker := s.tracker.startRun
    dock := (endSession s).dock
    store := (endSession s).store } := rfl

theorem orphanUploadRead_eq (st : Store) : st.orphanUploadRead = { st with serving := match st.serving with
    | some (.uploadRead _) => some (.uploadRead false)
    | x => x } := by
  match st with
  | { serving := none, .. } => rfl
  | { serving := some v, .. } => cases v <;> rfl

theorem endSession_eq (s : State) : endSession s = { s with
    dock := { s.dock with session := { s.dock.session with
      state := .none
      readPos := none
      synthList := []
      toSynth := []
      pauseSince := none
      data := none
      ask := none
      numberWait := false } }
    store := { s.store with serving := match s.store.serving with
      | some (.uploadRead _) => some (.uploadRead false)
      | x => x } } := by
  rw [endSession, orphanUploadRead_eq]
  rfl

/-- After the session's end an item of class 11 is live only as a reply. -/
theorem endSession_isLive_reply (u : State) {tag : Nat} (h : ∀ r ∈ u.dock.replies, r.tag ≠ tag) : (endSession u).isLive 11 tag = false := by
  have hnone : u.dock.replies.any (·.tag == tag) = false := by simpa using h
  change (u.dock.replies.any (·.tag == tag) || false) = false
  rw [hnone]
  rfl

/-- The judgement of R138. -/
theorem deliverOpen_eq (run day : BitVec 16) (u : State) : deliverOpen run day u =
    match u.engine.runState, u.engine.openingRun with
    | some .ready, none =>
      if run = 0 then rejectRun u
      else match u.engine.interrupted with
        | some m => if m.run = run then resumeRun m day u else openNewRun run day u
        | none => openNewRun run day u
    | some .ready, some r => if r = run then u else rejectRun u
    | some .rebuilding, _ | some .running, _ => if u.engine.currentRun = some run then u else rejectRun u
    | _, _ => u := rfl

/-- What a resume sets before its recomputation (R140). -/
theorem resumeRun_frame (m : Interrupted) (day : BitVec 16) (u : State) :
    let t := resumeRun m day u
    t.rack = u.rack ∧ t.engine.runState = some .rebuilding ∧ t.engine.currentRun = some m.run ∧ t.engine.runDay = day ∧
    t.engine.interrupted = none ∧ t.engine.requests = u.engine.requests ++ [.resetRebuild m] ∧ t.dock = (endSession u).dock ∧
    t.tracker = u.tracker.startRun := by
  generalize hv : ({ acceptRun u with engine := { (acceptRun u).engine with
    currentRun := some m.run
    runDay := day
    interrupted := none } } : State) = v
  have hrack : v.rack = u.rack := hv ▸ rfl
  have hrun : v.engine.currentRun = some m.run := hv ▸ rfl
  have hday : v.engine.runDay = day := hv ▸ rfl
  have hint : v.engine.interrupted = none := hv ▸ rfl
  have hreq : v.engine.requests = u.engine.requests := hv ▸ rfl
  have hdock : v.dock = (endSession u).dock := hv ▸ rfl
  have htracker : v.tracker = u.tracker.startRun := hv ▸ rfl
  have hframe := recompute_frame { v with engine := { v.engine with runState := some .rebuilding } }
  have hr : resumeRun m day u =
      requestStation (recompute { v with engine := { v.engine with runState := some .rebuilding } }) (.resetRebuild m) := by
    rw [← hv]
    rfl
  dsimp only
  rw [hr, ← hrack, ← hrun, ← hday, ← hint, ← hreq, ← hdock, ← htracker]
  unfold requestStation
  generalize recompute { v with engine := { v.engine with runState := some .rebuilding } } = t at hframe ⊢
  dsimp only at hframe ⊢
  rw [hframe]
  exact ⟨rfl, rfl, rfl, rfl, rfl, rfl, rfl, rfl⟩

/-- Settles O40: the branches of the judgement, and what an accepted open sets. -/
theorem runOpenJudged : Obligations.RunOpenJudged := by
  refine ⟨fun run day s h => ?_, fun run day u => rfl, endSession_eq, fun u tag => endSession_isLive_reply u, resumeRun_frame⟩
  rw [exec_console (c := .runOpen run day) (d := deliverOpen run day) h rfl, deliverOpen_eq]
  rfl

/-! ## POSITION (R146, R149) -/

theorem isRunning_iff (s : State) : s.isRunning = true ↔ s.engine.runState = some .running := beq_iff_eq

theorem leftBehind_eq (p l : Nat) (r : SegmentRow) : r.leftBehind p l = decide (r.state = .opened ∧ r.segment + l ≤ p) := by
  rw [SegmentRow.leftBehind, Bool.decide_and, beq_eq_decide]

theorem deliverPosition_eq (valid : Byte) (segment : BitVec 16) (u : State) : deliverPosition valid segment u =
    if u.engine.runState = some .running ∧ valid = 1 then takePosition segment.toNat u else u := by
  unfold deliverPosition
  congr 1
  rw [Bool.and_eq_true, isRunning_iff, beq_iff_eq]

theorem takePosition_eq (segment : Nat) (u : State) :
    let p := min segment (u.tracker.rows.length - 1)
    let l := u.settings.lookback
    let opened := u.tracker.rows.map fun r => if r.state = .ahead ∧ r.segment ≤ p then { r with state := .opened } else r
    let left := fun (r : SegmentRow) => decide (r.state = .opened ∧ r.segment + l ≤ p)
    takePosition segment u = { u with
      tracker := { u.tracker with
        segment := p
        watchdog := some u.now
        stale := false
        rows := opened.map fun r => if left r then { r with state := .closed } else r }
      engine := { u.engine with
        requests := u.engine.requests ++ (opened.filter left).map fun r => StationReq.closure r.segment } } := by
  intro p l opened left
  have hleft : (fun r : SegmentRow => r.leftBehind p l) = left := funext (leftBehind_eq p l)
  have hpass : SegmentRow.pass p l = fun r => if left r then { r with state := .closed } else r := by
    funext r
    rw [SegmentRow.pass, ← hleft]
  have hclosures : ((opened.filter left).map (·.segment)).map StationReq.closure =
      (opened.filter left).map fun r => StationReq.closure r.segment := List.map_map
  unfold takePosition requestClosures
  dsimp only
  rw [← hclosures, ← hpass, ← hleft]
  rfl

theorem watchdogOver_iff (s : State) :
    s.watchdogOver = true ↔ ∃ t, s.tracker.watchdog = some t ∧ s.settings.positionTimeout ≤ (s.now - t).toNat := by
  unfold State.watchdogOver elapsed
  cases s.tracker.watchdog <;> simp

/-- Settles O42: what a valid POSITION in RUNNING sets, and what the watchdog's expiry does. -/
theorem positionFollowed : Obligations.PositionFollowed := by
  refine ⟨fun valid segment s h => ?_, fun s t hp hr ht hover => ?_⟩
  · rw [exec_navigation (c := .position valid segment) (d := deliverPosition valid segment) h rfl, deliverPosition_eq, takePosition_eq]
    rfl
  · exact act_onlyIf (c := fun s => s.isRunning && s.watchdogOver) (f := watchdogExpires) hp
      (Bool.and_eq_true_iff.2 ⟨(isRunning_iff s).2 hr, (watchdogOver_iff s).2 ⟨t, ht, hover⟩⟩)

/-! ## QUERY (R152, R193) -/

theorem sendsRevisit_iff (r : Rack) : r.sendsRevisit = true ↔ ∃ x, r.sending = some x ∧ x.frame.cls = 9 := by
  unfold Rack.sendsRevisit
  cases r.sending <;> simp

theorem sendsRevisit_of_silent {r : Rack} (h : r.sending = none) : r.sendsRevisit = false := by
  rw [Rack.sendsRevisit, h]

theorem deliverRevisit_waits {start : BitVec 16} {s : State} (h : s.rack.sendsRevisit = true) :
    deliverRevisit start s = { s with tracker := { s.tracker with query := some start } } := if_pos h

theorem deliverRevisit_asks {start : BitVec 16} {s : State} (h : s.rack.sendsRevisit = false) :
    deliverRevisit start s = askRevisit start s := if_neg (by rw [h]; exact Bool.false_ne_true)

/-- A LIST REVISIT row and a QUERY frame that reads as one are the same command. -/
theorem exec_revisitFrame {f : RackFrame} {start : BitVec 16} {s : State} (h : Hears s 10) (hsrc : f.src = 10)
    (hread : readFrame s.slot f = .delivered (.listRevisit start)) :
    exec (.rackFrameOther f) s = .next (settle (deliverRevisit start s.received)) := by
  have hact : exec (.rackFrameOther f) s = act (onFrame 10 (deliverRevisit start)) s := by
    change act (fun s => onFrame f.src.toNat (deliverReading (readFrame s.slot f)) s) s = _
    unfold act
    dsimp only
    rw [hread, hsrc]
    rfl
  rw [hact]
  exact hears_act h (by decide)

/-- A REVISIT item is live as the reply pending of its tag. -/
theorem isLive_revisit_iff (s : State) (tag : Nat) : s.isLive 9 tag = true ↔ ∃ r, s.tracker.reply = some r ∧ r.tag = tag := by
  change ((s.tracker.reply.map (·.tag)) == some tag) = true ↔ _
  cases s.tracker.reply <;> simp

theorem finishFrame_revisit {s : State} {x : Sending} (hcls : x.frame.cls = 9) (hlive : s.isLive 9 x.tag = true) :
    finishFrame s x = { s with tracker := { s.tracker with reply := none } } := by
  have hnat : x.frame.cls.toNat = 9 := by rw [hcls]; rfl
  rw [finishFrame_live (by rw [hnat]; exact hlive), hnat]
  rfl

/-- The frame on the bus has its outcome: the query that waits takes the reply still pending, or makes a new one. -/
theorem query_taken {u : State} {start : BitVec 16} {tag : Nat} (hs : u.rack.sending = none) (hq : u.tracker.query = some start)
    (hlive : u.isLive 9 tag = true) :
    (settle u).tracker.reply = some ⟨tag, start⟩ ∧ (settle u).tracker.query = none := by
  obtain ⟨hnone, tag', hreply, -, hold⟩ := settle_answers (sendsRevisit_of_silent hs) hq
  obtain ⟨r, hr, rfl⟩ := (isLive_revisit_iff u tag).1 hlive
  rw [hold r hr] at hreply
  exact ⟨hreply, hnone⟩

theorem query_renewed {u : State} {start : BitVec 16} (hs : u.rack.sending = none) (hq : u.tracker.query = some start)
    (hr : u.tracker.reply = none) :
    ∃ tag, u.nextTag ≤ tag ∧ (settle u).tracker.reply = some ⟨tag, start⟩ ∧ (settle u).tracker.query = none := by
  obtain ⟨hnone, tag, hreply, hnew, -⟩ := settle_answers (sendsRevisit_of_silent hs) hq
  exact ⟨tag, hnew hr, hreply, hnone⟩

theorem revisitSent {s : State} {x : Sending} {start : BitVec 16} (hp : s.startup.powered = true) (hx : s.rack.sending = some x)
    (hcls : x.frame.cls = 9) (hlive : s.isLive 9 x.tag = true) (hq : s.tracker.query = some start) :
    ∃ t tag, exec .frameSent s = .next t ∧ s.nextTag ≤ tag ∧ t.tracker.reply = some ⟨tag, start⟩ ∧ t.tracker.query = none := by
  obtain ⟨tag, htag, hreply, hquery⟩ := query_renewed (u := { s with
    rack := { s.rack with
      rx := .idle
      sending := none
      retry := none }
    tracker := { s.tracker with reply := none } }) (start := start) rfl hq rfl
  refine ⟨_, tag, (exec_whileSending (f := frameSent) hp hx).trans ?_, htag, hreply, hquery⟩
  rw [frameSent, finishFrame_revisit (s := { s with rack := { s.rack with
    rx := .idle
    sending := none
    retry := none } }) hcls hlive]

theorem revisitInterrupted {s : State} {x : Sending} {start : BitVec 16} (hp : s.startup.powered = true) (hx : s.rack.sending = some x)
    (hcls : x.frame.cls = 9) (hlive : s.isLive 9 x.tag = true) (hq : s.tracker.query = some start) (atStart : Bool) :
    ∃ t tag, exec (.transmitError atStart) s = .next t ∧ t.tracker.reply = some ⟨tag, start⟩ ∧ t.tracker.query = none ∧
      (∀ n, s.rack.retry = some ⟨9, x.tag, n⟩ → 7 ≤ n → s.nextTag ≤ tag) ∧
      ((∀ n, s.rack.retry = some ⟨9, x.tag, n⟩ → n < 7) → tag = x.tag) := by
  have hnat : x.frame.cls.toNat = 9 := by rw [hcls]; rfl
  refine ⟨settle (transmitError atStart s x), ?_⟩
  have hexec : exec (.transmitError atStart) s = .next (settle (transmitError atStart s x)) :=
    exec_whileSending (f := transmitError atStart) hp hx
  rw [transmitError, retryItem_eq, hnat] at hexec ⊢
  generalize hu : ({ s with rack := { s.rack with
    rx := if atStart then .idle else .ownSpoiled
    sending := none
    txErrors := countUp s.rack.txErrors } } : State) = u at hexec ⊢
  have hlive' : u.isLive 9 x.tag = true := hu ▸ hlive
  have hretry : u.rack.retry = s.rack.retry := hu ▸ rfl
  have hsending : u.rack.sending = none := hu ▸ rfl
  have hquery : u.tracker.query = some start := hu ▸ hq
  have htag : u.nextTag = s.nextTag := hu ▸ rfl
  rw [hretry, if_neg (by rw [hlive']; exact Bool.noConfusion)] at hexec ⊢
  by_cases hcount : retryCount s.rack.retry 9 x.tag < 8
  · rw [if_pos hcount] at hexec ⊢
    obtain ⟨hr, hn⟩ := query_taken (u := { u with rack := { u.rack with
      retry := some ⟨9, x.tag, retryCount s.rack.retry 9 x.tag⟩ } }) hsending hquery hlive'
    refine ⟨x.tag, hexec, hr, hn, fun n h hle => ?_, fun _ => rfl⟩
    rw [h, retryCount_eq] at hcount
    dsimp only at hcount
    rw [if_pos ⟨rfl, rfl⟩] at hcount
    omega
  · rw [if_neg hcount, finishFrame_revisit (s := { u with
      rack := { u.rack with
        retry := none
        txDrops := min (u.rack.txDrops + 1) 65535 }
      startup := { u.startup with conds := { u.startup.conds with txFault := true } } }) hcls hlive'] at hexec ⊢
    obtain ⟨tag, hle, hr, hn⟩ := query_renewed (u := { u with
      rack := { u.rack with
        retry := none
        txDrops := min (u.rack.txDrops + 1) 65535 }
      startup := { u.startup with conds := { u.startup.conds with txFault := true } }
      tracker := { u.tracker with reply := none } }) hsending hquery rfl
    refine ⟨tag, hexec, hr, hn, fun n _ _ => htag ▸ hle, fun hall => absurd ?_ hcount⟩
    rw [retryCount_eq]
    cases hs : s.rack.retry with
    | none => exact (by decide : 1 < 8)
    | some r =>
      dsimp only
      by_cases hsame : r.cls = 9 ∧ r.tag = x.tag
      · have hn := hall r.count (by rw [hs, ← hsame.1, ← hsame.2])
        rw [if_pos hsame]
        omega
      · rw [if_neg hsame]
        decide

/-- A query waits only while a REVISIT frame is on the bus: the end of a command answers it, and nothing else touches either (R152). -/
theorem exec_queryLaw {c : Instr} {s t : State} (h : QueryLaw s) (ht : exec c s = .next t) : QueryLaw t := by
  by_cases hstart : ∃ x, c = .start x
  · obtain ⟨x, rfl⟩ := hstart
    rcases start_next ht with rfl | rfl <;> exact fun hq => absurd hq Bool.false_ne_true
  by_cases hloss : c = .powerLoss
  · subst hloss
    rcases powerLoss_next ht with rfl | rfl
    · exact h
    · exact fun hq => absurd hq Bool.false_ne_true
  cases exec_answered ht (fun x hx => hstart ⟨x, hx⟩) hloss with
  | same => exact h
  | character data parity stop => exact h
  | lineHigh => exact h
  | settled hu => exact settle_queryLaw _

theorem step_queryLaw {s t : State} (h : QueryLaw s) (ht : step s = .next t) : QueryLaw t := by
  unfold step at ht
  split at ht
  · cases ht
    unfold tick
    split
    · exact h
    · exact h
  · next c rest _ => exact exec_queryLaw (s := { s with pending := rest }) h ht

/-- Settles O43: the row's branches, the frame's outcomes, and the clear. -/
theorem queriesAnswered : Obligations.QueriesAnswered := by
  refine ⟨fun start s h hidle => ?_, fun start s x h hx hcls => ?_, fun start s x hp hx hcls hlive hq =>
    ⟨revisitSent hp hx hcls hlive hq, ?_, revisitInterrupted hp hx hcls hlive hq⟩, fun s t => step_queryLaw, fun s h => ?_, fun s => ?_,
    fun s => rfl⟩
  · have hsends : s.received.rack.sendsRevisit = false := by
      rw [← Bool.not_eq_true, sendsRevisit_iff]
      rintro ⟨x, hx, hcls⟩
      exact hidle x (by simpa [State.received] using hx) hcls
    rw [exec_console (c := .listRevisit start) (d := deliverRevisit start) h rfl, deliverRevisit_asks hsends]
    unfold askRevisit
    cases hr : s.tracker.reply with
    | none => simp only [State.received, hr]
    | some r => simp only [State.received, hr]
  · have hrack : s.received.rack = s.rack := afterFrame_of_sending hx
    have hsends : s.rack.sendsRevisit = true := (sendsRevisit_iff _).2 ⟨x, hx, hcls⟩
    have hu : deliverRevisit start s.received = { s with
        startup := { s.startup with conds := { s.startup.conds with fresh := false } }
        tracker := { s.tracker with query := some start } } := by
      rw [deliverRevisit_waits (by rw [hrack]; exact hsends), State.received, afterFrame_of_sending hx]
    have hbus := settle_of_sendsRevisit (s := { s with
      startup := { s.startup with conds := { s.startup.conds with fresh := false } }
      tracker := { s.tracker with query := some start } }) hsends
    have hrx := settle_of_sending (s := { s with
      startup := { s.startup with conds := { s.startup.conds with fresh := false } }
      tracker := { s.tracker with query := some start } }) hx
    exact ⟨(exec_console (c := .listRevisit start) (d := deliverRevisit start) h rfl).trans (by rw [hu]),
      fun f hsrc hread => (exec_revisitFrame h hsrc hread).trans (by rw [hu]), hrx.1, hrx.2, hbus.2.1, hbus.2.2⟩
  · obtain ⟨hr, hn⟩ := query_taken (u := arbitrationLost s x) (start := start) (tag := x.tag) rfl hq hlive
    exact ⟨_, exec_whileSending hp hx, hr, hn⟩
  · exact exec_console (c := .queryClearConditions) (d := clearConditions) h rfl
  · have hfull : (!s.queuesNotFull) = (decide (16 ≤ s.radio.queue.length) || decide (8 ≤ s.engine.relayQueue.length)) := by
      rw [State.queuesNotFull, Bool.not_and, ← decide_not, ← decide_not]
      simp only [not_lt]
      rfl
    rw [clearConditions, hfull, State.answersStale, State.isRunning, beq_eq_decide]

/-! ## PRESENCE and the presence timers (R38 to R42) -/

theorem presenceDue_of {s : State} {d : Time} (ht : s.presence.timer = some d) (h : 500 ≤ (s.now - (d - 500)).toNat) :
    s.presenceDue = true := by
  unfold State.presenceDue
  rw [ht]
  exact decide_eq_true h

theorem presenceExpires_eq {s : State} {d : Time} (ht : s.presence.timer = some d) : presenceExpires s =
    match s.presence.item with
    | some _ => { s with presence := { s.presence with timer := some (d + 500) } }
    | none => { s with
      presence := { s.presence with
        timer := some (d + 500)
        item := some s.nextTag }
      nextTag := s.nextTag + 1 } := by
  have hd : (some d).map (· + BitVec.ofNat 32 Config.presencePeriod) = some (d + 500) := rfl
  unfold presenceExpires
  rw [ht, hd] <;> rfl

theorem absent_of {s : State} {n : Nat} {v : ViewEntry} (hv : s.presence.entry n = some v) (h : 2000 ≤ (s.now - v.lastHeard).toNat) :
    s.absent n = true := by
  unfold State.absent
  rw [hv]
  exact decide_eq_true h

theorem not_participates_of_absent {s : State} {n : Nat} {v : ViewEntry} (hv : s.presence.entry n = some v)
    (h : 2000 ≤ (s.now - v.lastHeard).toNat) : s.participates n = false := by
  rw [← Bool.not_eq_true, participates_iff]
  rintro ⟨w, hw, hlt, -⟩
  cases hv.symm.trans hw
  omega

theorem presumptionOver_of {s : State} {n : Nat} {v : ViewEntry} {d : Time} (hv : s.presence.entry n = some v) (hd : v.presumed = some d)
    (h : 2000 ≤ (s.now - (d - 2000)).toNat) : s.presumptionOver n = true := by
  unfold State.presumptionOver
  rw [hv]
  dsimp only
  rw [hd]
  exact decide_eq_true h

/-- Settles O44: a PRESENCE recomputes at its heard report and at its delivery; each timer has its one effect. -/
theorem presenceFollowed : Obligations.PresenceFollowed := by
  refine ⟨fun src payload s h hc => ?_, fun s d hp ht hdue => ?_, fun slot s v hp hv habsent => ⟨?_, not_participates_of_absent hv habsent⟩,
    fun slot s v d hp hv hd hover => ?_⟩
  · exact hears_act_peer (d := fun s => deliverPresence s src.toNat payload) h hc
  · exact (act_onlyIf (c := State.presenceDue) (f := presenceExpires) hp (presenceDue_of ht hdue)).trans
      (congrArg (fun u => Host.Outcome.next (settle u)) (presenceExpires_eq ht))
  · exact act_onlyIf (c := fun s => s.absent slot.toNat) (f := recompute) hp (absent_of hv habsent)
  · exact act_onlyIf (c := fun s => s.presumptionOver slot.toNat) (f := fun s => presumptionExpires s slot.toNat) hp
      (presumptionOver_of hv hd hover)

/-! ## HELD, RELAY and HANDOVER (R124 to R133) -/

theorem enterHeld_eq (p : HeldPair) (l : List HeldPair) : enterHeld p l =
    if p ∈ l then l else if l.length < 32 then l ++ [p] else l.tail ++ [p] := by
  unfold enterHeld
  simp only [List.contains_iff_mem, List.drop_one]
  refine ite_congr rfl (fun _ => rfl) fun _ => ?_
  by_cases h : l.length < 32
  · rw [if_pos h, if_neg (by change ¬ 32 ≤ l.length; omega)]
  · rw [if_neg h, if_pos (by change 32 ≤ l.length; omega)]

theorem deliverHeld_eq (p : HeldPair) (s : State) :
    let u := raceReading s
    deliverHeld p s = { u with relay := { u.relay with
      list := u.relay.list.filter fun e => e.packet.pair != p
      confirmed := if ∃ e ∈ u.relay.list, e.packet.pair = p then min (u.relay.confirmed + 1) 65535 else u.relay.confirmed
      heldPending := u.relay.heldPending.filter fun i => i.pair != p
      heldMemory :=
        if p ∈ u.relay.heldMemory then u.relay.heldMemory
        else if u.relay.heldMemory.length < 32 then u.relay.heldMemory ++ [p]
        else u.relay.heldMemory.tail ++ [p] } } := by
  have hany : ((raceReading s).relay.list.any fun e => e.packet.pair == p) = true ↔
      ∃ e ∈ (raceReading s).relay.list, e.packet.pair = p := by simp
  unfold deliverHeld
  dsimp only
  rw [enterHeld_eq]
  simp only [hany, countUp]
  rfl

/-- After a HELD no RELAY of its pair is pending (R132). -/
theorem deliverHeld_isLive {p : HeldPair} {u : State} {tag : Nat} (h : ∀ e ∈ u.relay.list, e.tag = tag → e.packet.pair = p) :
    (deliverHeld p u).isLive 5 tag = false := by
  have hlist : (raceReading u).relay.list = u.relay.list := by rw [raceReading_relay]
  rw [deliverHeld_eq]
  change (((raceReading u).relay.list.filter fun e => e.packet.pair != p).any fun e => e.tag == tag) = false
  rw [hlist, List.any_eq_false]
  intro e he htag
  obtain ⟨hmem, hpair⟩ := List.mem_filter.1 he
  exact bne_iff_ne.1 hpair (h e hmem (beq_iff_eq.1 htag))

theorem deliverRelayItem_eq (i : RelayItem) (u : State) : deliverRelayItem i u =
    if u.engine.runState ≠ some .running then
      { u with engine := { u.engine with relayOutOfRun := min (u.engine.relayOutOfRun + 1) 65535 } }
    else if u.engine.relayQueue.length < 8 then { u with engine := { u.engine with relayQueue := u.engine.relayQueue ++ [i] } }
    else { u with
      engine := { u.engine with relayOverrun := min (u.engine.relayOverrun + 1) 65535 }
      startup := { u.startup with conds := { u.startup.conds with intakeOverrun := true } } } := by
  have hrun : (!u.isRunning) = true ↔ u.engine.runState ≠ some .running := by rw [Bool.not_eq_true', ← Bool.not_eq_true, isRunning_iff]
  unfold deliverRelayItem
  simp only [hrun]
  rfl

theorem waitOver_of {e : RelayEntry} {now t : Time} (hphase : e.phase = .waiting) (ht : e.lastSend = some t) (h : 250 ≤ (now - t).toNat) :
    e.waitOver now = true := by
  unfold RelayEntry.waitOver
  rw [hphase, ht]
  exact decide_eq_true h

theorem expireWait_eq (s : State) (e : RelayEntry) : expireWait s e =
    if e.sends < 3 then { s with relay := { s.relay with list := s.relay.list.map fun x =>
      if x.tag = e.tag then { x with phase := .due } else x } }
    else
      let u := appendOrDrop s (unconfirmedRecord s e.packet e.segment e.stale e.target)
      { u with relay := { u.relay with
        list := u.relay.list.filter (·.tag != e.tag)
        unconfirmed := min (u.relay.unconfirmed + 1) 65535 } } := rfl

/-- Settles O45: HELD over the three collections, the admission of R128, and the end of a wait. -/
theorem peerReadingsTaken : Obligations.PeerReadingsTaken := by
  refine ⟨fun src m c s h hc => ?_, fun p u tag h => ⟨deliverHeld_isLive h, deliverHeld_rack p u⟩, fun src p handover s h hc => ⟨?_, ?_⟩,
    fun s m c e t hp he hphase hlast hover => ?_⟩
  · exact (hears_act_peer (d := deliverHeld ⟨m, c⟩) h hc).trans (by rw [deliverHeld_eq])
  · exact (hears_act_peer (d := deliverRelayItem (.relay src.toNat p)) h hc).trans (by rw [deliverRelayItem_eq])
  · exact (hears_act_peer (d := deliverRelayItem (.handover handover)) h hc).trans (by rw [deliverRelayItem_eq])
  · refine act_next (f := relayWaitExpires ⟨m, c⟩) hp ?_
    rw [relayWaitExpires, he]
    dsimp only
    rw [waitOver_of hphase hlast hover, ite_not, expireWait_eq]
    rfl

end Sys2Proof.Machine
end

section
/-!
PROOF. A run closed (R142): the packet queues emptied, adoption and a rebuild ended, the relay list disposed of, the segments closed.
-/

namespace Sys2Proof.Machine

/-! ## Self-stores in turn (R127) -/

/-- A RELAY-UNCONFIRMED record takes the run number alone from the state. -/
theorem unconfirmedRecord_congr {s t : State} (h : s.engine.currentRun = t.engine.currentRun) : unconfirmedRecord s = unconfirmedRecord t := by
  funext p segment stale target
  rw [unconfirmedRecord, unconfirmedRecord, State.runNumber, State.runNumber, h]

/-- Appends on two states whose stores differ in what the flash serves. -/
theorem foldl_appendOrDrop_orphaned (l : List RecordBody) {s t : State} {x : Option Serving}
    (hstore : s.store = { t.store with serving := x }) (hstartup : s.startup = t.startup) :
    (l.foldl appendOrDrop s).store = { (l.foldl appendOrDrop t).store with serving := x } ∧
    (l.foldl appendOrDrop s).startup = (l.foldl appendOrDrop t).startup := by
  have h := foldl_appendOrDrop_congr l (s := s) (t := { t with store := { t.store with serving := x } }) ⟨hstore, hstartup⟩
  rw [foldl_appendOrDrop_withServing l t x] at h
  exact h

theorem foldl_selfStoreEntry (l : List RelayEntry) (s : State) : l.foldl selfStoreEntry s = { s with
    relay := { s.relay with unconfirmed := countUp^[l.length] s.relay.unconfirmed }
    store := ((l.map (entryRecord s)).foldl appendOrDrop s).store
    startup := ((l.map (entryRecord s)).foldl appendOrDrop s).startup } := by
  induction l generalizing s with
  | nil => rfl
  | cons e l ih =>
    have hrecords : entryRecord (selfStoreEntry s e) = entryRecord s := by
      rw [selfStoreEntry, selfStore_eq]
      exact entryRecord_congr rfl
    have hsame : (selfStoreEntry s e).store = (appendOrDrop s (entryRecord s e)).store ∧
        (selfStoreEntry s e).startup = (appendOrDrop s (entryRecord s e)).startup := ⟨rfl, rfl⟩
    have happends := foldl_appendOrDrop_congr (l.map (entryRecord s)) hsame
    rw [List.foldl_cons, ih, hrecords, happends.1, happends.2, selfStoreEntry, selfStore_eq]
    rfl

theorem disposeRelays_eq (s : State) : disposeRelays s = { s with
    relay := { s.relay with
      list := []
      unconfirmed := countUp^[s.relay.list.length] s.relay.unconfirmed }
    store := ((s.relay.list.map (entryRecord s)).foldl appendOrDrop s).store
    startup := ((s.relay.list.map (entryRecord s)).foldl appendOrDrop s).startup } := by
  rw [disposeRelays, foldl_selfStoreEntry]

/-! ## The packet queues emptied (R12, R129) -/

/-- The records of the moved items of the relay intake queue. -/
def movedRecords (s : State) (l : List RelayItem) : List RecordBody := l.filterMap fun i => match i with
  | .moved p segment stale => some (unconfirmedRecord s p segment stale none)
  | _ => none

theorem movedRecords_congr {s t : State} (h : s.engine.currentRun = t.engine.currentRun) : movedRecords s = movedRecords t := by
  funext l
  rw [movedRecords, movedRecords, unconfirmedRecord_congr h]

theorem movedRecords_length_le (s : State) (l : List RelayItem) : (movedRecords s l).length ≤ l.length := List.length_filterMap_le _ _

theorem foldl_emptyRelayItem (l : List RelayItem) (s : State) : l.foldl emptyRelayItem s = { s with
    engine := { s.engine with relayOutOfRun := countUp^[l.length - (movedRecords s l).length] s.engine.relayOutOfRun }
    relay := { s.relay with unconfirmed := countUp^[(movedRecords s l).length] s.relay.unconfirmed }
    store := ((movedRecords s l).foldl appendOrDrop s).store
    startup := ((movedRecords s l).foldl appendOrDrop s).startup } := by
  induction l generalizing s with
  | nil => rfl
  | cons i l ih =>
    have hle := movedRecords_length_le s l
    have hother (v : State) (hv : v = { s with engine := { s.engine with relayOutOfRun := countUp s.engine.relayOutOfRun } })
        (hi : emptyRelayItem s i = v) (hm : movedRecords s (i :: l) = movedRecords s l) :
        (i :: l).foldl emptyRelayItem s = { s with
          engine := { s.engine with
            relayOutOfRun := countUp^[(i :: l).length - (movedRecords s (i :: l)).length] s.engine.relayOutOfRun }
          relay := { s.relay with unconfirmed := countUp^[(movedRecords s (i :: l)).length] s.relay.unconfirmed }
          store := ((movedRecords s (i :: l)).foldl appendOrDrop s).store
          startup := ((movedRecords s (i :: l)).foldl appendOrDrop s).startup } := by
      have hrecords : movedRecords v = movedRecords s := movedRecords_congr (hv ▸ rfl)
      have hsame : v.store = s.store ∧ v.startup = s.startup := hv ▸ ⟨rfl, rfl⟩
      have happends := foldl_appendOrDrop_congr (movedRecords s l) hsame
      have hcount : (i :: l).length - (movedRecords s l).length = (l.length - (movedRecords s l).length) + 1 := by
        rw [List.length_cons]
        omega
      rw [List.foldl_cons, hi, ih, hrecords, happends.1, happends.2, hm, hcount, Function.iterate_succ_apply, hv]
    cases i with
    | relay src p => exact hother _ rfl rfl rfl
    | handover p => exact hother _ rfl rfl rfl
    | moved p segment stale =>
      have hm : movedRecords s (.moved p segment stale :: l) = unconfirmedRecord s p segment stale none :: movedRecords s l := rfl
      have hi : emptyRelayItem s (.moved p segment stale) = selfStore s p segment stale none := rfl
      have hrecords : movedRecords (selfStore s p segment stale none) = movedRecords s := movedRecords_congr (by rw [selfStore_eq])
      have hsame : (selfStore s p segment stale none).store = (appendOrDrop s (unconfirmedRecord s p segment stale none)).store ∧
          (selfStore s p segment stale none).startup = (appendOrDrop s (unconfirmedRecord s p segment stale none)).startup := ⟨rfl, rfl⟩
      have happends := foldl_appendOrDrop_congr (movedRecords s l) hsame
      rw [List.foldl_cons, hi, ih, hrecords, happends.1, happends.2, hm, selfStore_eq, List.length_cons, List.length_cons,
        Nat.add_sub_add_right]
      rfl

theorem emptyQueues_eq (s : State) : emptyQueues s = { s with
    radio := { s.radio with
      queue := []
      outOfRun := countUpBy s.radio.outOfRun s.radio.queue.length }
    engine := { s.engine with
      relayQueue := []
      relayOutOfRun := countUp^[s.engine.relayQueue.length - (movedRecords s s.engine.relayQueue).length] s.engine.relayOutOfRun }
    relay := { s.relay with unconfirmed := countUp^[(movedRecords s s.engine.relayQueue).length] s.relay.unconfirmed }
    store := ((movedRecords s s.engine.relayQueue).foldl appendOrDrop s).store
    startup := ((movedRecords s s.engine.relayQueue).foldl appendOrDrop s).startup } := by
  generalize hv : ({ s with radio := { s.radio with
    outOfRun := countUpBy s.radio.outOfRun s.radio.queue.length
    queue := [] } } : State) = v
  have hrecords : movedRecords v = movedRecords s := movedRecords_congr (hv ▸ rfl)
  have hsame : v.store = s.store ∧ v.startup = s.startup := hv ▸ ⟨rfl, rfl⟩
  have happends := foldl_appendOrDrop_congr (movedRecords s s.engine.relayQueue) hsame
  have hqueue : v.engine.relayQueue = s.engine.relayQueue := hv ▸ rfl
  have he : emptyQueues s = { v.engine.relayQueue.foldl emptyRelayItem v with
      engine := { (v.engine.relayQueue.foldl emptyRelayItem v).engine with relayQueue := [] } } := by
    rw [← hv]
    rfl
  rw [he, foldl_emptyRelayItem, hrecords, hqueue, happends.1, happends.2, ← hv]

/-! ## Adoption and a rebuild ended (R56, R67, R142) -/

/-- A load or a rebuild in progress has stopped; any other operation goes on. -/
def EngineOp.stopped : EngineOp → EngineOp
  | .load _ _ | .rebuild _ _ => .idle
  | op => op

/-- What the flash serves once a load or a rebuild has stopped. -/
def EngineOp.leaves (op : EngineOp) (x : Option Serving) : Option Serving :=
  match op, x with
  | .load _ _, some (.planRead _) | .rebuild _ _, some (.planRead _) => some (.planRead false)
  | .load _ _, some (.rebuildRead _) | .rebuild _ _, some (.rebuildRead _) => some (.rebuildRead false)
  | _, x => x

/-- The table once a load has stopped (R52). -/
def EngineOp.keeps (op : EngineOp) (table : List Entry) : List Entry :=
  match op with
  | .load n _ => table.filter fun e => e.origin != .adopted n
  | _ => table

theorem stopRebuild_endAdoption_eq (s : State) : stopRebuild (endAdoption s) = { s with
    presence := { s.presence with
      adoptQueue := []
      shares := s.presence.shares.map fun x => if x = .own then .own else .notMine }
    engine := { s.engine with
      op := s.engine.op.stopped
      table := s.engine.op.keeps s.engine.table
      untracked := []
      requests := s.engine.requests.filter fun r => match r with
        | .resetRebuild _ => false
        | _ => true }
    store := { s.store with serving := s.engine.op.leaves s.store.serving } } := by
  cases h : s.engine.op with
  | load n p =>
    rw [stopRebuild, endAdoption, h]
    dsimp only [stopLoad, dropLoadEntries]
    rw [orphanEngineRead_eq]
    cases hs : s.store.serving with
    | none => rfl
    | some v => cases v <;> rfl
  | rebuild a b =>
    rw [stopRebuild, endAdoption, h]
    dsimp only
    rw [h]
    dsimp only
    rw [orphanEngineRead_eq]
    cases hs : s.store.serving with
    | none => rfl
    | some v => cases v <;> rfl
  | _ =>
    rw [stopRebuild, endAdoption, h]
    dsimp only
    rw [h]
    rfl

/-! ## RUN CLOSE (R142) -/

theorem withReading_eq (s : State) : s.withReading = { s with engine := { s.engine with op := match s.engine.op with
    | .packet item none => .packet item (some ⟨decide (item.pair ∈ s.relay.heldMemory), s.shareState (s.shareOf item.pair.meterId)⟩)
    | x => x } } := by
  unfold State.withReading
  cases h : s.engine.op with
  | packet item r =>
    cases r with
    | none =>
      have hheld : s.relay.heldMemory.contains item.pair = decide (item.pair ∈ s.relay.heldMemory) := List.contains_eq_mem _ _
      simp only [State.readingOf, hheld]
    | some r => exact (congrArg (fun op => { s with engine := { s.engine with op := op } }) h).symm ▸ rfl
  | _ => exact (congrArg (fun op => { s with engine := { s.engine with op := op } }) h).symm ▸ rfl

theorem closeSegments_eq (s : State) : closeSegments s = { s with
    tracker := { s.tracker with
      rows := s.tracker.rows.map fun r => { r with state := .closed }
      watchdog := none }
    engine := { s.engine with
      requests := s.engine.requests ++ (s.tracker.rows.filter (·.state != .closed)).map fun r => StationReq.closure r.segment } } := by
  rw [closeSegments, requestClosures, List.map_map]
  rfl

/-- The records that a close self-stores: the moved items, then the relay list. -/
def closeRecords (s : State) : List RecordBody := movedRecords s s.engine.relayQueue ++ s.relay.list.map (entryRecord s)

theorem withReading_frame (s : State) : s.withReading = { s with engine := { s.engine with op := s.withReading.engine.op } } := by
  unfold State.withReading
  split <;> rfl

/-- The state of a close before its segments are closed. -/
theorem closeRun_disposed (u : State) :
    disposeRelays (stopRebuild (endAdoption (emptyQueues
      { u.withReading with engine := { u.withReading.engine with runState := some .closing } }))) = { u with
    radio := { u.radio with
      queue := []
      outOfRun := countUpBy u.radio.outOfRun u.radio.queue.length }
    presence := { u.presence with
      adoptQueue := []
      shares := u.presence.shares.map fun x => if x = .own then .own else .notMine }
    engine := { u.engine with
      runState := some .closing
      op := u.withReading.engine.op.stopped
      requests := u.engine.requests.filter fun r => match r with
        | .resetRebuild _ => false
        | _ => true
      table := u.withReading.engine.op.keeps u.engine.table
      untracked := []
      relayQueue := []
      relayOutOfRun := countUp^[u.engine.relayQueue.length - (movedRecords u u.engine.relayQueue).length] u.engine.relayOutOfRun }
    relay := { u.relay with
      list := []
      unconfirmed := countUp^[(closeRecords u).length] u.relay.unconfirmed }
    store := { ((closeRecords u).foldl appendOrDrop u).store with serving := u.withReading.engine.op.leaves u.store.serving }
    startup := ((closeRecords u).foldl appendOrDrop u).startup } := by
  rw [withReading_frame]
  generalize u.withReading.engine.op = op
  have h2 := emptyQueues_eq { u with engine := { u.engine with
    op := op
    runState := some .closing } }
  have hmoved : movedRecords { u with engine := { u.engine with
    op := op
    runState := some .closing } } = movedRecords u := movedRecords_congr rfl
  have happends := foldl_appendOrDrop_congr (movedRecords u u.engine.relayQueue) (s := { u with engine := { u.engine with
    op := op
    runState := some .closing } }) (t := u) ⟨rfl, rfl⟩
  rw [hmoved, happends.1, happends.2] at h2
  rw [h2, stopRebuild_endAdoption_eq]
  have hserving := foldl_appendOrDrop_serving (movedRecords u u.engine.relayQueue) u
  dsimp only
  rw [hserving]
  generalize hs : ({ u with
    radio := { u.radio with
      queue := []
      outOfRun := countUpBy u.radio.outOfRun u.radio.queue.length }
    presence := { u.presence with
      adoptQueue := []
      shares := u.presence.shares.map fun x => if x = .own then .own else .notMine }
    engine := { u.engine with
      runState := some .closing
      op := op.stopped
      requests := u.engine.requests.filter fun r => match r with
        | .resetRebuild _ => false
        | _ => true
      table := op.keeps u.engine.table
      untracked := []
      relayQueue := []
      relayOutOfRun := countUp^[u.engine.relayQueue.length - (movedRecords u u.engine.relayQueue).length] u.engine.relayOutOfRun }
    relay := { u.relay with unconfirmed := countUp^[(movedRecords u u.engine.relayQueue).length] u.relay.unconfirmed }
    store := { ((movedRecords u u.engine.relayQueue).foldl appendOrDrop u).store with serving := op.leaves u.store.serving }
    startup := ((movedRecords u u.engine.relayQueue).foldl appendOrDrop u).startup } : State) = s
  have hrecords : entryRecord s = entryRecord u := by
    funext e
    have := unconfirmedRecord_congr (s := s) (t := u) (hs ▸ rfl)
    rw [entryRecord, entryRecord, this]
  have hlist : s.relay.list = u.relay.list := hs ▸ rfl
  have hcount : s.relay.unconfirmed = countUp^[(movedRecords u u.engine.relayQueue).length] u.relay.unconfirmed := hs ▸ rfl
  have hstore := foldl_appendOrDrop_orphaned (u.relay.list.map (entryRecord u)) (s := s)
    (t := (movedRecords u u.engine.relayQueue).foldl appendOrDrop u) (x := op.leaves u.store.serving) (hs ▸ rfl) (hs ▸ rfl)
  have hall : (u.relay.list.map (entryRecord u)).foldl appendOrDrop ((movedRecords u u.engine.relayQueue).foldl appendOrDrop u) =
      (closeRecords u).foldl appendOrDrop u := by rw [closeRecords, List.foldl_append]
  have hlength : (closeRecords u).length = u.relay.list.length + (movedRecords u u.engine.relayQueue).length := by
    rw [closeRecords, List.length_append, List.length_map, Nat.add_comm]
  rw [disposeRelays_eq, hrecords, hlist, hstore.1, hstore.2, hall, hcount, hlength, Function.iterate_add_apply, ← hs]

theorem closeRun_eq (u : State) : closeRun u = { u with
    radio := { u.radio with
      queue := []
      outOfRun := countUpBy u.radio.outOfRun u.radio.queue.length }
    presence := { u.presence with
      adoptQueue := []
      shares := u.presence.shares.map fun x => if x = .own then .own else .notMine
      owners := (closeRun u).presence.owners }
    engine := { u.engine with
      runState := some .closing
      op := u.withReading.engine.op.stopped
      releases := [.close]
      requests := (u.engine.requests.filter fun r => match r with
        | .resetRebuild _ => false
        | _ => true) ++ (u.tracker.rows.filter (·.state != .closed)).map fun r => StationReq.closure r.segment
      table := u.withReading.engine.op.keeps u.engine.table
      untracked := []
      relayQueue := []
      relayOutOfRun := countUp^[u.engine.relayQueue.length - (movedRecords u u.engine.relayQueue).length] u.engine.relayOutOfRun }
    tracker := { u.tracker with
      rows := u.tracker.rows.map fun r => { r with state := .closed }
      watchdog := none }
    relay := { u.relay with
      list := []
      unconfirmed := countUp^[(closeRecords u).length] u.relay.unconfirmed }
    store := { ((closeRecords u).foldl appendOrDrop u).store with serving := u.withReading.engine.op.leaves u.store.serving }
    startup := ((closeRecords u).foldl appendOrDrop u).startup } := by
  rw [closeRun, closeRun_disposed, closeSegments_eq]
  rfl

theorem withReading_op (u : State) : u.withReading.engine.op = match u.engine.op with
    | .packet item none => .packet item (some ⟨decide (item.pair ∈ u.relay.heldMemory), u.shareState (u.shareOf item.pair.meterId)⟩)
    | x => x := by rw [withReading_eq]

/-- The operation after a close: a load and a rebuild stop, and a packet operation has its reading. -/
theorem stopped_withReading (u : State) : u.withReading.engine.op.stopped = match u.engine.op with
    | .load _ _ | .rebuild _ _ => .idle
    | .packet item none => .packet item
      (some ⟨decide (item.pair ∈ u.relay.heldMemory), u.shareState (u.shareOf item.pair.meterId)⟩)
    | x => x := by
  rw [withReading_op]
  cases u.engine.op with
  | packet item r => cases r <;> rfl
  | _ => rfl

theorem keeps_withReading (u : State) (table : List Entry) : u.withReading.engine.op.keeps table = u.engine.op.keeps table := by
  rw [withReading_op]
  cases u.engine.op with
  | packet item r => cases r <;> rfl
  | _ => rfl

theorem leaves_withReading (u : State) (x : Option Serving) : u.withReading.engine.op.leaves x = u.engine.op.leaves x := by
  rw [withReading_op]
  cases u.engine.op with
  | packet item r => cases r <;> rfl
  | _ => rfl

theorem deliverClose_eq (run : BitVec 16) (u : State) : deliverClose run u =
    match u.engine.runState, u.engine.openingRun with
    | some .ready, some _ => rejectRun u
    | some .rebuilding, _ | some .running, _ => if u.engine.currentRun = some run then closeRun u else rejectRun u
    | _, _ => u := rfl

/-- Settles O41: the judgement, and what a close leaves of each block. -/
theorem runCloseCloses : Obligations.RunCloseCloses := by
  refine ⟨fun run day s h => ?_, fun u => ?_, fun u p segment stale target => rfl⟩
  · rw [exec_console (c := .runClose run day) (d := deliverClose run) h rfl, deliverClose_eq]
    rfl
  · have ht := closeRun_eq u
    rw [stopped_withReading, keeps_withReading, leaves_withReading] at ht
    dsimp only
    generalize closeRun u = t at ht ⊢
    have hp {α : Type} (f : State → α) := congrArg f ht
    have hstore : t.store = { ((closeRecords u).foldl appendOrDrop u).store with serving := u.engine.op.leaves u.store.serving } :=
      hp State.store
    have hrelay : t.relay = { u.relay with
      list := []
      unconfirmed := countUp^[(closeRecords u).length] u.relay.unconfirmed } := hp State.relay
    have hout : t.engine.relayOutOfRun =
      countUp^[u.engine.relayQueue.length - (movedRecords u u.engine.relayQueue).length] u.engine.relayOutOfRun :=
      hp fun s => s.engine.relayOutOfRun
    refine ⟨hp fun s => s.engine.runState, hp fun s => s.engine.currentRun, hp fun s => s.engine.releases, hp State.radio,
      hp fun s => s.engine.relayQueue, by rw [hrelay], by rw [hrelay], by rw [hrelay], hp fun s => s.presence.adoptQueue,
      hp fun s => s.presence.shares, hp fun s => s.engine.untracked, hp fun s => s.engine.op, hp fun s => s.engine.table, by rw [hstore]; rfl,
      hp fun s => s.tracker.watchdog, hp fun s => s.tracker.segment, hp fun s => s.tracker.revisit, hp fun s => s.tracker.rows,
      hp fun s => s.engine.requests, ?_, hp State.startup, fun hle => ?_, fun hle => ?_⟩
    · rw [hstore]
      rfl
    · rw [hrelay]
      exact iterate_countUp _ hle
    · rw [hout]
      exact iterate_countUp _ hle

end Sys2Proof.Machine
end

section
/-!
PROOF. The dock's operations: the judgement by the run state (R175), marks and pauses (R177, R178), erases and the clear of findings (R182,
R183), the settings and their saves (R190, R191, R193).
-/

namespace Sys2Proof.Machine

/-! ## The judgement by the run state (R175) -/

/-- What a DOCK operation does when it passes the judgement. -/
def dockRule : Instr → State → State
  | .uploadOpen start => uploadOpen start.toNat
  | .uploadMark m => uploadMark m.toNat
  | .uploadClose => uploadClose
  | .eraseUploaded => eraseUploaded
  | .clearFindings => clearFindings
  | .planBegin ident count segments => planBegin ident count.toNat segments.toNat
  | .planData index record => planData index.toNat record
  | .planEnd => planEnd
  | .settingWrite offset data => settingWrite offset.toNat data
  | .settingSave => settingSave
  | .dockClearConditions => dockClear
  | _ => id

/-- A DOCK operation heard is judged, and answered by its rule. -/
theorem exec_dock {c : Instr} {column : DockColumn} {echo : Byte} {s : State} (hc : dockColumn c = some (column, echo)) (h : Hears s 11) :
    exec c s = .next (settle (dockOperation column echo (dockRule c) s.received)) := by
  have hact : exec c s = act (onFrame 11 (dockOperation column echo (dockRule c))) s := by
    cases c <;> cases hc <;> rfl
  exact hact.trans (hears_act h (by decide))

theorem dockOperation_pass {c : DockColumn} {echo : Byte} {rule : State → State} {s : State} (h : judgeDock s c = .pass) :
    dockOperation c echo rule s = rule s := by rw [dockOperation, h]

/-- A DOCK operation that passes the judgement follows its own rule. -/
theorem exec_dock_pass {c : Instr} {column : DockColumn} {echo : Byte} {s : State} (hc : dockColumn c = some (column, echo)) (h : Hears s 11)
    (hpass : judgeDock s column = .pass) : exec c s = .next (settle (dockRule c s.received)) := by
  rw [exec_dock hc h, dockOperation_pass (s := s.received) hpass]

theorem judgeDock_busy {s : State} {c : DockColumn} (h : s.engine.runState = some .running ∨ s.engine.runState = some .closing ∨
    (s.engine.runState = some .ready ∧ s.engine.openingRun.isSome = true)) : judgeDock s c = .refuse .refusedRunning := by
  rcases h with h | h | ⟨h, ho⟩
  · unfold judgeDock; rw [h]
  · unfold judgeDock; rw [h]
  · unfold judgeDock; rw [h]; cases c <;> exact if_pos ho

theorem judgeDock_idle {s : State} {c : DockColumn} (h : s.engine.runState = some .blank ∨
    (s.engine.runState = some .ready ∧ s.engine.openingRun = none)) :
    judgeDock s c = if c = .general ∨ c = .settings then .pass else .refuse .refusedState := by
  rcases h with h | ⟨h, ho⟩
  · unfold judgeDock; rw [h]; cases c <;> rfl
  · unfold judgeDock; rw [h, ho]; cases c <;> rfl

theorem judgeDock_loading {s : State} {c : DockColumn} :
    (s.engine.runState = some .rebuilding → judgeDock s c = .refuse .refusedState) ∧
    (s.engine.runState = some .loadingErase →
      judgeDock s c = if c = .settings then .pass else if c = .planData then .ignore else .refuse .refusedState) ∧
    (s.engine.runState = some .loadingData → judgeDock s c = if c = .general then .refuse .refusedState else .pass) := by
  refine ⟨fun h => ?_, fun h => ?_, fun h => ?_⟩
  · unfold judgeDock; rw [h]
  · unfold judgeDock; rw [h]; cases c <;> rfl
  · unfold judgeDock; rw [h]; cases c <;> rfl

theorem replyWith_eq (s : State) (echo : Byte) (x : DockStatus) (operands : List Byte) : replyWith s echo x operands = { s with
    dock := { s.dock with
      replies := (if 8 ≤ s.dock.replies.length then s.dock.replies.tail else s.dock.replies) ++
        [⟨s.nextTag, .fixed ([echo, x.code] ++ operands)⟩]
      replyDrops := if 8 ≤ s.dock.replies.length then min (s.dock.replyDrops + 1) 65535 else s.dock.replyDrops }
    nextTag := s.nextTag + 1 } := by
  have hfull : decide (Config.replyCapacity ≤ s.dock.replies.length) = decide (8 ≤ s.dock.replies.length) := rfl
  rw [replyWith, makeReply, hfull]
  simp only [decide_eq_true_eq, List.drop_one]
  rfl

/-- Settles O52: the table of R175 by run state, and what a reply adds. -/
theorem dockOperationsJudged : Obligations.DockOperationsJudged := by
  refine ⟨fun s c => ⟨judgeDock_busy, judgeDock_loading.1, judgeDock_idle, judgeDock_loading.2⟩, fun c column echo s hc h =>
    ⟨fun hj => ?_, fun x hj => ?_⟩, fun s echo x operands => ?_⟩
  · have hj' : judgeDock s.received column = .ignore := hj
    rw [exec_dock hc h, dockOperation, hj']
  · have hj' : judgeDock s.received column = .refuse x := hj
    rw [exec_dock hc h, dockOperation, hj']
  · rw [replyWith_eq]
    cases x <;> rfl

/-! ## Marks and pauses (R177, R178) -/

/-- The marks once those of `due` are requested in turn (R156): one that waits or is being programmed is not requested again. -/
def joinMarks (serving : Option Serving) (due marks : List MarkReq) : List MarkReq :=
  due.foldl (fun l x => if x ∈ l ∨ serving = some (.mark x) then l else l ++ [x]) marks

theorem requestMark_eq (st : Store) (x : MarkReq) : st.requestMark x = { st with
    marks := if x ∈ st.marks ∨ st.serving = some (.mark x) then st.marks else st.marks ++ [x] } := by
  unfold Store.requestMark
  simp only [Bool.or_eq_true, List.contains_iff_mem, beq_iff_eq]
  split <;> rfl

theorem foldl_requestMark (due : List MarkReq) (st : Store) :
    due.foldl Store.requestMark st = { st with marks := joinMarks st.serving due st.marks } := by
  induction due generalizing st with
  | nil => rfl
  | cons x due ih =>
    rw [List.foldl_cons, ih, requestMark_eq]
    rfl

theorem mem_joinMarks_of_mem {serving : Option Serving} {due marks : List MarkReq} {x : MarkReq} (h : x ∈ marks) :
    x ∈ joinMarks serving due marks := by
  induction due generalizing marks with
  | nil => exact h
  | cons y due ih =>
    refine ih ?_
    dsimp only
    split
    · exact h
    · exact List.mem_append_left _ h

theorem joinMarks_requested {serving : Option Serving} {due marks : List MarkReq} {x : MarkReq} (h : x ∈ due) :
    x ∈ joinMarks serving due marks ∨ serving = some (.mark x) := by
  induction due generalizing marks with
  | nil => exact absurd h List.not_mem_nil
  | cons y due ih =>
    rcases List.mem_cons.1 h with rfl | h
    · by_cases hy : x ∈ marks ∨ serving = some (.mark x)
      · rcases hy with hy | hy
        · exact .inl (mem_joinMarks_of_mem hy)
        · exact .inr hy
      · left
        change x ∈ joinMarks serving due (if x ∈ marks ∨ serving = some (.mark x) then marks else marks ++ [x])
        rw [if_neg hy]
        exact mem_joinMarks_of_mem (List.mem_append_right _ (List.mem_singleton.2 rfl))
    · exact ih h

theorem mem_joinMarks {serving : Option Serving} {due marks : List MarkReq} {x : MarkReq} (h : x ∈ joinMarks serving due marks) :
    x ∈ marks ∨ x ∈ due := by
  induction due generalizing marks with
  | nil => exact .inl h
  | cons y due ih =>
    rcases ih h with h | h
    · dsimp only at h
      split at h
      · exact .inl h
      · rcases List.mem_append.1 h with h | h
        · exact .inl h
        · exact .inr (List.mem_cons.2 (.inl (List.mem_singleton.1 h)))
    · exact .inr (List.mem_cons_of_mem _ h)

/-- The marks that a raise to `m` requests (R178). -/
def uploadedDue (rows : List SectorRow) (m : Nat) : List MarkReq :=
  (rows.filter fun r => decide (r.state = .full ∧ ∀ k, r.last = some k → k ≤ m)).map fun r => MarkReq.uploaded r.sector

theorem mem_uploadedDue {rows : List SectorRow} {m : Nat} {x : MarkReq} :
    x ∈ uploadedDue rows m ↔ ∃ r ∈ rows, x = .uploaded r.sector ∧ r.state = .full ∧ ∀ k, r.last = some k → k ≤ m := by
  simp only [uploadedDue, List.mem_map, List.mem_filter, decide_eq_true_eq]
  constructor
  · rintro ⟨r, ⟨hr, hfull, hle⟩, rfl⟩
    exact ⟨r, hr, rfl, hfull, hle⟩
  · rintro ⟨r, hr, rfl, hfull, hle⟩
    exact ⟨r, ⟨hr, hfull, hle⟩, rfl⟩

theorem requestUploaded_eq (st : Store) (m : Nat) :
    st.requestUploaded m = { st with marks := joinMarks st.serving (uploadedDue st.rows m) st.marks } := by
  have hfilter : (st.rows.filter fun r => r.state == .full && (match r.last with
      | some n => decide (n ≤ m)
      | none => true)) = st.rows.filter fun r => decide (r.state = .full ∧ ∀ k, r.last = some k → k ≤ m) := by
    refine List.filter_congr fun r _ => ?_
    rw [Bool.decide_and, beq_eq_decide]
    cases r.last <;> simp
  rw [← foldl_requestMark, uploadedDue, List.foldl_map, ← hfilter]
  rfl

theorem raiseMark_eq (u : State) (m : Nat) : raiseMark u m = { u with
    store := { u.store with
      uploadMark := m
      marks := joinMarks u.store.serving (uploadedDue u.store.rows m) u.store.marks }
    dock := { u.dock with session := { u.dock.session with
      outstanding := u.dock.session.outstanding.filter fun n => decide (m < n)
      synthList := u.dock.session.synthList.filter fun x => decide (m < x.2) } }
    engine := { u.engine with requests := u.engine.requests ++
      (u.dock.session.synthList.filter fun x => decide (x.2 ≤ m)).map fun x => StationReq.keptRelease x.1 x.2 } } := by
  rw [raiseMark, requestUploaded_eq]

theorem pauseOver_of {x : Session} {now t : Time} (hx : x.state = .paused) (ht : x.pauseSince = some t) (h : 3000 ≤ (now - t).toNat) :
    x.pauseOver now = true := by
  unfold Session.pauseOver
  rw [hx, ht]
  exact decide_eq_true h

theorem pauseAfterMark_eq (v : State) : pauseAfterMark v =
    if v.dock.session.state = .paused then
      if v.dock.session.outstanding.length < 32 then
        streamOn { v with dock := { v.dock with session := { v.dock.session with
          state := .streaming
          pauseSince := none } } }
      else { v with dock := { v.dock with session := { v.dock.session with pauseSince := some v.now } } }
    else v := rfl

/-- Settles O54: the branches of a MARK, the raise, the pause timer, and what the end of an UPLOAD DATA counts. -/
theorem uploadMarksAndPauses : Obligations.UploadMarksAndPauses := by
  refine ⟨fun m s h hj => exec_dock_pass (c := .uploadMark m) rfl h hj, fun m u => ?_, fun m u => ?_, fun s t hp hx ht hover => ?_, fun s n => ?_,
    fun u hu => ?_, fun u hu => ?_⟩
  · intro x v
    have hv : v.dock.session.state = x.state ∧ v.now = u.now := by
      dsimp only [v]
      rw [raiseMark_eq]
      split <;> exact ⟨rfl, rfl⟩
    have hjudged (hno : ¬ (x.state = .none ∨ x.state = .starting)) : uploadMark m u = pauseAfterMark v := if_neg hno
    refine ⟨fun hx => if_pos hx, fun hx => ?_, fun hx => ?_⟩
    · rw [hjudged (by rcases hx with hx | hx | hx <;> rw [hx] <;> decide), pauseAfterMark_eq, hv.1,
        if_neg (by rcases hx with hx | hx | hx <;> rw [hx] <;> decide)]
    · rw [hjudged (by rw [hx]; decide), pauseAfterMark_eq, hv.1, if_pos hx, hv.2]
      exact ⟨fun h32 => if_neg (Nat.not_lt.2 h32), fun h32 => if_pos h32⟩
  · intro t
    have ht : t = _ := raiseMark_eq u m
    have hmarks : t.store.marks = joinMarks u.store.serving (uploadedDue u.store.rows m) u.store.marks := by rw [ht]
    have hserving : t.store.serving = u.store.serving := by rw [ht]
    refine ⟨?_, fun r hr hfull hlast => ?_, fun x hx => ?_, hmarks⟩
    · rw [hmarks, ht]
    · rw [hmarks, hserving]
      exact joinMarks_requested (mem_uploadedDue.2 ⟨r, hr, rfl, hfull, hlast⟩)
    · rw [hmarks] at hx
      exact (mem_joinMarks hx).imp id mem_uploadedDue.1
  · exact act_onlyIf (c := fun s => s.dock.session.pauseOver s.now) (f := fun s => { s with dock := { s.dock with
      session := { s.dock.session with
        state := .stalled
        pauseSince := none } } }) hp (pauseOver_of hx ht hover)
  · exact ⟨fun h32 => if_pos h32, fun h32 => if_neg (Nat.not_le.2 h32)⟩
  · rw [streamOn, hu] <;> rfl
  · rw [streamOn, hu]

end Sys2Proof.Machine
end

section
/-!
PROOF. The erase list and the clear of findings (R182, R183), the plan load (R184 to R186), the settings and their saves (R190, R191, R193).
-/

namespace Sys2Proof.Machine

/-! ## The erase list (R168, R182) -/

theorem insertErase_sublist (st : Store) (i : EraseItem) (l : List EraseItem) : l.Sublist (st.insertErase i l) := by
  induction l with
  | nil => exact List.nil_sublist _
  | cons x l ih =>
    unfold Store.insertErase
    split
    · exact List.sublist_cons_self _ _
    · exact ih.cons_cons x

theorem insertErase_ordered (st : Store) (i : EraseItem) {l : List EraseItem}
    (h : l.Pairwise fun a b => st.eraseKey a.sector ≤ st.eraseKey b.sector) :
    (st.insertErase i l).Pairwise fun a b => st.eraseKey a.sector ≤ st.eraseKey b.sector := by
  induction l with
  | nil => exact List.pairwise_singleton _ _
  | cons x l ih =>
    obtain ⟨hx, hl⟩ := List.pairwise_cons.1 h
    unfold Store.insertErase
    split
    · next hlt =>
      refine List.pairwise_cons.2 ⟨fun y hy => ?_, h⟩
      rcases List.mem_cons.1 hy with rfl | hy
      · exact hlt.le
      · exact hlt.le.trans (hx y hy)
    · next hge =>
      refine List.pairwise_cons.2 ⟨fun y hy => ?_, ih hl⟩
      rcases (Store.mem_insertErase st i y l).1 hy with rfl | hy
      · exact Nat.not_lt.1 hge
      · exact hx y hy

/-- What sectors joining the list leave of it: the items before them, each sector once, in the order of the keys (R168, R182). -/
structure EraseJoined (st : Store) (listed : List Nat) (before after : List EraseItem) : Prop where
  kept : before.Sublist after
  joined : ∀ n ∈ listed, n ∈ after.map (·.sector)
  fresh : ∀ i ∈ after, i ∈ before ∨ (i.sector ∈ listed ∧ i.scanPlaced = false ∧ i.phase = .listed)
  nodup : (before.map (·.sector)).Nodup → (after.map (·.sector)).Nodup
  ordered : (before.Pairwise fun a b => st.eraseKey a.sector ≤ st.eraseKey b.sector) →
    after.Pairwise fun a b => st.eraseKey a.sector ≤ st.eraseKey b.sector

theorem listErase_joined (st : Store) (l : List EraseItem) (n : Nat) : EraseJoined st [n] l (st.listErase l n) := by
  unfold Store.listErase
  split
  · next hin =>
    obtain ⟨j, hj, he⟩ := List.any_eq_true.1 hin
    have hn : n ∈ l.map (·.sector) := List.mem_map.2 ⟨j, hj, beq_iff_eq.1 he⟩
    exact ⟨.refl _, by simpa using hn, fun i hi => .inl hi, id, id⟩
  · next hout =>
    have hne : ∀ j ∈ l, j.sector ≠ n := fun j hj he => hout (List.any_eq_true.2 ⟨j, hj, beq_iff_eq.2 he⟩)
    refine ⟨insertErase_sublist st _ l, fun m hm => ?_, fun i hi => ?_, fun h => Store.insertErase_nodup st h hne, insertErase_ordered st _⟩
    · obtain rfl := List.mem_singleton.1 hm
      exact List.mem_map.2 ⟨_, (Store.mem_insertErase st _ _ l).2 (.inl rfl), rfl⟩
    · rcases (Store.mem_insertErase st _ i l).1 hi with rfl | hi
      · exact .inr ⟨List.mem_singleton_self n, rfl, rfl⟩
      · exact .inl hi

theorem EraseJoined.trans {st : Store} {a b : List Nat} {x y z : List EraseItem} (h : EraseJoined st a x y) (k : EraseJoined st b y z) :
    EraseJoined st (a ++ b) x z where
  kept := h.kept.trans k.kept
  joined n hn := by
    rcases List.mem_append.1 hn with hn | hn
    · exact (k.kept.map _).subset (h.joined n hn)
    · exact k.joined n hn
  fresh i hi := by
    rcases k.fresh i hi with hi | hi
    · exact (h.fresh i hi).imp id fun hj => ⟨List.mem_append_left _ hj.1, hj.2⟩
    · exact .inr ⟨List.mem_append_right _ hi.1, hi.2⟩
  nodup hx := k.nodup (h.nodup hx)
  ordered hx := k.ordered (h.ordered hx)

theorem foldl_listErase_joined (st : Store) (listed : List Nat) (l : List EraseItem) :
    EraseJoined st listed l (listed.foldl st.listErase l) := by
  induction listed generalizing l with
  | nil => exact ⟨.refl _, fun n hn => absurd hn List.not_mem_nil, fun i hi => .inl hi, id, id⟩
  | cons n listed ih => exact (listErase_joined st l n).trans (ih _)

theorem uploadedSectors_length (st : Store) :
    st.uploadedSectors.length = (st.rows.filter fun r => r.state == .uploaded && r.seq.isSome).length := by
  have hfilter : (st.rows.filter fun r => r.state == .uploaded && r.seq.isSome) =
      (st.rows.filter (·.state == .uploaded)).filter (·.seq.isSome) := by
    rw [List.filter_filter]
    exact List.filter_congr fun r _ => Bool.and_comm _ _
  rw [Store.uploadedSectors, List.length_map, (sortRows_perm _).length_eq, hfilter, List.length_filterMap_eq_countP,
    List.countP_eq_length_filter]
  simp only [Option.isSome_map]

theorem mem_uploadedSectors_iff {st : Store} {n : Nat} :
    n ∈ st.uploadedSectors ↔ ∃ r ∈ st.rows, r.sector = n ∧ r.state = .uploaded ∧ r.seq.isSome = true := by
  simp only [Store.uploadedSectors, List.mem_map, Prod.exists, mem_sortRows, List.mem_filter, beq_iff_eq, Option.isSome_iff_exists]
  constructor
  · rintro ⟨q, r, ⟨⟨hr, hup⟩, hq⟩, rfl⟩
    exact ⟨r, hr, rfl, hup, q, hq⟩
  · rintro ⟨r, hr, rfl, hup, q, hq⟩
    exact ⟨q, r, ⟨⟨hr, hup⟩, hq⟩, rfl⟩

/-- Settles O55: the sectors that join the erase list, and the clear of findings. -/
theorem depotErasesAndClears : Obligations.DepotErasesAndClears := by
  refine ⟨fun s h hj => ⟨exec_dock_pass (c := .eraseUploaded) rfl h hj, exec_dock_pass (c := .clearFindings) rfl h hj⟩, fun u => ?_,
    fun u => rfl⟩
  have h := foldl_listErase_joined u.store u.store.uploadedSectors u.store.eraseList
  refine ⟨_, rfl, h.kept, h.joined, h.fresh, h.nodup, h.ordered, uploadedSectors_length u.store, fun n hn => ?_, fun r hr hup hseq => ?_⟩
  · obtain ⟨r, hr, hsector, hup, -⟩ := mem_uploadedSectors_iff.1 hn
    exact ⟨r, hr, hsector, hup⟩
  · exact mem_uploadedSectors_iff.2 ⟨r, hr, rfl, hup, hseq⟩

/-! ## Settings (R190) -/

theorem placeBytes_length (image data : List Byte) (off : Nat) : (placeBytes image off data).length = image.length := by
  induction data generalizing image off with
  | nil => rfl
  | cons b bs ih => rw [placeBytes, ih, List.length_set]

theorem placeBytes_getD (image data : List Byte) (off : Nat) {i : Nat} (hi : i < image.length) :
    (placeBytes image off data).getD i 0 = if off ≤ i ∧ i < off + data.length then data.getD (i - off) 0 else image.getD i 0 := by
  induction data generalizing image off with
  | nil =>
    rw [placeBytes, if_neg]
    rintro ⟨h, h'⟩
    exact absurd h' (Nat.not_lt.2 h)
  | cons b bs ih =>
    rw [placeBytes, ih _ _ (by rwa [List.length_set])]
    have hset : (image.set off b).getD i 0 = if off = i then b else image.getD i 0 := by
      rw [List.getD_eq_getElem _ _ (by rwa [List.length_set]), List.getElem_set, List.getD_eq_getElem _ _ hi]
    rw [hset, List.length_cons]
    by_cases hoff : off = i
    · subst hoff
      rw [if_neg (by omega), if_pos rfl, if_pos (by omega), Nat.sub_self]
      rfl
    · by_cases hin : off + 1 ≤ i ∧ i < off + 1 + bs.length
      · rw [if_pos hin, if_pos (by omega), (by omega : i - off = i - (off + 1) + 1), List.getD_cons_succ]
      · rw [if_neg hin, if_neg hoff, if_neg (by omega)]

/-! ## Saves (R191) -/

theorem saveReplies_frame (x : Byte) (n : Nat) (s : State) : saveReplies x n s = { s with
    dock := { s.dock with
      replies := (saveReplies x n s).dock.replies
      replyDrops := (saveReplies x n s).dock.replyDrops }
    nextTag := s.nextTag + n } := by
  induction n generalizing s with
  | zero => rfl
  | succ n ih =>
    rw [saveReplies, ih]
    have htag : s.nextTag + (n + 1) = s.nextTag + 1 + n := by omega
    rw [htag, replyWith_eq]

/-- The replies of a save come last, one for each SAVE served. -/
theorem saveReplies_suffix (x : Byte) (n k : Nat) (s : State) (hle : k + n ≤ 8)
    (h : List.replicate k (ReplyBody.fixed [10, 1, x]) <:+ s.dock.replies.map (·.body)) :
    List.replicate (k + n) (ReplyBody.fixed [10, 1, x]) <:+ (saveReplies x n s).dock.replies.map (·.body) := by
  induction n generalizing s k with
  | zero => exact h
  | succ n ih =>
    rw [saveReplies, (by omega : k + (n + 1) = (k + 1) + n)]
    refine ih (k + 1) _ (by omega) ?_
    have hkept : List.replicate k (ReplyBody.fixed [10, 1, x]) <:+
        (if 8 ≤ s.dock.replies.length then s.dock.replies.tail else s.dock.replies).map (·.body) := by
      split
      · next hfull =>
        rw [List.map_tail]
        rw [List.suffix_iff_eq_drop] at h ⊢
        rw [List.length_replicate, List.length_map] at h
        rw [List.length_replicate, List.length_tail, List.length_map, List.drop_tail,
          (by omega : s.dock.replies.length - 1 - k + 1 = s.dock.replies.length - k)]
        exact h
      · exact h
    rw [replyWith_eq, List.replicate_succ', List.map_append]
    obtain ⟨l, hl⟩ := hkept
    exact ⟨l, by rw [← hl, List.append_assoc]; rfl⟩

theorem Memory.read_writeBytes {m : Memory} (vs : List Byte) (a b : Nat) (hm : m.wf = true) :
    (m.writeBytes a vs).read b = if a ≤ b ∧ b < a + vs.length then vs.getD (b - a) 0 else m.read b := by
  induction vs generalizing m a with
  | nil =>
    rw [Memory.writeBytes, if_neg]
    rintro ⟨h, h'⟩
    exact absurd h' (Nat.not_lt.2 h)
  | cons v vs ih =>
    rw [Memory.writeBytes, ih _ (Memory.write_wf _ _ hm), Memory.read_write _ _ _ hm, List.length_cons]
    by_cases hab : b = a
    · subst hab
      rw [if_neg (by omega), if_pos rfl, if_pos (by omega), Nat.sub_self]
      rfl
    · by_cases hin : a + 1 ≤ b ∧ b < a + 1 + vs.length
      · rw [if_pos hin, if_pos (by omega), (by omega : b - a = b - (a + 1) + 1), List.getD_cons_succ]
      · rw [if_neg hin, if_neg hab, if_neg (by omega)]

theorem Memory.readBytes_writeBytes {m : Memory} (vs : List Byte) (a : Nat) (hm : m.wf = true) :
    (m.writeBytes a vs).readBytes a vs.length = vs := by
  refine List.ext_getElem (by simp) fun i hi hi' => ?_
  simp only [Memory.readBytes, List.getElem_map, List.getElem_range]
  rw [Memory.read_writeBytes vs _ _ hm, if_pos (by omega), Nat.add_sub_cancel_left, List.getD_eq_getElem _ _ hi']

theorem nextSave_eq (s : State) : nextSave s = { s with startup := { s.startup with
    save := if s.startup.waitingSaves = 0 then none else some ⟨s.startup.image ++ crcBytes s.startup.image, s.startup.waitingSaves⟩
    waitingSaves := 0 } } := by
  unfold nextSave
  by_cases h : s.startup.waitingSaves = 0
  · simp only [h, if_true]
  · simp only [h, if_false, savedImage]

/-- The configuration memory after a save's end (R191; log 8). -/
def savedMemory (job : SaveJob) (ok : Bool) (s : State) : Memory :=
  if ok then s.startup.cfg.writeBytes 0 job.bytes else s.startup.cfg.tornWrite s.freeIndex 0 savedImageBytes

theorem saveEnds_eq (job : SaveJob) (ok : Bool) (s : State) : saveEnds job ok s =
    nextSave (saveReplies (if ok then 0 else 1) job.serves { s with
      startup := { s.startup with
        cfg := savedMemory job ok s
        conds := { s.startup.conds with configDefaulted := s.startup.conds.configDefaulted && !ok } }
      freeIndex := if ok then s.freeIndex else s.freeIndex + 1 }) := by
  cases ok with
  | true => rw [Bool.not_true, Bool.and_false]; rfl
  | false => rw [Bool.not_false, Bool.and_true]; rfl

theorem saveEnds_frame (job : SaveJob) (ok : Bool) (s : State) :
    let t := saveEnds job ok s
    t = { s with
      startup := { s.startup with
        cfg := savedMemory job ok s
        conds := { s.startup.conds with configDefaulted := s.startup.conds.configDefaulted && !ok }
        save := if s.startup.waitingSaves = 0 then none
          else some ⟨s.startup.image ++ crcBytes s.startup.image, s.startup.waitingSaves⟩
        waitingSaves := 0 }
      dock := { s.dock with
        replies := t.dock.replies
        replyDrops := t.dock.replyDrops }
      nextTag := s.nextTag + job.serves
      freeIndex := if ok then s.freeIndex else s.freeIndex + 1 } := by
  dsimp only
  rw [saveEnds_eq, nextSave_eq, saveReplies_frame]

/-- Settles O57: bytes placed, the save begun or waiting, its end, and the clear. -/
theorem settingsWrittenAndSaved : Obligations.SettingsWrittenAndSaved := by
  refine ⟨fun offset data s h hj => ⟨exec_dock_pass (c := .settingWrite offset data) rfl h hj, exec_dock_pass (c := .settingSave) rfl h hj,
    exec_dock_pass (c := .dockClearConditions) rfl h hj⟩, fun offset data u himage _ _ => ?_, fun u => ⟨fun h => ?_, fun h => ?_⟩,
    fun s job ok hp hsave hpos hle hwf => ?_, fun u => rfl⟩
  · exact ⟨_, rfl, (placeBytes_length _ _ _).trans himage, fun i hi => placeBytes_getD _ _ _ (himage ▸ hi)⟩
  · rw [settingSave, h, savedImage]
  · obtain ⟨job, hjob⟩ := Option.ne_none_iff_exists'.1 h
    rw [settingSave, hjob]
  · have hexec : exec (.saveCompletion ok) s = .next (settle (saveEnds job ok s)) := by
      refine act_next (f := ownEffect (.saveCompletion ok)) hp ?_
      change (match s.startup.save with
        | some job => some (saveEnds job ok s)
        | none => none) = _
      rw [hsave]
    have ht := saveEnds_frame job ok s
    have hcfg : (saveEnds job ok s).startup.cfg = savedMemory job ok s := congrArg (fun t : State => t.startup.cfg) ht
    have hsuffix := saveReplies_suffix (if ok then 0 else 1) job.serves 0 { s with
      startup := { s.startup with
        cfg := savedMemory job ok s
        conds := { s.startup.conds with configDefaulted := s.startup.conds.configDefaulted && !ok } }
      freeIndex := if ok then s.freeIndex else s.freeIndex + 1 } (by omega) (List.nil_suffix)
    have hreplies : (saveEnds job ok s).dock.replies = (saveReplies (if ok then 0 else 1) job.serves { s with
      startup := { s.startup with
        cfg := savedMemory job ok s
        conds := { s.startup.conds with configDefaulted := s.startup.conds.configDefaulted && !ok } }
      freeIndex := if ok then s.freeIndex else s.freeIndex + 1 }).dock.replies := by rw [saveEnds_eq, nextSave_eq]
    rw [← hreplies, Nat.zero_add, List.suffix_iff_eq_drop, List.length_replicate, List.length_map] at hsuffix
    refine ⟨saveEnds job ok s, hexec, ?_, hsuffix.symm, fun hok => ?_, fun hok a ha => ?_⟩
    · rw [hcfg]
      exact ht
    · rw [hcfg, hok]
      refine ⟨Memory.readBytes_writeBytes _ _ hwf, fun a ha => ?_⟩
      change (s.startup.cfg.writeBytes 0 job.bytes).read a = _
      rw [Memory.read_writeBytes _ _ _ hwf, if_neg (by omega)]
    · rw [hcfg, hok]
      exact Memory.read_tornWrite _ hwf (by rw [Nat.zero_add]; exact ha)

/-! ## The plan load (R184 to R186) -/

/-- A reading that a recomputation brings looks at nothing that a plan load changes. -/
theorem raceReading_planBegin (u : State) (load : PlanLoad) (r : Option RunState) (i : Option Interrupted) (p : Option Plan) :
    raceReading { u with
      engine := { u.engine with
        plan := p
        interrupted := i
        runState := r }
      dock := { u.dock with load := load } } = { raceReading u with
    engine := { (raceReading u).engine with
      plan := p
      interrupted := i
      runState := r }
    dock := { u.dock with load := load } } := by
  by_cases h : ∃ item, u.engine.op = .packet item none
  · obtain ⟨item, h⟩ := h
    rw [raceReading_of_waiting h]
    exact raceReading_of_waiting h
  · rw [raceReading_of_taken fun item hi => h ⟨item, hi⟩]
    exact raceReading_of_taken fun item hi => h ⟨item, hi⟩

/-- A PLAN BEGIN that is accepted: its recomputation finds no share taken on. -/
theorem setRunState_planBegin {u : State} (hlaw : RunLaw u) (hrun : u.isRunning = false) (load : PlanLoad) :
    setRunState { u with
      engine := { u.engine with
        plan := none
        interrupted := none }
      dock := { u.dock with load := load } } .loadingErase =
    remap { raceReading u with
      engine := { (raceReading u).engine with
        plan := none
        interrupted := none
        runState := some .loadingErase }
      dock := { u.dock with load := load } } := by
  rw [← raceReading_planBegin]
  exact recompute_quiet (s := { u with
    engine := { u.engine with
      plan := none
      interrupted := none
      runState := some .loadingErase }
    dock := { u.dock with load := load } }) rfl (hlaw.shares hrun)

theorem clampCount_eq (hi v : Nat) (h : 1 ≤ hi) : clampCount hi v = if v = 0 then 1 else if hi < v then hi else v := by
  unfold clampCount
  split
  · omega
  · split <;> omega

theorem takes_iff (l : PlanLoad) (index : Nat) :
    l.takes index = true ↔ l.phase = .receiving ∧ index < l.count ∧ index ∉ l.received ∧ l.queue.length < 64 := by
  have hroom : (decide (l.queue.length < Config.planQueueCapacity) = true) = (l.queue.length < 64) := decide_eq_true_eq
  rw [PlanLoad.takes, Bool.and_eq_true, hroom]
  simp [and_assoc]

theorem planEndIfDrained_writing {u : State} (h : u.planWriting = true) : planEndIfDrained u = u :=
  if_neg fun hw => Bool.noConfusion (h.symm.trans hw.2)

/-- With the queue drained the check read begins over the marked indexes, and ends at once where there are none (R186). -/
theorem planEndIfDrained_drained {u : State} (hphase : u.dock.load.phase = .ending) (h : u.planWriting = false) :
    planEndIfDrained u = match (List.range u.dock.load.count).filter u.dock.load.received.contains with
      | [] => planEndJudged u
      | is => { u with dock := { u.dock with load := { u.dock.load with check := some is } } } :=
  if_pos ⟨hphase, h⟩

/-- A load that fails leaves the station BLANK and no load in progress (R186). -/
theorem planFails_ends (u : State) (result : Byte) :
    (planFails u result).engine.runState = some .blank ∧ (planFails u result).dock.load.phase = .none := by
  have hframe := recompute_frame { u with engine := { u.engine with runState := some .blank } }
  unfold planFails planStatus setRunState
  dsimp only at hframe ⊢
  rw [replyWith_eq]
  dsimp only
  rw [hframe]
  exact ⟨rfl, rfl⟩

theorem planEndJudged_missing {u : State} (h : u.dock.load.received.length ≠ u.dock.load.count) :
    planEndJudged u = planFails { u with dock := { u.dock with load := { u.dock.load with check := none } } } 1 :=
  if_neg fun hall => h hall.1

/-- Settles O56: the load begun, a record taken or ignored, the load ended and its check read. -/
theorem planLoadOrdered : Obligations.PlanLoadOrdered := by
  refine ⟨fun ident count segments index record s h => ⟨fun hj => exec_dock_pass (c := .planBegin ident count segments) rfl h hj,
    fun hj => exec_dock_pass (c := .planData index record) rfl h hj, fun hj => exec_dock_pass (c := .planEnd) rfl h hj⟩,
    fun ident count segments u => ⟨fun h => if_pos h, fun h hlaw hrun => ?_⟩, fun index record u => ?_, fun u => ⟨fun h => if_neg h, fun h => if_pos h⟩,
    fun u h => ⟨planEndIfDrained_writing, fun hw hm => ?_, fun hw hm hcount => ?_⟩⟩
  · have hno : ¬ (u.dock.session.state = .starting ∨ u.dock.session.state = .streaming ∨ u.dock.session.state = .paused) := by
      rcases h with h | h | h <;> rw [h] <;> decide
    have hset := setRunState_planBegin hlaw hrun { PlanLoad.afterStart with
      phase := .erasing
      ident := ident
      count := clampCount 16384 count
      segments := clampCount 512 segments }
    refine ⟨setRunState { u with
      engine := { u.engine with
        plan := none
        interrupted := none }
      dock := { u.dock with load := { PlanLoad.afterStart with
        phase := .erasing
        ident := ident
        count := clampCount 16384 count
        segments := clampCount 512 segments } } } .loadingErase, if_neg hno, ?_⟩
    rw [hset, clampCount_eq _ _ (by decide), clampCount_eq _ _ (by decide), remap]
    dsimp only
    rw [raceReading_presence]
  · simp only [planData, takes_iff]
  · rw [planEndIfDrained_drained h hw]
    split
    · next heq => exact absurd heq hm
    · rfl
  · rw [planEndIfDrained_drained h hw, hm]
    dsimp only
    rw [planEndJudged_missing (Ne.symm hcount)]
    exact planFails_ends _ _

end Sys2Proof.Machine
end

section
/-!
PROOF. The upload session (R176 to R181): its opening and flush, the slots read, the synthesized records and their numbers (R169, R179).
-/

namespace Sys2Proof.Machine

/-! ## Slots read (R157, R158) -/

theorem allOnes_iff {bs : List Byte} {n : Nat} (h : bs.length = n) : allOnes bs = true ↔ bs = List.replicate n 0xFF := by
  rw [allOnes, List.all_eq_true, List.eq_replicate_iff]
  simp only [beq_iff_eq]
  exact ⟨fun hall => ⟨h, hall⟩, fun hall => hall.2⟩

theorem recordGood_iff {bs : List Byte} (h : bs.length = 32) : recordGood bs = true ↔ bs ≠ List.replicate 32 0xFF ∧ crc16 bs = 0 := by
  rw [recordGood, Bool.and_eq_true, Bool.not_eq_true', ← Bool.not_eq_true, allOnes_iff h, crcGood_iff h]

/-- A walk accepts the record of a slot whose bytes are good and whose number is above its last (R158). -/
theorem acceptedAt_eq (st : Store) (pos : LogPos) (n last : Nat) :
    let bs := st.flash.readBytes (slotAddress n pos.slot) 32
    st.acceptedAt pos n last =
      if bs ≠ List.replicate 32 0xFF ∧ crc16 bs = 0 ∧ last < fieldOf bs 0 4 then some (recordOf pos bs) else none := by
  intro bs
  have hgood : (recordGood bs && decide (last < fieldOf bs 0 4)) = true ↔
      bs ≠ List.replicate 32 0xFF ∧ crc16 bs = 0 ∧ last < fieldOf bs 0 4 := by
    rw [Bool.and_eq_true, recordGood_iff (Memory.readBytes_length _ _ _), decide_eq_true_eq, and_assoc]
  change (if (recordGood bs && decide (last < fieldOf bs 0 4)) = true then some (recordOf pos bs) else none) = _
  simp only [hgood]

/-! ## The session opened and closed (R176, R181) -/

theorem flushEnded_starting {u : State} (hclose : u.engine.closeWaits = false) (hstart : u.dock.session.state = .starting) :
    flushEnded u = { u with
      store := { u.store with flushing := false }
      dock := { u.dock with session := { u.dock.session with
        ask := some (if u.dock.session.start = 0 then .tail else .search ⟨0, 0⟩ 0) } } } := by
  unfold flushEnded
  dsimp only
  rw [hclose, Bool.false_and, if_neg Bool.false_ne_true]
  exact if_pos hstart

/-- The session's end leaves an upload read without a reader, and what else is served as it is (R181). -/
theorem orphanUploadRead_serving (st : Store) :
    (st.serving ≠ some (.uploadRead true) → st.orphanUploadRead.serving = st.serving) ∧
    st.orphanUploadRead.serving ≠ some (.uploadRead true) := by
  unfold Store.orphanUploadRead
  split
  · next b h =>
    rw [h]
    cases b with
    | true => exact ⟨fun hne => absurd rfl hne, nofun⟩
    | false => exact ⟨fun _ => rfl, nofun⟩
  · next h => exact ⟨fun _ => rfl, fun hr => h true hr⟩

theorem programIfDue_frame (st : Store) : st.programIfDue = { st with
    programming := st.programIfDue.programming
    progs := st.programIfDue.progs } := by
  unfold Store.programIfDue
  split <;> rfl

theorem buffersEmpty_iff (st : Store) : st.buffersEmpty = true ↔ st.pageBuf = [] ∧ st.second = [] := by
  rw [Store.buffersEmpty, Bool.and_eq_true, List.isEmpty_iff, List.isEmpty_iff]

theorem requestFlush_filled {u : State} (h : u.store.pageBuf ≠ [] ∨ u.store.second ≠ []) :
    requestFlush u = { u with store := ({ u.store with flushing := true } : Store).programIfDue } := by
  refine if_neg fun hb => ?_
  obtain ⟨hp, hs⟩ := (buffersEmpty_iff _).1 hb
  rcases h with h | h
  · exact h hp
  · exact h hs

theorem requestFlush_empty {u : State} (hp : u.store.pageBuf = []) (hs : u.store.second = []) : requestFlush u = flushEnded u :=
  if_pos ((buffersEmpty_iff _).2 ⟨hp, hs⟩)

/-- A flush begins the program of a page buffer that is FILLING with a record held (R163). -/
theorem programIfDue_flushing {st : Store} (hp : st.pageBuf ≠ []) (hf : st.programming = false) (hflush : st.flushing = true) :
    st.programIfDue = st.startProgram := by
  have hne : st.pageBuf.isEmpty = false := List.isEmpty_eq_false_iff.2 hp
  refine if_pos ?_
  rw [hf, hne, hflush, Bool.or_true]
  rfl

theorem replyWith_isLive {u : State} {tag : Nat} {echo : Byte} {x : DockStatus} {operands : List Byte} (hdata : u.dock.session.data = none)
    (hreplies : ∀ r ∈ u.dock.replies, r.tag ≠ tag) (htag : tag < u.nextTag) : (replyWith u echo x operands).isLive 11 tag = false := by
  rw [replyWith_eq]
  change (((if 8 ≤ u.dock.replies.length then u.dock.replies.tail else u.dock.replies) ++
    [({ tag := u.nextTag, body := .fixed ([echo, x.code] ++ operands) } : Reply)]).any (·.tag == tag) || (u.dock.session.data.map (·.tag)) == some tag) = false
  rw [hdata, Bool.or_eq_false_iff]
  refine And.intro (List.any_eq_false.2 fun r hr => ?_) rfl
  rw [beq_iff_eq]
  rcases List.mem_append.1 hr with hr | hr
  · refine hreplies r ?_
    split at hr
    · exact List.mem_of_mem_tail hr
    · exact hr
  · obtain rfl := List.mem_singleton.1 hr
    exact htag.ne'

/-! ## Replies of the upload's end (R179, R180) -/

theorem makeReply_replies {u : State} (h : u.dock.replies.length < 8) (body : ReplyBody) :
    (makeReply u body).dock.replies = u.dock.replies ++ [⟨u.nextTag, body⟩] := by
  have hfull : decide (Config.replyCapacity ≤ u.dock.replies.length) = false := decide_eq_false (Nat.not_le.2 h)
  rw [makeReply, hfull]
  rfl

theorem uploadEnd_eq (u : State) :
    let t := uploadEnd u
    t = { u with
      dock := { u.dock with
        session := { u.dock.session with state := .done }
        replies := t.dock.replies
        replyDrops := t.dock.replyDrops }
      nextTag := u.nextTag + 3 } ∧
    (u.dock.replies.length ≤ 5 → t.dock.replies = u.dock.replies ++
      [⟨u.nextTag, .uploadEnd 1⟩, ⟨u.nextTag + 1, .uploadEnd 2⟩, ⟨u.nextTag + 2, .uploadEnd 3⟩]) := by
  refine ⟨rfl, fun h => ?_⟩
  have h1 := makeReply_replies (u := u) (by omega) (.uploadEnd 1)
  have h2 := makeReply_replies (u := makeReply u (.uploadEnd 1)) (by rw [h1, List.length_append, List.length_singleton]; omega) (.uploadEnd 2)
  have h3 := makeReply_replies (u := makeReply (makeReply u (.uploadEnd 1)) (.uploadEnd 2))
    (by rw [h2, h1, List.length_append, List.length_append, List.length_singleton, List.length_singleton]; omega) (.uploadEnd 3)
  have ht : (uploadEnd u).dock.replies = _ := h3
  rw [ht, h2, h1, List.append_assoc, List.append_assoc]
  rfl

theorem endSynthesis_eq {u : State} {k : RecordBody} {rest : List RecordBody} (h : u.dock.session.toSynth = k :: rest) :
    let t := endSynthesis u
    t = { u with
        dock := { u.dock with
          session := { u.dock.session with
            state := .done
            unsynthesized := rest.length + 1
            toSynth := []
            numberWait := false }
          replies := t.dock.replies
          replyDrops := t.dock.replyDrops }
        nextTag := u.nextTag + 3 } ∧
      (u.dock.replies.length ≤ 5 → t.dock.replies = u.dock.replies ++
        [⟨u.nextTag, .uploadEnd 1⟩, ⟨u.nextTag + 1, .uploadEnd 2⟩, ⟨u.nextTag + 2, .uploadEnd 3⟩]) := by
  have hend := uploadEnd_eq { u with dock := { u.dock with session := { u.dock.session with
    unsynthesized := rest.length + 1
    toSynth := []
    numberWait := false } } }
  have ht : endSynthesis u = uploadEnd { u with dock := { u.dock with session := { u.dock.session with
      unsynthesized := rest.length + 1
      toSynth := []
      numberWait := false } } } := by rw [endSynthesis, h, List.length_cons]
  rw [ht]
  exact hend

/-! ## The newest sector, and numbers beyond the log (R160, R169) -/

theorem insertRow_sorted (r : Nat × SectorRow) {l : List (Nat × SectorRow)} (h : l.Pairwise fun a b => a.1 ≤ b.1) :
    (insertRow r l).Pairwise fun a b => a.1 ≤ b.1 := by
  induction l with
  | nil => exact List.pairwise_singleton _ _
  | cons x l ih =>
    obtain ⟨hx, hl⟩ := List.pairwise_cons.1 h
    unfold insertRow
    split
    · next hle =>
      refine List.pairwise_cons.2 ⟨fun y hy => ?_, h⟩
      rcases List.mem_cons.1 hy with rfl | hy
      · exact hle
      · exact hle.trans (hx y hy)
    · next hgt =>
      refine List.pairwise_cons.2 ⟨fun y hy => ?_, ih hl⟩
      rcases (mem_insertRow r y l).1 hy with rfl | hy
      · exact (Nat.lt_of_not_le hgt).le
      · exact hx y hy

theorem sortRows_sorted (rows : List SectorRow) : (sortRows rows).Pairwise fun a b => a.1 ≤ b.1 := by
  unfold sortRows
  induction rows.filterMap fun r => r.seq.map fun q => (q, r) with
  | nil => exact List.Pairwise.nil
  | cons r l ih => exact insertRow_sorted r ih

/-- The newest row is the one whose sequence is above every other's. -/
theorem sortRows_getLast {rows : List SectorRow} {r : SectorRow} {q : Nat} (hr : r ∈ rows) (hq : r.seq = some q)
    (hmax : ∀ x ∈ rows, ∀ y, x ≠ r → x.seq = some y → y < q) : (sortRows rows).getLast? = some (q, r) := by
  have hmem : (q, r) ∈ sortRows rows := mem_sortRows.2 ⟨hr, hq⟩
  obtain ⟨⟨y, x⟩, hlast⟩ := Option.isSome_iff_exists.1 (List.getLast?_isSome.2 (List.ne_nil_of_mem hmem))
  obtain ⟨l, hl⟩ := List.getLast?_eq_some_iff.1 hlast
  have hx : (y, x) ∈ sortRows rows := List.mem_of_getLast? hlast
  obtain ⟨hxr, hxq⟩ := mem_sortRows.1 hx
  rw [hlast]
  by_cases he : x = r
  · subst he
    cases hxq.symm.trans hq
    rfl
  · have hlt := hmax x hxr y he hxq
    have hsorted := sortRows_sorted rows
    rw [hl] at hsorted hmem
    have hle : q ≤ y := by
      rcases List.mem_append.1 hmem with hm | hm
      · exact (List.pairwise_append.1 hsorted).2.2 _ hm _ (List.mem_singleton_self _)
      · cases List.mem_singleton.1 hm
        exact le_refl _
    omega

theorem sortRows_eq_nil {rows : List SectorRow} (h : ∀ r ∈ rows, r.seq = none) : sortRows rows = [] := by
  refine List.eq_nil_iff_forall_not_mem.2 fun ⟨q, r⟩ hm => ?_
  obtain ⟨hr, hq⟩ := mem_sortRows.1 hm
  cases (h r hr).symm.trans hq

theorem numberAnswer_given {st : Store} (hd : st.seqCounter < st.durableBound) (hm : st.seqCounter < 4294967295) :
    st.numberAnswer = .given := by
  rw [Store.numberAnswer, if_neg (fun hmax : Config.seqMax ≤ st.seqCounter => Nat.not_le.2 hm hmax), if_pos hd]

theorem numberAnswer_max {st : Store} (h : 4294967295 ≤ st.seqCounter) : st.numberAnswer = .noNumber := if_pos h

/-- Past the durable bound a reserve entry of the newest sector answers, where one is unused (R169). -/
theorem numberAnswer_newest {st : Store} {r : SectorRow} {q : Nat} (hd : st.durableBound ≤ st.seqCounter) (hm : st.seqCounter < 4294967295)
    (hr : r ∈ st.rows) (hstate : r.state ≠ .retired) (hq : r.seq = some q)
    (hmax : ∀ x ∈ st.rows, ∀ y, x ≠ r → x.state ≠ .retired → x.seq = some y → y < q) :
    st.numberAnswer = match st.unusedReserve r.sector with
      | some k => .reserve r.sector k (min (st.seqCounter + 8192) 4294967295)
      | none => .noNumber := by
  have hlast : (sortRows (st.rows.filter (·.state != .retired))).getLast? = some (q, r) :=
    sortRows_getLast (List.mem_filter.2 ⟨hr, bne_iff_ne.2 hstate⟩) hq fun x hx y hne => hmax x (List.mem_filter.1 hx).1 y hne
      (bne_iff_ne.1 (List.mem_filter.1 hx).2)
  rw [Store.numberAnswer, if_neg (fun hmax : Config.seqMax ≤ st.seqCounter => Nat.not_le.2 hm hmax), if_neg (Nat.not_lt.2 hd), hlast] <;> rfl

theorem unusedReserve_eq (st : Store) (n : Nat) :
    let unused := fun offset => ((st.flash.readBytes (slotAddress n 0) 32).drop offset).take 6 = List.replicate 6 0xFF
    (unused 18 → st.unusedReserve n = some 2) ∧ (¬ unused 18 → unused 24 → st.unusedReserve n = some 3) ∧
    (¬ unused 18 → ¬ unused 24 → st.unusedReserve n = none) := by
  have hentry (k : Nat) (hk : k ≤ 26) : allOnes (((st.slotBytes n 0).drop k).take 6) = true ↔
      ((st.flash.readBytes (slotAddress n 0) 32).drop k).take 6 = List.replicate 6 0xFF :=
    allOnes_iff (by rw [List.length_take, List.length_drop, Store.slotBytes, Memory.slotBytes, Memory.readBytes_length]; change min 6 (32 - k) = 6; omega)
  have h2 := hentry 18 (by decide)
  have h3 := hentry 24 (by decide)
  have hfind : st.unusedReserve n =
      if allOnes (((st.slotBytes n 0).drop 18).take 6) then some 2
      else if allOnes (((st.slotBytes n 0).drop 24).take 6) then some 3 else none := by
    rw [Store.unusedReserve, List.find?_cons, List.find?_cons, List.find?_nil]
    change (match allOnes (((st.slotBytes n 0).drop 18).take 6) with
      | true => some 2
      | false => match allOnes (((st.slotBytes n 0).drop 24).take 6) with
        | true => some 3
        | false => none) = _
    cases allOnes (((st.slotBytes n 0).drop 18).take 6) <;> cases allOnes (((st.slotBytes n 0).drop 24).take 6) <;> rfl
  intro unused
  rw [hfind]
  refine ⟨fun h => if_pos (h2.2 h), fun h h' => ?_, fun h h' => ?_⟩
  · rw [if_neg fun hh => h (h2.1 hh), if_pos (h3.2 h')]
  · rw [if_neg fun hh => h (h2.1 hh), if_neg fun hh => h' (h3.1 hh)]

/-- With no sector that carries a sequence, the candidate is opened first, where it can be (R169). -/
theorem numberAnswer_unopened {st : Store} (hd : st.durableBound ≤ st.seqCounter) (hm : st.seqCounter < 4294967295)
    (h : ∀ r ∈ st.rows, r.state ≠ .retired → r.seq = none) :
    st.numberAnswer = if st.opening.isSome then .wait else if st.candidateErased then .openFirst else .noNumber := by
  have hnil : (sortRows (st.rows.filter (·.state != .retired))).getLast? = none := by
    rw [sortRows_eq_nil fun r hr => h r (List.mem_filter.1 hr).1 (bne_iff_ne.1 (List.mem_filter.1 hr).2)]
    rfl
  rw [Store.numberAnswer, if_neg (fun hmax : Config.seqMax ≤ st.seqCounter => Nat.not_le.2 hm hmax), if_neg (Nat.not_lt.2 hd), hnil]

theorem candidateErased_iff (st : Store) : st.candidateErased = true ↔ ∃ c, st.candidate = some c ∧ c.state = .erased := by
  unfold Store.candidateErased
  cases st.candidate <;> simp

theorem openCandidate_erased {st : Store} {c : SectorRow} (hc : st.candidate = some c) (he : c.state = .erased) :
    st.openCandidate = { st with
      opening := some ⟨c.sector, st.sectorSeq, c.eraseCount, st.seqCounter⟩
      head := some (c.sector, 1)
      progs := st.progs ++ [.opening] } := by
  rw [Store.openCandidate, hc]
  exact if_pos he

theorem synthesizeNext_cons {u : State} {k : RecordBody} {rest : List RecordBody} (h : u.dock.session.toSynth = k :: rest) :
    synthesizeNext u = match u.store.numberAnswer with
      | .given => synthesize u k rest
      | .reserve sector entry bound => { u with
        store := u.store.requestMark (.reserve sector entry bound)
        dock := { u.dock with session := { u.dock.session with numberWait := true } } }
      | .openFirst => { u with
        store := u.store.openCandidate
        dock := { u.dock with session := { u.dock.session with numberWait := true } } }
      | .wait => { u with dock := { u.dock with session := { u.dock.session with numberWait := true } } }
      | .noNumber => endSynthesis u := by
  rw [synthesizeNext, h] <;> rfl

theorem synthesizeNext_noNumber {u : State} {k : RecordBody} {rest : List RecordBody} (h : u.dock.session.toSynth = k :: rest)
    (hn : u.store.numberAnswer = .noNumber) : synthesizeNext u = endSynthesis u := by
  rw [synthesizeNext_cons h, hn]

/-! ## Upload reads (R176, R177) -/

/-- An upload read in progress ends as its purpose says. -/
theorem exec_uploadRead {s : State} (hp : s.startup.powered = true) (hs : s.store.serving = some (.uploadRead true)) :
    exec .uploadRead s = .next (settle (uploadReadEnds { s with store := { s.store with serving := none } })) := by
  refine act_next (f := sessionReadEnds) hp ?_
  rw [sessionReadEnds, hs]

theorem readOn_eq (u : State) (p : LogPos) (last : Nat) : readOn u p last =
    if u.store.nextSlot p = none then headReached u
    else { u with dock := { u.dock with session := { u.dock.session with ask := some (.next p last) } } } := by
  unfold readOn
  cases u.store.nextSlot p <;> rfl

theorem searchOn_eq (u : State) (p : LogPos) (last : Nat) : searchOn u p last =
    if u.store.nextSlot p = none then { u with dock := { u.dock with session := { u.dock.session with ask := some .tail } } }
    else { u with dock := { u.dock with session := { u.dock.session with ask := some (.search p last) } } } := by
  unfold searchOn
  cases u.store.nextSlot p <;> rfl

theorem nextReadEnds_eq {u : State} {pos p : LogPos} {n last : Nat} (h : u.store.nextSlot pos = some (p, n)) :
    let bs := u.store.flash.readBytes (slotAddress n p.slot) 32
    let accepted := bs ≠ List.replicate 32 0xFF ∧ crc16 bs = 0 ∧ last < fieldOf bs 0 4
    (accepted → nextReadEnds u pos last = holdRecord u (recordOf p bs)) ∧ (¬ accepted → nextReadEnds u pos last = readOn u p last) := by
  intro bs accepted
  have hacc := acceptedAt_eq u.store p n last
  unfold nextReadEnds
  rw [h]
  dsimp only
  rw [hacc]
  exact ⟨fun ha => by rw [if_pos ha], fun ha => by rw [if_neg ha]⟩

theorem searchReadEnds_eq {u : State} {pos p : LogPos} {n last : Nat} (h : u.store.nextSlot pos = some (p, n)) :
    let bs := u.store.flash.readBytes (slotAddress n p.slot) 32
    let accepted := bs ≠ List.replicate 32 0xFF ∧ crc16 bs = 0 ∧ last < fieldOf bs 0 4
    (accepted → fieldOf bs 0 4 = u.dock.session.start → searchReadEnds u pos last = holdRecord u (recordOf p bs)) ∧
    (accepted → fieldOf bs 0 4 ≠ u.dock.session.start → searchReadEnds u pos last = searchOn u p (fieldOf bs 0 4)) ∧
    (¬ accepted → searchReadEnds u pos last = searchOn u p last) := by
  intro bs accepted
  have hacc := acceptedAt_eq u.store p n last
  unfold searchReadEnds
  rw [h]
  dsimp only
  rw [hacc]
  refine ⟨fun ha hstart => ?_, fun ha hstart => ?_, fun ha => by rw [if_neg ha]⟩
  · rw [if_pos ha]
    exact if_pos hstart
  · rw [if_pos ha]
    exact if_neg hstart

theorem uploadReadEnds_eq (u : State) :
    (∀ pos last, u.dock.session.ask = some (.next pos last) → uploadReadEnds u = nextReadEnds u pos last) ∧
    (∀ pos last, u.dock.session.ask = some (.search pos last) → uploadReadEnds u = searchReadEnds u pos last) ∧
    (u.dock.session.ask = some .tail → uploadReadEnds u = tailReadEnds u) := by
  refine ⟨fun pos last h => ?_, fun pos last h => ?_, fun h => ?_⟩
  · rw [uploadReadEnds, h]
  · rw [uploadReadEnds, h]
  · rw [uploadReadEnds, h]

/-- What an upload read that ends does, by its purpose and the slot it has read. -/
theorem uploadRead_ends {s : State} (hp : s.startup.powered = true) (hs : s.store.serving = some (.uploadRead true)) :
    let u := { s with store := { s.store with serving := none } }
    let ask := fun a => { u with dock := { u.dock with session := { u.dock.session with ask := some a } } }
    let after := fun (p : LogPos) (a b : State) => if s.store.nextSlot p = none then a else b
    (∀ (pos : LogPos) (last : Nat) (p : LogPos) (n : Nat), s.store.nextSlot pos = some (p, n) →
      let bs := s.store.flash.readBytes (slotAddress n p.slot) 32
      let accepted := bs ≠ List.replicate 32 0xFF ∧ crc16 bs = 0 ∧ last < fieldOf bs 0 4
      (s.dock.session.ask = some (.next pos last) →
        (accepted → exec .uploadRead s = .next (settle (holdRecord u (recordOf p bs)))) ∧
        (¬ accepted → exec .uploadRead s = .next (settle (after p (headReached u) (ask (.next p last)))))) ∧
      (s.dock.session.ask = some (.search pos last) →
        (accepted → fieldOf bs 0 4 = s.dock.session.start → exec .uploadRead s = .next (settle (holdRecord u (recordOf p bs)))) ∧
        (accepted → fieldOf bs 0 4 ≠ s.dock.session.start →
          exec .uploadRead s = .next (settle (after p (ask .tail) (ask (.search p (fieldOf bs 0 4)))))) ∧
        (¬ accepted → exec .uploadRead s = .next (settle (after p (ask .tail) (ask (.search p last))))))) ∧
    (∀ (pos : LogPos) (last : Nat), s.store.nextSlot pos = none →
      (s.dock.session.ask = some (.next pos last) → exec .uploadRead s = .next (settle (headReached u))) ∧
      (s.dock.session.ask = some (.search pos last) → exec .uploadRead s = .next (settle (ask .tail)))) ∧
    (s.dock.session.ask = some .tail →
      (∀ r, s.store.tail = some r → exec .uploadRead s = .next (settle (holdRecord u r))) ∧
      (s.store.tail = none → exec .uploadRead s = .next (settle (headReached u)))) := by
  intro u ask after
  obtain ⟨hnext, hsearch, htail⟩ := uploadReadEnds_eq u
  rw [exec_uploadRead hp hs]
  refine ⟨fun pos last p n h => ⟨fun ha => ?_, fun ha => ?_⟩, fun pos last h => ⟨fun ha => ?_, fun ha => ?_⟩, fun ha => ⟨fun r h => ?_, fun h => ?_⟩⟩
  · obtain ⟨hacc, hnot⟩ := nextReadEnds_eq (u := u) (last := last) h
    have hends : uploadReadEnds u = _ := hnext pos last ha
    exact ⟨fun h => by rw [hends, hacc h], fun h => by rw [hends, hnot h, readOn_eq]; rfl⟩
  · obtain ⟨hfound, hacc, hnot⟩ := searchReadEnds_eq (u := u) (last := last) h
    have hends : uploadReadEnds u = _ := hsearch pos last ha
    exact ⟨fun h h' => by rw [hends, hfound h h'], fun h h' => by rw [hends, hacc h h', searchOn_eq]; rfl,
      fun h => by rw [hends, hnot h, searchOn_eq]; rfl⟩
  · have h' : u.store.nextSlot pos = none := h
    have hends : uploadReadEnds u = _ := hnext pos last ha
    rw [hends, nextReadEnds, h']
  · have h' : u.store.nextSlot pos = none := h
    have hends : uploadReadEnds u = _ := hsearch pos last ha
    rw [hends, searchReadEnds, h']
  · have h' : u.store.tail = some r := h
    have hends : uploadReadEnds u = _ := htail ha
    rw [hends, tailReadEnds, h']
  · have h' : u.store.tail = none := h
    have hends : uploadReadEnds u = _ := htail ha
    rw [hends, tailReadEnds, h']

/-- Settles O53: the session, its flush, its reads, and the synthesized records with their numbers. -/
theorem uploadOpensAndCloses : Obligations.UploadOpensAndCloses := by
  refine ⟨fun start s h hj => ⟨exec_dock_pass (c := .uploadOpen start) rfl h hj, exec_dock_pass (c := .uploadClose) rfl h hj⟩,
    fun start u => ⟨fun h => if_neg (by rcases h with h | h | h <;> rw [h] <;> decide), fun h => if_pos h, ?_⟩, fun u tag hreplies htag => ?_,
    fun u => ⟨fun hp hs hc hstart => ?_, fun h => ?_⟩, fun s hp hs => ?_, fun u h => ?_, fun u k rest h hd hm => ?_, fun u k rest h hor => ?_⟩
  · obtain ⟨hkept, hnone⟩ := orphanUploadRead_serving u.store
    exact ⟨endSession u, rfl, by rw [endSession_eq], hkept, hnone⟩
  · exact ⟨replyWith_isLive (u := endSession u) rfl hreplies htag, rfl⟩
  · rw [requestFlush_empty hp hs, flushEnded_starting hc hstart]
  · rw [requestFlush_filled h]
    refine ⟨congrArg (fun st => { u with store := st }) (programIfDue_frame _), fun hne hidle => ?_⟩
    rw [programIfDue_flushing (st := { u.store with flushing := true }) hne hidle rfl]
    exact ⟨rfl, rfl⟩
  · obtain ⟨hslot, hhead, htail⟩ := uploadRead_ends hp hs
    exact ⟨fun pos last _ p n h => hslot pos last p n h, hhead, htail⟩
  · have hnil : synthesizeNext u = uploadEnd u := by rw [synthesizeNext, h]
    dsimp only
    rw [hnil]
    exact uploadEnd_eq u
  · rw [synthesizeNext_cons h, numberAnswer_given hd hm]
    rfl
  · intro t waits noNumber
    have hno (hn : u.store.numberAnswer = .noNumber) : noNumber := by
      have ht : t = endSynthesis u := synthesizeNext_noNumber h hn
      dsimp only [noNumber]
      rw [ht]
      exact endSynthesis_eq h
    refine ⟨fun hmax => hno (numberAnswer_max hmax), fun hm => ?_⟩
    have hd : u.store.durableBound ≤ u.store.seqCounter := hor.resolve_right (Nat.not_le.2 hm)
    have ht : t = _ := synthesizeNext_cons h
    refine ⟨fun r q hr hstate hq hmax => ?_, fun hnone => ⟨fun ho => ?_, fun ho c hc he => ?_, fun ho hc => ?_⟩⟩
    · have hanswer := numberAnswer_newest hd hm hr hstate hq hmax
      obtain ⟨h2, h3, hfull⟩ := unusedReserve_eq u.store r.sector
      refine ⟨fun hu => ?_, fun hu hu' => ?_, fun hu hu' => hno ?_⟩
      · rw [ht, hanswer, h2 hu]
        dsimp only
        rw [requestMark_eq]
      · rw [ht, hanswer, h3 hu hu']
        dsimp only
        rw [requestMark_eq]
      · rw [hanswer, hfull hu hu']
    · rw [ht, numberAnswer_unopened hd hm hnone, if_pos ho]
    · rw [ht, numberAnswer_unopened hd hm hnone, ho, if_neg (by decide), if_pos ((candidateErased_iff _).2 ⟨c, hc, he⟩)]
      dsimp only
      rw [openCandidate_erased hc he]
    · refine hno ?_
      rw [numberAnswer_unopened hd hm hnone, ho, if_neg (by decide), if_neg]
      rintro hce
      obtain ⟨c, hc', he⟩ := (candidateErased_iff _).1 hce
      exact hc c hc' he

end Sys2Proof.Machine
end

section
/-!
PROOF. The programs of header marks and of the plan (R156, R169, R185, R186), and the erases (R167, R168, R184).
-/

namespace Sys2Proof.Machine

/-! ## A program's end (R154) -/

/-- The end of a program inside the flash array has its effect. -/
theorem actProgram_next {f : State → Option State} {s t : State} {a : Nat} {bs : List Byte} (hp : s.startup.powered = true)
    (htarget : s.programTarget = some (a, bs)) (hin : inFlash a bs.length = true) (h : f s = some t) :
    actProgram f s = .next (settle t) :=
  (actProgram_inside htarget hin).trans (act_next hp h)

theorem programTarget_mark {s : State} {m : MarkReq} (h : s.store.serving = some (.mark m)) :
    s.programTarget = some (slotAddress m.sector 0 + m.offset, m.pattern) := by rw [State.programTarget, h]

theorem programTarget_planRecord {s : State} {i : Nat} {bs : List Byte} (h : s.store.serving = some (.planRecord i bs)) :
    s.programTarget = some (planSlotAddress i, bs) := by rw [State.programTarget, h]

theorem programTarget_planHeader {s : State} (h : s.store.serving = some .planHeader) :
    s.programTarget = some (planHeaderOffset, planHeaderBytes s.dock.load.plan) := by
  rw [State.programTarget, h]
  rfl

/-- What a program leaves: its bytes, or a fault counted and bytes between old and intended (R154, R164; log 7). -/
theorem programFlash_eq (ok : Bool) (a : Nat) (bs : List Byte) (s : State) : programFlash ok a bs { s with
      store := { s.store with serving := none } } =
    if ok then { s with store := { s.store with
      serving := none
      flash := s.store.flash.program a bs } }
    else { s with
      store := { s.store with
        serving := none
        flash := s.store.flash.tornProgram s.freeIndex a bs
        faults := min (s.store.faults + 1) 65535 }
      startup := { s.startup with conds := { s.startup.conds with storeFault := true } }
      freeIndex := s.freeIndex + 1 } := by
  cases ok <;> rfl

/-! ## Header marks (R156, R169) -/

theorem markEnds_uploaded (n : Nat) (u : State) : markEnds (.uploaded n) true u = { u with store := { u.store with
    rows := u.store.rows.map fun r => if r.sector = n ∧ r.state = .full then { r with state := .uploaded } else r } } := by
  have hrows : u.store.rows.map (fun r => if r.sector = n then { r with state := if r.state = .full then .uploaded else r.state } else r) =
      u.store.rows.map fun r => if r.sector = n ∧ r.state = .full then { r with state := .uploaded } else r := by
    refine List.map_congr_left fun r _ => ?_
    by_cases hn : r.sector = n
    · by_cases hf : r.state = .full
      · rw [if_pos hn, if_pos hf, if_pos ⟨hn, hf⟩]
      · rw [if_pos hn, if_neg hf, if_neg fun h => hf h.2]
    · rw [if_neg hn, if_neg fun h => hn h.1]
  rw [← hrows]
  rfl

theorem reserveAnswers_eq {u : State} {x : RecordBody} {rest : List RecordBody} (h : u.dock.session.toSynth = x :: rest) (ok : Bool) :
    reserveAnswers u ok = if ok then synthesize u x rest else endSynthesis u := by
  unfold reserveAnswers
  rw [h]
  cases ok <;> rfl

theorem markEnds_reserve (n k bound : Nat) (ok : Bool) (u : State) :
    (u.dock.session.numberWait = false → markEnds (.reserve n k bound) ok u =
      if ok then { u with store := { u.store with durableBound := bound } } else u) ∧
    (∀ x rest, u.dock.session.numberWait = true → u.dock.session.toSynth = x :: rest → markEnds (.reserve n k bound) ok u =
      if ok then synthesize { u with store := { u.store with durableBound := bound } } x rest else endSynthesis u) := by
  have hm : markEnds (.reserve n k bound) ok u = reserveEnded u bound ok := rfl
  rw [hm]
  unfold reserveEnded
  refine ⟨fun hw => ?_, fun x rest hw hs => ?_⟩
  · cases ok with
    | true => exact if_neg (by rw [if_pos rfl]; exact fun h => Bool.noConfusion (hw.symm.trans h))
    | false => exact if_neg fun h => Bool.noConfusion (hw.symm.trans h)
  · cases ok with
    | true =>
      exact (if_pos hw).trans (reserveAnswers_eq (u := { u with store := { u.store with durableBound := bound } }) hs true)
    | false =>
      exact (if_pos hw).trans (reserveAnswers_eq hs false)

/-! ## The plan header (R186) -/

theorem planHeader_inFlash (p : Plan) : inFlash planHeaderOffset (planHeaderBytes p).length = true := by
  rw [planHeaderBytes, planHeaderCovered, List.length_append, List.length_append, List.length_append, List.length_append, bytesOf_length,
    bytesOf_length, bytesOf_length, crcBytes_length]
  rfl

/-- PLAN STATUS of a load that has failed: the figures of the build are 0 (R186). -/
theorem planStatus_eq {u : State} {result : Byte} (h : (result == 0) = false) : planStatus u result =
    replyWith { u with dock := { u.dock with load := { u.dock.load with phase := .none } } } 8 .done
      ([result] ++ bytesOf 2 u.dock.load.received.length ++ bytesOf 2 (u.dock.load.count - u.dock.load.received.length) ++
        bytesOf 2 u.dock.load.bad.length ++ figure16 u.dock.load.ignored ++ [0, 0] ++ [0, 0] ++ [0, 0]) := by
  have hzero : bytesOf 2 0 = [0, 0] := by decide
  unfold planStatus
  simp only [h, Bool.false_eq_true, if_false, hzero]

/-- What a change of the run state sets, and what it keeps for sure. -/
theorem setRunState_kept (s : State) (r : RunState) :
    let t := setRunState s r
    t.dock = s.dock ∧ t.engine.runState = some r ∧ t.engine.plan = s.engine.plan ∧ t.nextTag = s.nextTag ∧
    t.store.faults = s.store.faults ∧ t.startup.conds.storeFault = s.startup.conds.storeFault ∧ t.store.flash = s.store.flash ∧
    t.store.erase = s.store.erase ∧ t.store.planErase = s.store.planErase := by
  have h := recompute_frame { s with engine := { s.engine with runState := some r } }
  have hp {α : Type} (f : State → α) := congrArg f h
  exact ⟨hp State.dock, hp fun s => s.engine.runState, hp fun s => s.engine.plan, hp State.nextTag, hp fun s => s.store.faults,
    hp fun s => s.startup.conds.storeFault, hp fun s => s.store.flash, hp fun s => s.store.erase, hp fun s => s.store.planErase⟩

/-- A plan header that does not verify (R186): PLAN STATUS with result 2, and BLANK. -/
theorem planFails_eq (u : State) {result : Byte} (h : (result == 0) = false) (hle : u.dock.load.ignored ≤ 65535) :
    (planFails u result).dock = { u.dock with
      load := { u.dock.load with phase := .none }
      replies := (if 8 ≤ u.dock.replies.length then u.dock.replies.tail else u.dock.replies) ++ [⟨u.nextTag, .fixed ([8, 1, result] ++
        bytesOf 2 u.dock.load.received.length ++ bytesOf 2 (u.dock.load.count - u.dock.load.received.length) ++
        bytesOf 2 u.dock.load.bad.length ++ bytesOf 2 u.dock.load.ignored ++ [0, 0, 0, 0, 0, 0])⟩]
      replyDrops := if 8 ≤ u.dock.replies.length then min (u.dock.replyDrops + 1) 65535 else u.dock.replyDrops } := by
  obtain ⟨hdock, -, -, htag, -⟩ := setRunState_kept u .blank
  rw [planFails, planStatus_eq h, replyWith_eq]
  dsimp only
  rw [hdock, htag, figure16, if_pos hle]
  simp only [List.append_assoc, List.cons_append, List.nil_append]
  rfl

theorem planFails_kept (u : State) {result : Byte} (h : (result == 0) = false) :
    let t := planFails u result
    t.engine.runState = some .blank ∧ t.engine.plan = u.engine.plan ∧ t.dock.load = { u.dock.load with phase := .none } ∧
    t.store.faults = u.store.faults ∧ t.startup.conds.storeFault = u.startup.conds.storeFault ∧ t.store.flash = u.store.flash := by
  obtain ⟨hdock, hrun, hplan, -, hfaults, hconds, hflash, -⟩ := setRunState_kept u .blank
  dsimp only
  rw [planFails, planStatus_eq h, replyWith_eq]
  exact ⟨hrun, hplan, by rw [hdock], hfaults, hconds, hflash⟩

/-- Settles O59: each mark's effect, the plan record, and the plan header verified or not. -/
theorem markAndPlanPrograms : Obligations.MarkAndPlanPrograms := by
  refine ⟨fun s m ok hp hs hin => ?_, fun s i bs ok hp hs hin => ?_, fun u => ⟨fun h => ?_, fun h hw hm => ?_⟩, fun s p hp hs hplan => ⟨?_, ?_⟩⟩
  · intro a u
    have hu : programFlash ok a m.pattern { s with store := { s.store with serving := none } } = u := programFlash_eq ok a m.pattern s
    refine ⟨?_, fun n h => ?_, fun n h hok => ?_, fun n h => ?_, fun n k b h hw => ?_, fun n k b x rest h hw hsynth => ?_⟩
    · refine actProgram_next (f := headerMarkEnds ok) hp (programTarget_mark hs) hin ?_
      rw [headerMarkEnds, hs]
      exact congrArg (fun v => some (markEnds m ok v)) hu
    · rcases h with rfl | rfl | ⟨rfl, rfl⟩
      · rfl
      · rfl
      · rfl
    · rw [h, hok]
      exact markEnds_uploaded n _
    · rw [h]
      rfl
    · rw [h]
      exact (markEnds_reserve n k b ok u).1 (by dsimp only [u]; split <;> exact hw)
    · rw [h]
      exact (markEnds_reserve n k b ok u).2 x rest (by dsimp only [u]; split <;> exact hw) (by dsimp only [u]; split <;> exact hsynth)
  · refine actProgram_next (f := planRecordEnds ok) hp (programTarget_planRecord hs) hin ?_
    have haddress : planSlotAddress i = 32 * i := Nat.mul_comm _ _
    rw [planRecordEnds, hs]
    dsimp only
    rw [programFlash_eq, haddress]
    cases ok <;> rfl
  · refine if_neg fun hw => ?_
    rcases h with h | h
    · exact h hw.1
    · exact Bool.noConfusion (h.symm.trans hw.2)
  · rw [planEndIfDrained_drained h hw]
    split
    · next heq => exact absurd heq hm
    · rfl
  · refine actProgram_next (f := planHeaderEnds true) hp (programTarget_planHeader hs) (planHeader_inFlash _) ?_
    rw [planHeaderEnds, hs, hplan]
    rfl
  · have hends : planHeaderEnds false s = some (planFails (programFlash false planHeaderOffset (planHeaderBytes s.dock.load.plan)
        { s with store := { s.store with serving := none } }) 2) := by
      rw [planHeaderEnds, hs]
      rfl
    rw [programFlash_eq, if_neg Bool.false_ne_true] at hends
    refine ⟨_, actProgram_next hp (programTarget_planHeader hs) (planHeader_inFlash _) hends, ?_⟩
    generalize hu : ({ s with
      store := { s.store with
        serving := none
        flash := s.store.flash.tornProgram s.freeIndex planHeaderOffset (planHeaderBytes s.dock.load.plan)
        faults := min (s.store.faults + 1) 65535 }
      startup := { s.startup with conds := { s.startup.conds with storeFault := true } }
      freeIndex := s.freeIndex + 1 } : State) = u
    have hdock : u.dock = s.dock := hu ▸ rfl
    have htag : u.nextTag = s.nextTag := hu ▸ rfl
    have hplan' : u.engine.plan = s.engine.plan := hu ▸ rfl
    have hfaults : u.store.faults = min (s.store.faults + 1) 65535 := hu ▸ rfl
    have hconds : u.startup.conds.storeFault = true := hu ▸ rfl
    have hflash : u.store.flash = s.store.flash.tornProgram s.freeIndex 19 (planHeaderBytes p) := by rw [← hu, hplan]; rfl
    obtain ⟨hrun, hkeptPlan, hload, hkeptFaults, hkeptConds, hkeptFlash⟩ := planFails_kept u (result := 2) (by decide)
    refine ⟨hrun, hkeptPlan.trans hplan', fun hle => ?_, by rw [hload, hdock], hkeptFaults.trans hfaults, hkeptConds.trans hconds,
      hkeptFlash.trans hflash⟩
    rw [planFails_eq u (by decide) (by rw [hdock]; exact hle), hdock, htag]

/-! ## Erases (R167, R168, R184) -/

theorem eraseDue_of {s : State} {e : EraseRun} (he : s.store.erase = some e) (hs : s.store.serving = none) (h40 : 40 ≤ e.spent) :
    s.eraseDue (decide (e.sector < 128)) = some e.sector := by
  unfold State.eraseDue
  rw [he]
  exact if_pos ⟨hs, h40, rfl⟩

/-- An erase that is suspended, or has not had its 40 ms, does not end (R154, R167). -/
theorem eraseDue_none {s : State} {e : EraseRun} (he : s.store.erase = some e) (h : s.store.serving.isSome = true ∨ e.spent < 40)
    (plan : Bool) : s.eraseDue plan = none := by
  unfold State.eraseDue
  rw [he]
  refine if_neg fun ⟨hs, h40, _⟩ => ?_
  rcases h with h | h
  · exact Bool.noConfusion ((congrArg Option.isSome hs).symm.trans h)
  · exact absurd h40 (Nat.not_le.2 h)

/-- The bytes of a sector, by their addresses. -/
theorem inSector_iff (n a : Nat) : (slotAddress n 0 ≤ a ∧ a < slotAddress n 0 + 4096) ↔ a / 4096 = n := by
  have h : slotAddress n 0 = n * 4096 := by simp only [slotAddress, Config.sectorBytes, Nat.zero_mul, Nat.add_zero]
  rw [h]
  omega

theorem read_eraseSector (m : Memory) (n a : Nat) : (m.erase (slotAddress n 0) 4096).read a = if a / 4096 = n then 0xFF else m.read a := by
  rw [Memory.read_erase]
  simp only [inSector_iff]

theorem candidate_congr {a b : Store} (h : a.rows = b.rows) : a.candidate = b.candidate := by
  rw [Store.candidate, Store.candidate, Store.newest, Store.newest, Store.row, Store.row, h]

theorem openCandidate_frame (st : Store) : st.openCandidate = { st with
    opening := st.openCandidate.opening
    head := st.openCandidate.head
    progs := st.openCandidate.progs } := by
  unfold Store.openCandidate
  split
  · split <;> rfl
  · rfl

/-- A log sector erased, before the candidate may be opened. -/
def Store.erasedSector (st : Store) (n : Nat) : Store := { st with
  flash := st.flash.erase (slotAddress n 0) 4096
  erase := none
  eraseList := st.eraseList.filter (·.sector != n)
  rows := st.rows.map fun r => if r.sector = n then { r with
    state := .erased
    seq := none
    eraseCount := min (r.eraseCount + 1) 16777214
    abandoned := 0
    first := none
    last := none } else r }

theorem sectorErased_eq (st : Store) (n : Nat) : st.sectorErased n =
    if st.head = none ∧ (st.erasedSector n).candidateErased = true then (st.erasedSector n).openCandidate else st.erasedSector n := by
  have h : ((st.erasedSector n).head.isNone && (st.erasedSector n).candidateErased) = true ↔
      st.head = none ∧ (st.erasedSector n).candidateErased = true := by
    rw [Bool.and_eq_true, Option.isNone_iff_eq_none]
    rfl
  have hd : st.sectorErased n = if ((st.erasedSector n).head.isNone && (st.erasedSector n).candidateErased) = true then
      (st.erasedSector n).openCandidate else st.erasedSector n := rfl
  rw [hd]
  simp only [h]

theorem sectorErased_frame (st : Store) (n : Nat) : st.sectorErased n = { st.erasedSector n with
    opening := (st.sectorErased n).opening
    head := (st.sectorErased n).head
    progs := (st.sectorErased n).progs } := by
  rw [sectorErased_eq]
  split
  · exact openCandidate_frame _
  · rfl

/-- The candidate is opened at once where no sector is OPENED and it is ERASED (R162). -/
theorem sectorErased_opens (st : Store) (n : Nat) :
    let t := st.sectorErased n
    (st.head.isSome = true → t.head = st.head ∧ t.opening = st.opening ∧ t.progs = st.progs) ∧
    (st.head = none →
      (t.candidateErased = false → t.head = none ∧ t.opening = st.opening ∧ t.progs = st.progs) ∧
      (∀ r, t.candidate = some r → r.state = .erased → t.head = some (r.sector, 1) ∧
        t.opening = some ⟨r.sector, st.sectorSeq, r.eraseCount, st.seqCounter⟩ ∧ t.progs = st.progs ++ [.opening])) := by
  have hcandidate : (st.sectorErased n).candidate = (st.erasedSector n).candidate := candidate_congr (by rw [sectorErased_frame])
  have herased : (st.sectorErased n).candidateErased = (st.erasedSector n).candidateErased := by
    rw [Store.candidateErased, Store.candidateErased, hcandidate]
  dsimp only
  rw [hcandidate, herased, sectorErased_eq]
  refine ⟨fun h => ?_, fun h => ⟨fun hc => ?_, fun r hc he => ?_⟩⟩
  · rw [if_neg fun hn => Bool.noConfusion ((congrArg Option.isSome hn.1).symm.trans h)]
    exact ⟨rfl, rfl, rfl⟩
  · rw [if_neg fun hn => Bool.noConfusion (hc.symm.trans hn.2)]
    exact ⟨h, rfl, rfl⟩
  · rw [if_pos ⟨h, (candidateErased_iff _).2 ⟨r, hc, he⟩⟩, openCandidate_erased hc he]
    exact ⟨rfl, rfl, rfl⟩

/-- A reading that a recomputation brings looks at nothing that the end of a plan's erases changes. -/
theorem raceReading_erased (u : State) (st : Store) (d : Dock) (r : Option RunState) :
    raceReading { u with
      engine := { u.engine with runState := r }
      store := st
      dock := d } = { raceReading u with
    engine := { (raceReading u).engine with runState := r }
    store := st
    dock := d } := by
  by_cases h : ∃ item, u.engine.op = .packet item none
  · obtain ⟨item, h⟩ := h
    rw [raceReading_of_waiting h]
    exact raceReading_of_waiting h
  · rw [raceReading_of_taken fun item hi => h ⟨item, hi⟩]
    exact raceReading_of_taken fun item hi => h ⟨item, hi⟩

/-- The plan region erased: LOADING-DATA and the map computed afresh, before PLAN STATUS (R184). -/
theorem setRunState_erased {s : State} (hlaw : RunLaw s) (hrun : s.isRunning = false) (st : Store) (d : Dock) :
    setRunState { s with
      store := st
      dock := d } .loadingData = { raceReading s with
    store := st
    engine := { (raceReading s).engine with runState := some .loadingData }
    presence := { s.presence with owners := (List.range s.settings.collectors).map fun i => s.effectiveOwner (i + 1) }
    dock := d } := by
  have hquiet := recompute_quiet (s := { s with
    engine := { s.engine with runState := some .loadingData }
    store := st
    dock := d }) rfl (hlaw.shares hrun)
  have howners : s.allShares.map s.effectiveOwner = (List.range s.settings.collectors).map fun i => s.effectiveOwner (i + 1) := by
    rw [State.allShares, List.map_map]
    rfl
  refine hquiet.trans ?_
  rw [remap_raceReading, raceReading_erased, ← howners]
  rfl

/-- A plan sector erased (R184): the next one waits, or the station is in LOADING-DATA with PLAN STATUS (ready). -/
theorem planSectorErased_eq (n : Nat) (s : State) :
    (n < 127 → planSectorErased n s = { s with store := { s.store with
      flash := s.store.flash.erase (slotAddress n 0) 4096
      erase := none
      planErase := some (n + 1) } }) ∧
    (n = 127 → planSectorErased n s = replyWith (setRunState { s with
        store := { s.store with
          flash := s.store.flash.erase (slotAddress n 0) 4096
          erase := none
          planErase := none }
        dock := { s.dock with load := { s.dock.load with phase := .receiving } } } .loadingData) 6 .done
      (bytesOf 2 s.dock.load.count ++ bytesOf 2 s.dock.load.segments)) := by
  refine ⟨fun h => ?_, fun h => ?_⟩
  · have hnext : n + 1 < Config.firstLogSector := Nat.succ_lt_succ h
    unfold planSectorErased
    simp only [hnext, if_true]
    rfl
  · have hlast : ¬ n + 1 < Config.firstLogSector := by rw [h]; exact Nat.lt_irrefl 128
    have hd : planSectorErased n s =
        let v := setRunState { s with
          store := { s.store with
            flash := s.store.flash.erase (slotAddress n 0) 4096
            erase := none
            planErase := none }
          dock := { s.dock with load := { s.dock.load with phase := .receiving } } } .loadingData
        replyWith v 6 .done (bytesOf 2 v.dock.load.count ++ bytesOf 2 v.dock.load.segments) := by
      unfold planSectorErased
      simp only [hlast, if_false]
      rfl
    rw [hd]
    generalize hx : ({ s with
      store := { s.store with
        flash := s.store.flash.erase (slotAddress n 0) 4096
        erase := none
        planErase := none }
      dock := { s.dock with load := { s.dock.load with phase := .receiving } } } : State) = x
    have hcounts : x.dock.load.count = s.dock.load.count ∧ x.dock.load.segments = s.dock.load.segments := hx ▸ ⟨rfl, rfl⟩
    dsimp only
    rw [(setRunState_kept x .loadingData).1, hcounts.1, hcounts.2]

/-- Settles O60: a log sector erased, an erase that does not end yet, and a plan sector erased. -/
theorem flashErases : Obligations.FlashErases := by
  refine ⟨fun s e hp he hs h40 hlog hin => ?_, fun s e he h => ⟨?_, ?_⟩, fun s e hp he hs h40 hplan => ?_⟩
  · have hdue : s.eraseDue false = some e.sector := by
      have := eraseDue_of he hs h40
      rwa [decide_eq_false (Nat.not_lt.2 hlog)] at this
    have hexec : exec .sectorErase s = .next (settle { s with store := s.store.sectorErased e.sector }) := by
      change execSectorErase s = _
      rw [execSectorErase, hp, hdue]
      exact (atFlash_inside hin).trans (act_next hp rfl)
    have hflash : (s.store.sectorErased e.sector).flash = s.store.flash.erase (slotAddress e.sector 0) 4096 := by
      rw [sectorErased_frame]
      rfl
    obtain ⟨hhead, hnone⟩ := sectorErased_opens s.store e.sector
    refine ⟨_, hexec, ?_, hhead, hnone, fun a => ?_⟩
    · dsimp only
      rw [hflash]
      exact congrArg (fun st => { s with store := st }) (sectorErased_frame s.store e.sector)
    · dsimp only
      rw [hflash, read_eraseSector]
  · change execSectorErase s = _
    rw [execSectorErase, eraseDue_none he h]
    cases s.startup.powered <;> rfl
  · change execPlanSectorErase s = _
    rw [execPlanSectorErase, eraseDue_none he h]
    cases s.startup.powered <;> rfl
  · have hdue : s.eraseDue true = some e.sector := by
      have := eraseDue_of he hs h40
      rwa [decide_eq_true hplan] at this
    have hin : inFlash (slotAddress e.sector 0) Config.sectorBytes = true := by
      refine decide_eq_true ?_
      simp only [slotAddress, Config.sectorBytes, Config.flashBytes, Nat.zero_mul, Nat.add_zero]
      omega
    have hexec : exec .planSectorErase s = .next (settle (planSectorErased e.sector s)) := by
      change execPlanSectorErase s = _
      rw [execPlanSectorErase, hp, hdue]
      exact (atFlash_inside hin).trans (act_next hp rfl)
    obtain ⟨hnext, hlast⟩ := planSectorErased_eq e.sector s
    have hkept := setRunState_kept { s with
      store := { s.store with
        flash := s.store.flash.erase (slotAddress e.sector 0) 4096
        erase := none
        planErase := none }
      dock := { s.dock with load := { s.dock.load with phase := .receiving } } } .loadingData
    obtain ⟨hdock, hrun, -, htag, -, -, hflash, herase, hplanErase⟩ := hkept
    refine ⟨_, hexec, fun a => ?_, fun h => ?_, fun h => ?_⟩
    · have hread : (planSectorErased e.sector s).store.flash = s.store.flash.erase (slotAddress e.sector 0) 4096 := by
        rcases Nat.lt_or_eq_of_le (Nat.le_of_lt_succ hplan) with h | h
        · rw [hnext h]
        · rw [hlast h]
          exact hflash
      rw [hread, read_eraseSector]
    · rw [hnext h]
    · rw [hlast h]
      refine ⟨hrun, herase, hplanErase, ?_, fun hlaw hidle => ?_⟩
      · rw [replyWith_eq]
        dsimp only
        rw [hdock, htag]
        rfl
      · rw [setRunState_erased hlaw hidle, replyWith_eq]
        dsimp only
        rw [raceReading_nextTag]

end Sys2Proof.Machine
end

section
/-!
PROOF. The programs of the log (R161 to R165): the page buffer verified or abandoned, the sector left, the buffers after a fault, the
opening made or failed.
-/

namespace Sys2Proof.Machine

/-! ## The candidate (R160) -/

theorem newest_none {st : Store} (h : ∀ r ∈ st.rows, r.seq = none) : st.newest = none := by
  rw [Store.newest, sortRows_eq_nil h]
  rfl

theorem candidate_unused {st : Store} (h : ∀ r ∈ st.rows, r.seq = none) : st.candidate = st.rows.find? fun x => x.sector == 128 := by
  rw [Store.candidate, newest_none h]
  rfl

theorem candidate_after {st : Store} {r : SectorRow} {q : Nat} (hr : r ∈ st.rows) (hq : r.seq = some q)
    (hmax : ∀ x ∈ st.rows, ∀ y, x ≠ r → x.seq = some y → y < q) :
    st.candidate = ((st.rows.filter fun x => decide (r.sector < x.sector)) ++
      (st.rows.filter fun x => decide (x.sector ≤ r.sector))).find? fun x => x.state != .retired := by
  have hnewest : st.newest = some (q, r) := sortRows_getLast hr hq hmax
  rw [Store.candidate, hnewest]

theorem candidateErased_congr {a b : Store} (h : a.rows = b.rows) : a.candidateErased = b.candidateErased := by
  rw [Store.candidateErased, Store.candidateErased, candidate_congr h]

theorem openCandidate_unerased {st : Store} (h : ∀ c, st.candidate = some c → c.state ≠ .erased) :
    st.openCandidate = { st with head := none } := by
  unfold Store.openCandidate
  split
  · next c hc => exact if_neg (h c hc)
  · rfl

/-! ## A sector left (R162, R164) -/

/-- A sector left for the candidate: its row in a state, its mark requested (R162, R164). -/
def Store.leave (st : Store) (n : Nat) (after : SectorState) (mark : MarkReq) : Store :=
  ((st.updateRow n fun r => { r with state := after }).requestMark mark).openCandidate

theorem sectorEnd_eq (st : Store) (n : Nat) : st.sectorEnd n = st.leave n .full (.full n) := rfl

theorem sectorRetired_eq (st : Store) (n : Nat) : st.sectorRetired n = st.leave n .retired (.retired n) := rfl

/-- The marks once one is requested that is not being programmed. -/
def marksWith (marks : List MarkReq) (mark : MarkReq) : List MarkReq := if mark ∈ marks then marks else marks ++ [mark]

theorem leave_frame {st : Store} (n : Nat) (after : SectorState) (mark : MarkReq) (hs : st.serving = none) :
    st.leave n after mark = { st with
      rows := st.rows.map fun r => if r.sector = n then { r with state := after } else r
      marks := marksWith st.marks mark
      opening := (st.leave n after mark).opening
      head := (st.leave n after mark).head
      progs := (st.leave n after mark).progs } := by
  have hmarks : (if mark ∈ st.marks ∨ st.serving = some (.mark mark) then st.marks else st.marks ++ [mark]) = marksWith st.marks mark := by
    rw [hs, marksWith]
    simp
  conv_lhs => rw [Store.leave, openCandidate_frame, requestMark_eq]
  rw [← hmarks]
  rw [Store.leave, requestMark_eq]
  rfl

theorem leave_opens {st : Store} (n : Nat) (after : SectorState) (mark : MarkReq) (hs : st.serving = none) :
    let t := st.leave n after mark
    (∀ c, t.candidate = some c → c.state = .erased →
      t.head = some (c.sector, 1) ∧ t.opening = some ⟨c.sector, st.sectorSeq, c.eraseCount, st.seqCounter⟩ ∧ t.progs = st.progs ++ [.opening]) ∧
    ((∀ c, t.candidate = some c → c.state ≠ .erased) → t.head = none ∧ t.opening = st.opening ∧ t.progs = st.progs) := by
  have hrows : (st.leave n after mark).candidate = ((st.updateRow n fun r => { r with state := after }).requestMark mark).candidate :=
    candidate_congr (by rw [leave_frame n after mark hs, requestMark_eq]; rfl)
  dsimp only
  rw [hrows, Store.leave]
  refine ⟨fun c hc he => ?_, fun hc => ?_⟩
  · rw [openCandidate_erased hc he, requestMark_eq]
    exact ⟨rfl, rfl, rfl⟩
  · rw [openCandidate_unerased hc, requestMark_eq]
    exact ⟨rfl, rfl, rfl⟩

/-! ## The page buffer refilled (R162) -/

/-- The next program begins where the page buffer holds a record and is full, overdue or flushed (R161, R162, R163). -/
def Store.refillBegins (st : Store) (now : Time) : Bool :=
  decide (∃ b, (st.second.take st.target).head? = some b ∧
    (st.target ≤ st.second.length ∨ 500 < (now - b.entered).toNat ∨ st.flushing = true))

theorem overdue_iff (st : Store) (now : Time) :
    st.overdue now = true ↔ ∃ b, st.pageBuf.head? = some b ∧ 500 < (now - b.entered).toNat := by
  unfold Store.overdue
  split
  · next b l h =>
    rw [h]
    refine ⟨fun ho => ⟨b, rfl, of_decide_eq_true ho⟩, ?_⟩
    rintro ⟨_, hb, hlt⟩
    cases hb
    exact decide_eq_true hlt
  · next h => simp [h]

theorem programIfDue_eq (st : Store) : st.programIfDue =
    if st.programming = false ∧ st.pageBuf ≠ [] ∧ (st.target ≤ st.pageBuf.length ∨ st.flushing = true) then st.startProgram else st := by
  unfold Store.programIfDue
  simp only [Bool.and_eq_true, Bool.not_eq_true', Bool.or_eq_true, decide_eq_true_eq, List.isEmpty_eq_false_iff, and_assoc]

theorem refill_eq {st : Store} (now : Time) (h : st.pageBuf = []) : st.refill now = { st with
    pageBuf := st.second.take st.target
    second := st.second.drop st.target
    programming := st.refillBegins now
    progs := st.progs ++ if st.refillBegins now then [.logPage] else [] } := by
  have hd : st.refill now =
      let v := { st with
        programming := false
        pageBuf := st.second.take st.target
        second := st.second.drop st.target }
      if v.overdue now then v.startProgram else v.programIfDue := by
    unfold Store.refill
    rw [h]
    rfl
  rw [hd]
  dsimp only
  rw [programIfDue_eq]
  cases htake : st.second.take st.target with
  | nil =>
    have hbegins : st.refillBegins now = false := by simp [Store.refillBegins, htake]
    rw [if_neg (fun ho => by simpa using (overdue_iff _ now).1 ho), if_neg (fun hn => hn.2.1 rfl), hbegins, if_neg Bool.false_ne_true,
      List.append_nil]
  | cons b l =>
    have hlength : l.length + 1 = min st.target st.second.length := by rw [← List.length_cons, ← htake, List.length_take]
    have htarget : Store.target { st with
      programming := false
      pageBuf := b :: l
      second := st.second.drop st.target } = st.target := rfl
    have hbegins : st.refillBegins now = true ↔
        st.target ≤ st.second.length ∨ 500 < (now - b.entered).toNat ∨ st.flushing = true := by
      simp [Store.refillBegins, htake]
    by_cases hover : 500 < (now - b.entered).toNat
    · rw [if_pos ((overdue_iff _ now).2 ⟨b, rfl, hover⟩), hbegins.2 (.inr (.inl hover)), if_pos rfl]
      rfl
    · rw [if_neg (fun ho => by
        obtain ⟨b', hb, hb'⟩ := (overdue_iff _ now).1 ho
        cases hb
        exact hover hb'), htarget]
      by_cases hdue : st.target ≤ st.second.length ∨ st.flushing = true
      · have hfull : st.target ≤ (b :: l).length ∨ st.flushing = true := by
          rw [List.length_cons, hlength]
          exact hdue.imp (fun hle => by omega) id
        rw [if_pos ⟨rfl, List.cons_ne_nil _ _, hfull⟩, hbegins.2 (hdue.imp id .inr), if_pos rfl]
        rfl
      · have hno : st.refillBegins now = false := by
          rw [← Bool.not_eq_true, hbegins]
          rintro (hh | hh | hh)
          · exact hdue (.inl hh)
          · exact hover hh
          · exact hdue (.inr hh)
        rw [if_neg, hno, if_neg Bool.false_ne_true, List.append_nil]
        rintro ⟨-, -, hh⟩
        rw [List.length_cons, hlength] at hh
        exact hdue (hh.imp (fun hle => by omega) id)

/-! ## A page program that verified (R162) -/

/-- The row of a sector once the page buffer's records stand in it. -/
def SectorRow.withPage (r : SectorRow) (page : List Buffered) : SectorRow :=
  { r with
    first := r.first.or (page.head?.map (·.number))
    last := (page.getLast?.map (·.number)).or r.last }

/-- The store with the page buffer's records in flash, before the head may leave the sector. -/
def Store.pageWritten (st : Store) (n slot : Nat) : Store := { st with
  flash := st.flash.program (slotAddress n slot) st.pageBytes
  head := some (n, slot + st.pageBuf.length)
  pageBuf := []
  rows := st.rows.map fun r => if r.sector = n then r.withPage st.pageBuf else r }

theorem pageVerified_eq (st : Store) (n slot : Nat) : st.pageVerified n slot =
    if 128 ≤ slot + st.pageBuf.length then (st.pageWritten n slot).leave n .full (.full n) else st.pageWritten n slot := rfl

theorem pageVerified_frame {st : Store} (n slot : Nat) (hs : st.serving = none) :
    let t := st.pageVerified n slot
    t = { st with
      flash := st.flash.program (slotAddress n slot) st.pageBytes
      pageBuf := []
      head := t.head
      rows := t.rows
      marks := t.marks
      opening := t.opening
      progs := t.progs } := by
  dsimp only
  rw [pageVerified_eq]
  split
  · conv_lhs => rw [leave_frame (st := st.pageWritten n slot) n .full (.full n) hs]
    rw [leave_frame (st := st.pageWritten n slot) n .full (.full n) hs]
    rfl
  · rfl

/-! ## The buffers after a fault (R164, R165) -/

theorem disposeRemoved_frame (s : State) (b : Buffered) : disposeRemoved s b = { s with
    engine := (disposeRemoved s b).engine
    store := { s.store with dropped := (disposeRemoved s b).store.dropped } } := by
  unfold disposeRemoved
  split <;> rfl

theorem disposeRemoved_congr {s t : State} (b : Buffered) (he : s.engine = t.engine) (hd : s.store.dropped = t.store.dropped) :
    (disposeRemoved s b).engine = (disposeRemoved t b).engine ∧
    (disposeRemoved s b).store.dropped = (disposeRemoved t b).store.dropped := by
  have hentry : s.entryOfRecord b = t.entryOfRecord b := by rw [State.entryOfRecord, State.entryOfRecord, he]
  unfold disposeRemoved
  rw [hentry]
  split
  · exact ⟨by rw [he], hd⟩
  · exact ⟨he, congrArg countUp hd⟩

theorem foldl_disposeRemoved_frame (l : List Buffered) (s : State) : l.foldl disposeRemoved s = { s with
    engine := (l.foldl disposeRemoved s).engine
    store := { s.store with dropped := (l.foldl disposeRemoved s).store.dropped } } := by
  induction l generalizing s with
  | nil => rfl
  | cons b l ih =>
    rw [List.foldl_cons, ih]
    exact congrArg (fun u : State => { u with
      engine := (l.foldl disposeRemoved (disposeRemoved s b)).engine
      store := { u.store with dropped := (l.foldl disposeRemoved (disposeRemoved s b)).store.dropped } }) (disposeRemoved_frame s b)

theorem foldl_disposeRemoved_congr (l : List Buffered) {s t : State} (he : s.engine = t.engine) (hd : s.store.dropped = t.store.dropped) :
    (l.foldl disposeRemoved s).engine = (l.foldl disposeRemoved t).engine ∧
    (l.foldl disposeRemoved s).store.dropped = (l.foldl disposeRemoved t).store.dropped := by
  induction l generalizing s t with
  | nil => exact ⟨he, hd⟩
  | cons b l ih =>
    obtain ⟨he', hd'⟩ := disposeRemoved_congr b he hd
    exact ih he' hd'

/-- Of the engine a disposal changes the table alone. -/
theorem foldl_disposeRemoved_engine (l : List Buffered) (s : State) :
    (l.foldl disposeRemoved s).engine = { s.engine with table := (l.foldl disposeRemoved s).engine.table } := by
  induction l generalizing s with
  | nil => rfl
  | cons b l ih =>
    have hb : (disposeRemoved s b).engine = { s.engine with table := (disposeRemoved s b).engine.table } := by
      unfold disposeRemoved
      split <;> rfl
    rw [List.foldl_cons, ih]
    exact congrArg (fun e : Engine => { e with table := (l.foldl disposeRemoved (disposeRemoved s b)).engine.table }) hb

/-- The state after a fault (R164, R165). -/
theorem afterFault_eq (v : State) :
    let gone := v.store.resplit.2
    afterFault v = { v with
      engine := (gone.foldl disposeRemoved v).engine
      store := { v.store.resplit.1 with
        dropped := (gone.foldl disposeRemoved v).store.dropped
        programming := v.store.resplit.1.reprogram.programming
        progs := v.store.resplit.1.reprogram.progs } } := by
  intro gone
  have hsame := foldl_disposeRemoved_congr gone (s := { v with store := v.store.resplit.1 }) (t := v) rfl rfl
  have hreprogram (st : Store) (d : Nat) : Store.reprogram { st with dropped := d } =
      { st with
        dropped := d
        programming := st.reprogram.programming
        progs := st.reprogram.progs } := by
    unfold Store.reprogram
    dsimp only
    split
    · rfl
    · split <;> rfl
  have hd : afterFault v = { gone.foldl disposeRemoved { v with store := v.store.resplit.1 } with
    store := (gone.foldl disposeRemoved { v with store := v.store.resplit.1 }).store.reprogram } := rfl
  rw [hd, foldl_disposeRemoved_frame, hsame.1, hsame.2]
  dsimp only
  rw [hreprogram]

/-- The records that the new split keeps, and those beyond the places (R165). -/
def Store.beyond (st : Store) : Bool := decide (st.places < (st.pageBuf ++ st.second).length) && !st.candidateErased

theorem resplit_parts (st : Store) :
    let all := st.pageBuf ++ st.second
    let keep := if st.beyond then all.take st.places else all
    let k := min st.pageBuf.length (min st.target keep.length)
    st.resplit = ({ st with
      pageBuf := keep.take k
      second := keep.drop k }, if st.beyond then all.drop st.places else []) := rfl

theorem reprogram_emptied {st : Store} (h : st.pageBuf = []) : st.reprogram.programming = false ∧ .logPage ∉ st.reprogram.progs := by
  have hd : st.reprogram = { st with
      programming := false
      progs := st.progs.filter (· != .logPage) } := if_pos (List.isEmpty_iff.2 h)
  rw [hd]
  exact ⟨rfl, fun hm => by simpa using (List.mem_filter.1 hm).2⟩

theorem reprogram_again {st : Store} (h : st.pageBuf ≠ []) : st.reprogram.programming = st.programming ∧
    (st.programming = true → .logPage ∈ st.reprogram.progs) := by
  have hne : ¬ st.pageBuf.isEmpty = true := fun he => h (List.isEmpty_iff.1 he)
  unfold Store.reprogram
  dsimp only
  rw [if_neg hne]
  split
  · exact ⟨rfl, fun _ => List.mem_append_right _ (List.mem_singleton_self _)⟩
  · next hp => exact ⟨rfl, fun hp' => absurd hp' hp⟩

/-- After a fault the buffers are split anew (R164, R165), whatever the failed program has changed elsewhere. -/
theorem afterFault_resplit {s v : State} (hpage : v.store.pageBuf = s.store.pageBuf) (hsecond : v.store.second = s.store.second)
    (hprogramming : v.store.programming = s.store.programming) (hengine : v.engine = s.engine)
    (hdropped : v.store.dropped = s.store.dropped) : Resplit s (afterFault v) v.store.resplit.2 := by
  have hall : s.store.pageBuf ++ s.store.second = v.store.pageBuf ++ v.store.second := by rw [hpage, hsecond]
  have hgone := foldl_disposeRemoved_congr v.store.resplit.2 hengine hdropped
  have hkeep : (v.store.resplit.1.pageBuf ++ v.store.resplit.1.second) =
      if v.store.beyond then (v.store.pageBuf ++ v.store.second).take v.store.places else v.store.pageBuf ++ v.store.second := by
    rw [resplit_parts]
    exact List.take_append_drop _ _
  have hbeyond : (v.store.beyond = true) ↔ v.store.places < (v.store.pageBuf ++ v.store.second).length ∧ v.store.candidateErased = false := by
    rw [Store.beyond, Bool.and_eq_true, decide_eq_true_eq, Bool.not_eq_true']
  have hrows : (afterFault v).store.candidateErased = v.store.candidateErased := candidateErased_congr (by rw [afterFault_eq]; rfl)
  have hplaces : (afterFault v).store.places = v.store.places ∧ (afterFault v).store.target = v.store.target := by
    rw [afterFault_eq]
    exact ⟨rfl, rfl⟩
  have hbuffers : (afterFault v).store.pageBuf = v.store.resplit.1.pageBuf ∧ (afterFault v).store.second = v.store.resplit.1.second := by
    rw [afterFault_eq]
    exact ⟨rfl, rfl⟩
  have hreprogram : (afterFault v).store.programming = v.store.resplit.1.reprogram.programming ∧
      (afterFault v).store.progs = v.store.resplit.1.reprogram.progs := by
    rw [afterFault_eq]
    exact ⟨rfl, rfl⟩
  refine ⟨?_, ?_, ?_, ?_, ?_, fun he => ?_, fun hne => ?_⟩
  · rw [hbuffers.1, hbuffers.2, hkeep, hall, resplit_parts]
    dsimp only
    split
    · exact List.take_append_drop _ _
    · exact List.append_nil _
  · rw [hplaces.1, hrows, hall, resplit_parts]
    exact ite_congr (propext hbeyond) (fun _ => rfl) fun _ => rfl
  · rw [hbuffers.1, hbuffers.2, hkeep, hplaces.2, ← hpage, resplit_parts]
    dsimp only
    rw [List.length_take]
    omega
  · rw [afterFault_eq]
    exact hgone.1
  · rw [afterFault_eq]
    exact hgone.2
  · rw [hreprogram.1, hreprogram.2]
    exact reprogram_emptied (hbuffers.1 ▸ he)
  · rw [hreprogram.1, hreprogram.2, ← hprogramming]
    exact reprogram_again (st := v.store.resplit.1) (hbuffers.1 ▸ hne)

theorem Resplit.noteFull {s t : State} {gone : List Buffered} (h : Resplit s t gone) : Resplit s t.noteFull gone := by
  rw [noteFull_eq]
  exact ⟨h.order, h.removed, h.page, h.entries, h.dropped, h.emptied, h.again⟩

theorem mem_reprogram {st : Store} {x : ProgramReq} (hx : x ≠ .logPage) (h : x ∈ st.progs) : x ∈ st.reprogram.progs := by
  have hrest : x ∈ st.progs.filter (· != .logPage) := List.mem_filter.2 ⟨h, bne_iff_ne.2 hx⟩
  unfold Store.reprogram
  dsimp only
  split
  · exact hrest
  · split
    · exact List.mem_append_left _ hrest
    · exact h

/-! ## A page abandoned (R164) -/

/-- The store with a page abandoned, before the head may leave the sector. -/
def Store.pageLost (st : Store) (use n slot : Nat) : Store := { st with
  flash := st.flash.tornProgram use (slotAddress n slot) st.pageBytes
  head := some (n, (slot / 8 + 1) * 8)
  rows := st.rows.map fun r => if r.sector = n then { r with abandoned := r.abandoned + 1 } else r }

theorem pageLost_row (st : Store) (use n slot : Nat) :
    (st.pageLost use n slot).row n = (st.row n).map fun r => { r with abandoned := r.abandoned + 1 } := by
  have hsector (r : SectorRow) : (if r.sector = n then { r with abandoned := r.abandoned + 1 } else r).sector = r.sector := by
    split <;> rfl
  rw [Store.row, Store.row, Store.pageLost, List.find?_map]
  have hfind : (st.rows.find? ((fun r : SectorRow => r.sector == n) ∘ fun r : SectorRow =>
      if r.sector = n then { r with abandoned := r.abandoned + 1 } else r)) = st.rows.find? (·.sector == n) := by
    congr 1
    funext r
    rw [Function.comp, hsector]
  rw [hfind]
  cases h : st.rows.find? (·.sector == n) with
  | none => rfl
  | some r =>
    have hr : r.sector = n := by simpa using List.find?_some h
    simp only [Option.map_some, hr, if_true]

/-- The sector retires at its fourth page abandoned (R164). -/
def Store.retires (st : Store) (n : Nat) : Bool :=
  match st.row n with
  | some r => decide (4 ≤ r.abandoned + 1)
  | none => false

theorem retires_of_row {st : Store} {n : Nat} {r : SectorRow} (h : st.row n = some r) : st.retires n = decide (4 ≤ r.abandoned + 1) := by
  rw [Store.retires, h]

theorem pageAbandoned_eq (st : Store) (use n slot : Nat) : st.pageAbandoned use n slot =
    if st.retires n = true then (st.pageLost use n slot).leave n .retired (.retired n)
    else if 120 ≤ slot then (st.pageLost use n slot).leave n .full (.full n)
    else st.pageLost use n slot := by
  have hnext : Config.sectorSlots ≤ nextPage slot ↔ 120 ≤ slot := by
    change 128 ≤ (slot / 8 + 1) * 8 ↔ _
    omega
  have hd : st.pageAbandoned use n slot =
      if (match (st.pageLost use n slot).row n with
        | some r => decide (4 ≤ r.abandoned)
        | none => false) = true then (st.pageLost use n slot).leave n .retired (.retired n)
      else if Config.sectorSlots ≤ nextPage slot then (st.pageLost use n slot).leave n .full (.full n)
      else st.pageLost use n slot := rfl
  rw [hd, pageLost_row, Store.retires]
  simp only [hnext]
  cases st.row n <;> rfl

theorem pageAbandoned_frame {st : Store} (use n slot : Nat) (hs : st.serving = none) :
    let t := st.pageAbandoned use n slot
    t = { st with
      flash := st.flash.tornProgram use (slotAddress n slot) st.pageBytes
      head := t.head
      rows := t.rows
      marks := t.marks
      opening := t.opening
      progs := t.progs } := by
  dsimp only
  rw [pageAbandoned_eq]
  split
  · conv_lhs => rw [leave_frame (st := st.pageLost use n slot) n .retired (.retired n) hs]
    rw [leave_frame (st := st.pageLost use n slot) n .retired (.retired n) hs]
    rfl
  · split
    · conv_lhs => rw [leave_frame (st := st.pageLost use n slot) n .full (.full n) hs]
      rw [leave_frame (st := st.pageLost use n slot) n .full (.full n) hs]
      rfl
    · rfl

/-- The state before the buffers are split anew, after a program of the store that has failed with effect `st` (R164). -/
def State.faulted (s : State) (st : Store) : State := { s with
  store := st
  startup := { s.startup with conds := { s.startup.conds with storeFault := true } }
  freeIndex := s.freeIndex + 1 }

/-- The store of a state with a fault counted and nothing served. -/
def Store.fault (st : Store) : Store := { st with
  serving := none
  faults := min (st.faults + 1) 65535 }

/-- What a failed program of the log leaves: the buffers split anew after `st` (R164, R165). -/
def State.recovered (s : State) (st : Store) : State := (afterFault (s.faulted st)).noteFull

theorem recovered_resplit {s : State} {st : Store} (hpage : st.pageBuf = s.store.pageBuf) (hsecond : st.second = s.store.second)
    (hprogramming : st.programming = s.store.programming) (hdropped : st.dropped = s.store.dropped) :
    Resplit s (s.recovered st) st.resplit.2 :=
  (afterFault_resplit (s := s) (v := s.faulted st) hpage hsecond hprogramming rfl hdropped).noteFull

theorem recovered_frame (s : State) (st : Store) :
    let t := s.recovered st
    t = { s with
      store := { st with
        pageBuf := t.store.pageBuf
        second := t.store.second
        programming := t.store.programming
        progs := t.store.progs
        dropped := t.store.dropped }
      engine := { s.engine with table := t.engine.table }
      startup := { s.startup with conds := { s.startup.conds with
        storeFull := t.startup.conds.storeFull
        storeFault := true } }
      freeIndex := s.freeIndex + 1 } := by
  have hengine := foldl_disposeRemoved_engine (s.faulted st).store.resplit.2 (s.faulted st)
  dsimp only
  rw [State.recovered, noteFull_eq, afterFault_eq]
  dsimp only
  rw [hengine]
  rfl

theorem recovered_outside (s : State) (st : Store) :
    let t := s.recovered st
    t = { s with
      store := t.store
      engine := { s.engine with table := t.engine.table }
      startup := { s.startup with conds := { s.startup.conds with
        storeFull := t.startup.conds.storeFull
        storeFault := true } }
      freeIndex := s.freeIndex + 1 } := by
  have h := recovered_frame s st
  exact congrArg (fun u : State => { u with store := (s.recovered st).store }) h

theorem mem_recovered {s : State} {st : Store} {x : ProgramReq} (hx : x ≠ .logPage) (h : x ∈ st.progs) : x ∈ (s.recovered st).store.progs := by
  rw [State.recovered, noteFull_eq, afterFault_eq]
  exact mem_reprogram (st := st.resplit.1) hx h

/-- What the refill leaves of the buffers, at a target and after the requests before it (R162). -/
theorem refill_refilled {p st : Store} (now : Time) {target : Nat} {before : List ProgramReq} (hpage : p.pageBuf = [])
    (hsecond : p.second = st.second) (hflush : p.flushing = st.flushing) (ht : p.target = target) (hb : p.progs = before) :
    let t := p.refill now
    t.pageBuf = st.second.take target ∧ t.second = st.second.drop target ∧
    (t.programming = true ↔ ∃ b, (st.second.take target).head? = some b ∧
      (target ≤ st.second.length ∨ 500 < (now - b.entered).toNat ∨ st.flushing = true)) ∧
    t.progs = before ++ if t.programming then [.logPage] else [] := by
  have hbegins : p.refillBegins now = decide (∃ b, (st.second.take target).head? = some b ∧
      (target ≤ st.second.length ∨ 500 < (now - b.entered).toNat ∨ st.flushing = true)) := by
    rw [Store.refillBegins, ht, hsecond, hflush]
  rw [refill_eq now hpage]
  dsimp only
  rw [ht, hsecond, hb, hbegins]
  exact ⟨rfl, rfl, decide_eq_true_iff, rfl⟩

/-! ## An opening made or failed (R162, R164) -/

/-- The store with an opening lost, before its sector retires. -/
def Store.openingLost (st : Store) (use : Nat) (o : Opening) (bytes : List Byte) : Store := { st with
  flash := st.flash.tornProgram use (slotAddress o.sector 0) bytes
  opening := none
  sectorSeq := st.sectorSeq + 1
  rows := st.rows.map fun r => if r.sector = o.sector then { r with seq := some o.seq } else r }

theorem openingFailed_eq (st : Store) (use : Nat) (o : Opening) :
    st.openingFailed use o = (st.openingLost use o (openingBytes o)).leave o.sector .retired (.retired o.sector) := by
  unfold Store.openingFailed Store.openingLost
  generalize openingBytes o = bs
  rfl

theorem opened_eq (st : Store) (o : Opening) : st.opened o = { st with
    flash := st.flash.program (slotAddress o.sector 0) (openingBytes o)
    opening := none
    sectorSeq := st.sectorSeq + 1
    rows := st.rows.map fun r => if r.sector = o.sector then { r with
      state := .opened
      seq := some o.seq
      abandoned := 0
      first := none
      last := none } else r } := by
  unfold Store.opened
  generalize openingBytes o = bs
  rfl

/-! ## The ends of the programs (R162, R164) -/

theorem programTarget_logPage {s : State} {n slot : Nat} (h : s.store.serving = some .logPage) (hhead : s.store.head = some (n, slot)) :
    s.programTarget = some (slotAddress n slot, s.store.pageBytes) := by
  rw [State.programTarget, h, hhead]
  rfl

theorem programTarget_opening {s : State} {o : Opening} (h : s.store.serving = some .opening) (ho : s.store.opening = some o) :
    s.programTarget = some (slotAddress o.sector 0, openingBytes o) := by
  rw [State.programTarget, h, ho]
  rfl

/-- The store with nothing served. -/
def Store.unserved (st : Store) : Store := { st with serving := none }

theorem pageProgramEnds_verified {s : State} {n slot : Nat} (h : s.store.serving = some .logPage) (hhead : s.store.head = some (n, slot)) :
    pageProgramEnds true s = some (checkFlush (State.noteFull { s with
      store := (s.store.unserved.pageVerified n slot).refill s.now })) := by
  rw [pageProgramEnds, h, hhead]
  rfl

theorem pageProgramEnds_failed {s : State} {n slot : Nat} (h : s.store.serving = some .logPage) (hhead : s.store.head = some (n, slot)) :
    pageProgramEnds false s = some (checkFlush (s.recovered (s.store.fault.pageAbandoned s.freeIndex n slot))) := by
  rw [pageProgramEnds, h, hhead]
  rfl

theorem openingEnds_verified {s : State} {o : Opening} (h : s.store.serving = some .opening) (ho : s.store.opening = some o) :
    openingEnds true s = some (numberAfterOpening (checkFlush (State.noteFull { s with store := s.store.unserved.opened o }))) := by
  rw [openingEnds, h, ho]
  rfl

theorem openingEnds_failed {s : State} {o : Opening} (h : s.store.serving = some .opening) (ho : s.store.opening = some o) :
    openingEnds false s = some (numberAfterOpening (checkFlush (s.recovered (s.store.fault.openingFailed s.freeIndex o)))) := by
  rw [openingEnds, h, ho]
  rfl

theorem pageDue_of {st : Store} {now : Time} {b : Buffered} {rest : List Buffered} (hp : st.programming = false)
    (hpage : st.pageBuf = b :: rest) (h : 500 ≤ (now - b.entered).toNat) : st.pageDue now = true := by
  rw [Store.pageDue, hp, hpage]
  exact decide_eq_true h

theorem map_rows_both (n : Nat) (f g : SectorRow → SectorRow) (hf : ∀ r, (f r).sector = r.sector) (rows : List SectorRow) :
    (rows.map fun r => if r.sector = n then f r else r).map (fun r => if r.sector = n then g r else r) =
      rows.map fun r => if r.sector = n then g (f r) else r := by
  rw [List.map_map]
  refine List.map_congr_left fun r _ => ?_
  by_cases h : r.sector = n
  · simp only [Function.comp, h, if_true, (hf r).trans h]
  · simp only [Function.comp, h, if_false]

/-! ## The page program (R162) -/

/-- PAGE_PROGRAM of a page that verified, by whether the head passes the sector's last slot. -/
theorem pageVerified_ends (s : State) (n slot : Nat) :
    let next := slot + s.store.pageBuf.length
    let p := s.store.unserved.pageVerified n slot
    (next < 128 → p = s.store.unserved.pageWritten n slot) ∧
    (128 ≤ next →
      p.rows = (s.store.rows.map fun r => if r.sector = n then { r with
        state := .full
        first := r.first.or (s.store.pageBuf.head?.map (·.number))
        last := (s.store.pageBuf.getLast?.map (·.number)).or r.last } else r) ∧
      p.marks = (if .full n ∈ s.store.marks then s.store.marks else s.store.marks ++ [.full n]) ∧
      (∀ c, p.candidate = some c → c.state = .erased → p.head = some (c.sector, 1) ∧
        p.opening = some ⟨c.sector, s.store.sectorSeq, c.eraseCount, s.store.seqCounter⟩ ∧ p.progs = s.store.progs ++ [.opening]) ∧
      ((∀ c, p.candidate = some c → c.state ≠ .erased) → p.head = none ∧ p.opening = s.store.opening ∧ p.progs = s.store.progs)) := by
  intro next p
  have hp : p = if 128 ≤ next then (s.store.unserved.pageWritten n slot).leave n .full (.full n) else s.store.unserved.pageWritten n slot :=
    pageVerified_eq _ n slot
  refine ⟨fun h => by rw [hp, if_neg (Nat.not_le.2 h)], fun h => ?_⟩
  rw [if_pos h] at hp
  have hframe := leave_frame (st := s.store.unserved.pageWritten n slot) n .full (.full n) rfl
  have hopens := leave_opens (st := s.store.unserved.pageWritten n slot) n .full (.full n) rfl
  rw [← hp] at hframe hopens
  refine ⟨?_, ?_, hopens.1, hopens.2⟩
  · rw [hframe]
    exact map_rows_both n (fun r => r.withPage s.store.pageBuf) (fun r => { r with state := .full }) (fun _ => rfl) s.store.rows
  · rw [hframe]
    rfl

/-- What `p` has of a sector `n` that the head of `s` leaves with a page abandoned. -/
structure Abandoned (s : State) (p : Store) (n : Nat) (after : SectorState) (mark : MarkReq) : Prop where
  rows : p.rows = s.store.rows.map fun x => if x.sector = n then { x with
    state := after
    abandoned := x.abandoned + 1 } else x
  marks : p.marks = if mark ∈ s.store.marks then s.store.marks else s.store.marks ++ [mark]
  opens : ∀ c, p.candidate = some c → c.state = .erased → p.head = some (c.sector, 1) ∧
    p.opening = some ⟨c.sector, s.store.sectorSeq, c.eraseCount, s.store.seqCounter⟩ ∧ .opening ∈ p.progs
  closed : (∀ c, p.candidate = some c → c.state ≠ .erased) → p.head = none ∧ p.opening = s.store.opening

theorem pageLost_leave (s : State) (n slot : Nat) (after : SectorState) (mark : MarkReq) :
    Abandoned s ((s.store.fault.pageLost s.freeIndex n slot).leave n after mark) n after mark := by
  have hframe := leave_frame (st := s.store.fault.pageLost s.freeIndex n slot) n after mark rfl
  obtain ⟨hopens, hclosed⟩ := leave_opens (st := s.store.fault.pageLost s.freeIndex n slot) n after mark rfl
  refine ⟨?_, ?_, fun c hc he => ?_, fun hc => ?_⟩
  · rw [hframe]
    exact map_rows_both n (fun r => { r with abandoned := r.abandoned + 1 }) (fun r => { r with state := after }) (fun _ => rfl) s.store.rows
  · rw [hframe]
    rfl
  · obtain ⟨hhead, hopening, hprogs⟩ := hopens c hc he
    exact ⟨hhead, hopening, hprogs ▸ List.mem_append_right _ (List.mem_singleton_self _)⟩
  · obtain ⟨hhead, hopening, -⟩ := hclosed hc
    exact ⟨hhead, hopening⟩

theorem recovered_store (s : State) (p : Store) :
    (s.recovered p).store.rows = p.rows ∧ (s.recovered p).store.marks = p.marks ∧ (s.recovered p).store.head = p.head ∧
    (s.recovered p).store.opening = p.opening := by
  rw [recovered_frame]
  exact ⟨rfl, rfl, rfl, rfl⟩

/-- The same of the state recovered from the fault. -/
theorem Abandoned.recovered {s : State} {p : Store} {n : Nat} {after : SectorState} {mark : MarkReq} (h : Abandoned s p n after mark) :
    Abandoned s (s.recovered p).store n after mark := by
  obtain ⟨hrows, hmarks, hhead, hopening⟩ := recovered_store s p
  refine ⟨hrows.trans h.rows, hmarks.trans h.marks, fun c hc he => ?_, fun hc => ?_⟩
  · rw [candidate_congr hrows] at hc
    obtain ⟨h1, h2, h3⟩ := h.opens c hc he
    exact ⟨hhead.trans h1, hopening.trans h2, mem_recovered nofun h3⟩
  · rw [candidate_congr hrows] at hc
    obtain ⟨h1, h2⟩ := h.closed hc
    exact ⟨hhead.trans h1, hopening.trans h2⟩

/-- A page abandoned: its sector retires, is full, or goes on at the next page (R164; log 15). -/
theorem pageAbandoned_ends (s : State) (n slot : Nat) :
    let t := (s.recovered (s.store.fault.pageAbandoned s.freeIndex n slot)).store
    (∀ r, s.store.row n = some r → 4 ≤ r.abandoned + 1 → Abandoned s t n .retired (.retired n)) ∧
    (∀ r, s.store.row n = some r → r.abandoned + 1 < 4 → 120 ≤ slot → Abandoned s t n .full (.full n)) ∧
    (∀ r, s.store.row n = some r → r.abandoned + 1 < 4 → slot < 120 →
      t.head = some (n, (slot / 8 + 1) * 8) ∧ t.marks = s.store.marks ∧ t.opening = s.store.opening ∧
      t.rows = s.store.rows.map fun x => if x.sector = n then { x with abandoned := x.abandoned + 1 } else x) := by
  have hp := pageAbandoned_eq s.store.fault s.freeIndex n slot
  have hretires {r : SectorRow} (hr : s.store.row n = some r) : s.store.fault.retires n = decide (4 ≤ r.abandoned + 1) :=
    retires_of_row (st := s.store.fault) hr
  refine ⟨fun r hr h4 => ?_, fun r hr h4 h120 => ?_, fun r hr h4 h120 => ?_⟩
  · rw [hp, hretires hr, decide_eq_true h4, if_pos rfl]
    exact (pageLost_leave s n slot _ _).recovered
  · rw [hp, hretires hr, decide_eq_false (Nat.not_le.2 h4), if_neg Bool.false_ne_true, if_pos h120]
    exact (pageLost_leave s n slot _ _).recovered
  · rw [hp, hretires hr, decide_eq_false (Nat.not_le.2 h4), if_neg Bool.false_ne_true, if_neg (Nat.not_le.2 h120)]
    obtain ⟨hrows, hmarks, hhead, hopening⟩ := recovered_store s (s.store.fault.pageLost s.freeIndex n slot)
    exact ⟨hhead, hmarks, hopening, hrows⟩

/-- PAGE_PROGRAM of a page that verified. -/
theorem pageProgram_verified {s : State} {n slot : Nat} :
    let bytes := s.store.pageBuf.flatMap fun b => recordBytes b.number b.body
    let next := slot + s.store.pageBuf.length
    let t := State.noteFull { s with store := (s.store.unserved.pageVerified n slot).refill s.now }
    t = { s with
      store := { s.store with
        serving := none
        flash := s.store.flash.program (slotAddress n slot) bytes
        head := t.store.head
        pageBuf := t.store.pageBuf
        second := t.store.second
        programming := t.store.programming
        progs := t.store.progs
        rows := t.store.rows
        marks := t.store.marks
        opening := t.store.opening }
      startup := { s.startup with conds := { s.startup.conds with storeFull := t.startup.conds.storeFull } } } ∧
    let refilled := fun (target : Nat) (before : List ProgramReq) =>
      t.store.pageBuf = s.store.second.take target ∧ t.store.second = s.store.second.drop target ∧
      (t.store.programming = true ↔ ∃ b, (s.store.second.take target).head? = some b ∧
        (target ≤ s.store.second.length ∨ 500 < (s.now - b.entered).toNat ∨ s.store.flushing = true)) ∧
      t.store.progs = before ++ if t.store.programming then [.logPage] else []
    (next < 128 →
      t.store.head = some (n, next) ∧ t.store.marks = s.store.marks ∧ t.store.opening = s.store.opening ∧
      refilled (8 - next % 8) s.store.progs ∧
      t.store.rows = s.store.rows.map fun r => if r.sector = n then { r with
        first := r.first.or (s.store.pageBuf.head?.map (·.number))
        last := (s.store.pageBuf.getLast?.map (·.number)).or r.last } else r) ∧
    (128 ≤ next →
      t.store.rows = (s.store.rows.map fun r => if r.sector = n then { r with
        state := .full
        first := r.first.or (s.store.pageBuf.head?.map (·.number))
        last := (s.store.pageBuf.getLast?.map (·.number)).or r.last } else r) ∧
      t.store.marks = (if .full n ∈ s.store.marks then s.store.marks else s.store.marks ++ [.full n]) ∧
      (∀ c, t.store.candidate = some c → c.state = .erased →
        t.store.head = some (c.sector, 1) ∧
        t.store.opening = some ⟨c.sector, s.store.sectorSeq, c.eraseCount, s.store.seqCounter⟩ ∧
        refilled 7 (s.store.progs ++ [.opening])) ∧
      ((∀ c, t.store.candidate = some c → c.state ≠ .erased) →
        t.store.head = none ∧ t.store.opening = s.store.opening ∧ refilled 0 s.store.progs)) := by
  intro bytes next t
  obtain ⟨hon, hleft⟩ := pageVerified_ends s n slot
  have hframe := pageVerified_frame (st := s.store.unserved) n slot rfl
  dsimp only at hon hleft hframe
  generalize hp : s.store.unserved.pageVerified n slot = p at hon hleft hframe
  have hpage : p.pageBuf = [] := by rw [hframe]
  have hsecond : p.second = s.store.second := by rw [hframe]; rfl
  have hflush : p.flushing = s.store.flushing := by rw [hframe]; rfl
  have hstore : t.store = p.refill s.now := by
    dsimp only [t]
    rw [noteFull_eq, hp]
  have hfields : t.store = { p with
      pageBuf := t.store.pageBuf
      second := t.store.second
      programming := t.store.programming
      progs := t.store.progs } := by rw [hstore, refill_eq s.now hpage]
  have hhead : t.store.head = p.head := by rw [hfields]
  have hrows : t.store.rows = p.rows := by rw [hfields]
  have hmarks : t.store.marks = p.marks := by rw [hfields]
  have hopening : t.store.opening = p.opening := by rw [hfields]
  have hrefill {target : Nat} {before : List ProgramReq} (ht : p.target = target) (hb : p.progs = before) :
      t.store.pageBuf = s.store.second.take target ∧ t.store.second = s.store.second.drop target ∧
      (t.store.programming = true ↔ ∃ b, (s.store.second.take target).head? = some b ∧
        (target ≤ s.store.second.length ∨ 500 < (s.now - b.entered).toNat ∨ s.store.flushing = true)) ∧
      t.store.progs = before ++ if t.store.programming then [.logPage] else [] := by
    rw [hstore]
    exact refill_refilled s.now hpage hsecond hflush ht hb
  refine ⟨?_, fun h => ?_, fun h => ?_⟩
  · have hs : t.store = { s.store with
        serving := none
        flash := s.store.flash.program (slotAddress n slot) bytes
        head := t.store.head
        pageBuf := t.store.pageBuf
        second := t.store.second
        programming := t.store.programming
        progs := t.store.progs
        rows := t.store.rows
        marks := t.store.marks
        opening := t.store.opening } := by
      conv_lhs => rw [hfields, hframe]
      rw [hhead, hrows, hmarks, hopening]
      rfl
    have ht : t = { s with
        store := t.store
        startup := { s.startup with conds := { s.startup.conds with storeFull := t.startup.conds.storeFull } } } := by
      dsimp only [t]
      rw [noteFull_eq]
    rw [← hs]
    exact ht
  · have hpw := hon h
    refine ⟨?_, ?_, ?_, hrefill ?_ ?_, ?_⟩
    · rw [hhead, hpw]; rfl
    · rw [hmarks, hpw]; rfl
    · rw [hopening, hpw]; rfl
    · rw [hpw]; rfl
    · rw [hpw]; rfl
    · rw [hrows, hpw]; rfl
  · obtain ⟨hr, hm, hopens, hclosed⟩ := hleft h
    refine ⟨hrows.trans hr, hmarks.trans hm, fun c hc he => ?_, fun hc => ?_⟩
    · rw [candidate_congr hrows] at hc
      obtain ⟨h1, h2, h3⟩ := hopens c hc he
      exact ⟨hhead.trans h1, hopening.trans h2, hrefill (by rw [Store.target, h1]) h3⟩
    · rw [candidate_congr hrows] at hc
      obtain ⟨h1, h2, h3⟩ := hclosed hc
      exact ⟨hhead.trans h1, hopening.trans h2, hrefill (by rw [Store.target, h1]) h3⟩

/-- PAGE_PROGRAM of a page that did not verify. -/
theorem pageProgram_failed {s : State} {n slot : Nat} {p : Store} (hpe : s.store.fault.pageAbandoned s.freeIndex n slot = p) :
    let bytes := s.store.pageBuf.flatMap fun b => recordBytes b.number b.body
    let t := s.recovered p
    t = { s with
      store := { t.store with
        flash := s.store.flash.tornProgram s.freeIndex (slotAddress n slot) bytes
        faults := min (s.store.faults + 1) 65535
        seqCounter := s.store.seqCounter
        sectorSeq := s.store.sectorSeq
        uploadMark := s.store.uploadMark
        eraseList := s.store.eraseList
        planErase := s.store.planErase
        serving := none
        erase := s.store.erase }
      engine := { s.engine with table := t.engine.table }
      startup := { s.startup with conds := { s.startup.conds with
        storeFull := t.startup.conds.storeFull
        storeFault := true } }
      freeIndex := s.freeIndex + 1 } ∧
    let leaves := fun (mark : MarkReq) (after : SectorState) =>
      t.store.rows = (s.store.rows.map fun x => if x.sector = n then { x with
        state := after
        abandoned := x.abandoned + 1 } else x) ∧
      t.store.marks = (if mark ∈ s.store.marks then s.store.marks else s.store.marks ++ [mark]) ∧
      (∀ c, t.store.candidate = some c → c.state = .erased →
        t.store.head = some (c.sector, 1) ∧
        t.store.opening = some ⟨c.sector, s.store.sectorSeq, c.eraseCount, s.store.seqCounter⟩ ∧ .opening ∈ t.store.progs) ∧
      ((∀ c, t.store.candidate = some c → c.state ≠ .erased) → t.store.head = none ∧ t.store.opening = s.store.opening)
    (∀ r, s.store.row n = some r → 4 ≤ r.abandoned + 1 → leaves (.retired n) .retired) ∧
    (∀ r, s.store.row n = some r → r.abandoned + 1 < 4 → 120 ≤ slot → leaves (.full n) .full) ∧
    (∀ r, s.store.row n = some r → r.abandoned + 1 < 4 → slot < 120 →
      t.store.head = some (n, (slot / 8 + 1) * 8) ∧ t.store.marks = s.store.marks ∧ t.store.opening = s.store.opening ∧
      t.store.rows = s.store.rows.map fun x =>
        if x.sector = n then { x with abandoned := x.abandoned + 1 } else x) ∧
    Resplit s t p.resplit.2 := by
  intro bytes t
  have hp := pageAbandoned_frame (st := s.store.fault) s.freeIndex n slot rfl
  have hends := pageAbandoned_ends s n slot
  rw [hpe] at hp hends
  obtain ⟨hretired, hfull, hon⟩ := hends
  have ht := recovered_outside s p
  have hstore := congrArg State.store (recovered_frame s p)
  have hq {α : Type} (f : Store → α) := congrArg f hstore
  have hk {α : Type} (f : Store → α) := congrArg f hp
  have hflash : t.store.flash = s.store.flash.tornProgram s.freeIndex (slotAddress n slot) bytes := (hq Store.flash).trans (hk Store.flash)
  have hfaults : t.store.faults = min (s.store.faults + 1) 65535 := (hq Store.faults).trans (hk Store.faults)
  have hseq : t.store.seqCounter = s.store.seqCounter := (hq Store.seqCounter).trans (hk Store.seqCounter)
  have hsector : t.store.sectorSeq = s.store.sectorSeq := (hq Store.sectorSeq).trans (hk Store.sectorSeq)
  have hmark : t.store.uploadMark = s.store.uploadMark := (hq Store.uploadMark).trans (hk Store.uploadMark)
  have hlist : t.store.eraseList = s.store.eraseList := (hq Store.eraseList).trans (hk Store.eraseList)
  have hplan : t.store.planErase = s.store.planErase := (hq Store.planErase).trans (hk Store.planErase)
  have hserving : t.store.serving = none := (hq Store.serving).trans (hk Store.serving)
  have herase : t.store.erase = s.store.erase := (hq Store.erase).trans (hk Store.erase)
  have hsplit : Resplit s t p.resplit.2 := recovered_resplit (hk Store.pageBuf) (hk Store.second) (hk Store.programming) (hk Store.dropped)
  refine ⟨?_, fun r hr h4 => ?_, fun r hr h4 h120 => ?_, hon, hsplit⟩
  · rw [← hflash, ← hfaults, ← hseq, ← hsector, ← hmark, ← hlist, ← hplan, ← hserving, ← herase]
    exact ht
  · have h := hretired r hr h4
    exact ⟨h.rows, h.marks, h.opens, h.closed⟩
  · have h := hfull r hr h4 h120
    exact ⟨h.rows, h.marks, h.opens, h.closed⟩

/-- SECTOR_OPENING that did not verify. -/
theorem opening_failed {s : State} {o : Opening} {p : Store} (hpe : s.store.fault.openingFailed s.freeIndex o = p) :
    let t := s.recovered p
    t = { s with
      store := { t.store with
        flash := s.store.flash.tornProgram s.freeIndex (slotAddress o.sector 0) (openingBytes o)
        sectorSeq := s.store.sectorSeq + 1
        faults := min (s.store.faults + 1) 65535
        seqCounter := s.store.seqCounter }
      engine := { s.engine with table := t.engine.table }
      startup := { s.startup with conds := { s.startup.conds with
        storeFull := t.startup.conds.storeFull
        storeFault := true } }
      freeIndex := s.freeIndex + 1 } ∧
    (∀ r ∈ t.store.rows, r.sector = o.sector → r.state = .retired ∧ r.seq = some o.seq) ∧
    .retired o.sector ∈ t.store.marks ∧
    (∀ c, t.store.candidate = some c → c.state = .erased →
      t.store.head = some (c.sector, 1) ∧
      t.store.opening = some ⟨c.sector, s.store.sectorSeq + 1, c.eraseCount, s.store.seqCounter⟩ ∧
      .opening ∈ t.store.progs) ∧
    ((∀ c, t.store.candidate = some c → c.state ≠ .erased) → t.store.head = none ∧ t.store.opening = none) ∧
    Resplit s t p.resplit.2 := by
  intro t
  have hp := leave_frame (st := s.store.fault.openingLost s.freeIndex o (openingBytes o)) o.sector .retired (.retired o.sector) rfl
  obtain ⟨hopens, hclosed⟩ := leave_opens (st := s.store.fault.openingLost s.freeIndex o (openingBytes o)) o.sector .retired (.retired o.sector) rfl
  rw [← openingFailed_eq, hpe] at hp hopens hclosed
  generalize openingBytes o = bytes at hp hopens hclosed ⊢
  have ht := recovered_outside s p
  have hstore := congrArg State.store (recovered_frame s p)
  have hq {α : Type} (f : Store → α) := congrArg f hstore
  have hk {α : Type} (f : Store → α) := congrArg f hp
  have hflash : t.store.flash = s.store.flash.tornProgram s.freeIndex (slotAddress o.sector 0) bytes :=
    (hq Store.flash).trans (hk Store.flash)
  have hfaults : t.store.faults = min (s.store.faults + 1) 65535 := (hq Store.faults).trans (hk Store.faults)
  have hseq : t.store.seqCounter = s.store.seqCounter := (hq Store.seqCounter).trans (hk Store.seqCounter)
  have hsector : t.store.sectorSeq = s.store.sectorSeq + 1 := (hq Store.sectorSeq).trans (hk Store.sectorSeq)
  have hsplit : Resplit s t p.resplit.2 := recovered_resplit (hk Store.pageBuf) (hk Store.second) (hk Store.programming) (hk Store.dropped)
  obtain ⟨hrows, hmarks, hhead, hopening⟩ := recovered_store s p
  have hretired : p.rows = s.store.rows.map fun r => if r.sector = o.sector then { r with
      state := .retired
      seq := some o.seq } else r :=
    (hk Store.rows).trans (map_rows_both o.sector (fun r => { r with seq := some o.seq }) (fun r => { r with state := .retired })
      (fun _ => rfl) s.store.rows)
  refine ⟨?_, fun r hr hn => ?_, ?_, fun c hc he => ?_, fun hc => ?_, hsplit⟩
  · rw [← hflash, ← hfaults, ← hseq, ← hsector]
    exact ht
  · rw [hrows, hretired] at hr
    obtain ⟨x, -, rfl⟩ := List.mem_map.1 hr
    by_cases hx : x.sector = o.sector
    · rw [if_pos hx]
      exact ⟨rfl, rfl⟩
    · rw [if_neg hx] at hn
      exact absurd hn hx
  · have hm : t.store.marks = marksWith s.store.marks (.retired o.sector) := hmarks.trans (hk Store.marks)
    rw [hm, marksWith]
    split
    · assumption
    · exact List.mem_append_right _ (List.mem_singleton_self _)
  · rw [candidate_congr hrows] at hc
    obtain ⟨h1, h2, h3⟩ := hopens c hc he
    exact ⟨hhead.trans h1, hopening.trans h2, mem_recovered nofun (h3 ▸ List.mem_append_right _ (List.mem_singleton_self _))⟩
  · rw [candidate_congr hrows] at hc
    obtain ⟨h1, h2, -⟩ := hclosed hc
    exact ⟨hhead.trans h1, hopening.trans h2⟩

/-- Settles O58: the page buffer's timer, the page program and the opening verified or failed, the candidate, the flush's end, and what
becomes of a record without a place. -/
theorem logPrograms : Obligations.LogPrograms := by
  refine ⟨fun s b rest hp hidle hpage h => ?_, fun s n slot hp hs hhead hin => ⟨?_, ?_⟩, fun s o hp hs ho hin => ⟨?_, ?_⟩,
    fun st => ⟨candidate_unused, fun r q => candidate_after⟩, fun u => ⟨fun hf hpage hsecond => ?_, fun h => ?_, fun h => ?_, fun h hr => ?_⟩,
    fun u b => ⟨fun e hk he hstatus hfirst => ?_, fun h => ?_⟩⟩
  · exact act_onlyIf (c := fun s => s.store.pageDue s.now) (f := fun s => { s with store := s.store.startProgram }) hp
      (pageDue_of hidle hpage h)
  · exact ⟨_, actProgram_next (f := pageProgramEnds true) hp (programTarget_logPage hs hhead) hin (pageProgramEnds_verified hs hhead),
      pageProgram_verified⟩
  · exact ⟨_, _, actProgram_next (f := pageProgramEnds false) hp (programTarget_logPage hs hhead) hin (pageProgramEnds_failed hs hhead),
      pageProgram_failed rfl⟩
  · exact ⟨_, actProgram_next (f := openingEnds true) hp (programTarget_opening hs ho) hin (openingEnds_verified hs ho), by
      rw [noteFull_eq, opened_eq]
      rfl⟩
  · exact ⟨_, _, actProgram_next (f := openingEnds false) hp (programTarget_opening hs ho) hin (openingEnds_failed hs ho),
      opening_failed rfl⟩
  · have hdue : (u.store.flushing && u.store.buffersEmpty) = true := by rw [hf, (buffersEmpty_iff _).2 ⟨hpage, hsecond⟩]; rfl
    exact if_pos hdue
  · refine if_neg fun hdue => ?_
    obtain ⟨hf, hb⟩ := Bool.and_eq_true_iff.1 hdue
    obtain ⟨hpage, hsecond⟩ := (buffersEmpty_iff _).1 hb
    rcases h with h | h | h
    · exact Bool.noConfusion (h.symm.trans hf)
    · exact h hpage
    · exact h hsecond
  · exact if_neg (by rw [h]; exact Bool.false_ne_true)
  · exact if_pos (by rw [h, hr]; rfl)
  · have hentry : u.entryOfRecord b = some e := by
      rw [State.entryOfRecord, if_pos hk, he]
      exact if_pos ⟨hstatus, hfirst⟩
    rw [disposeRemoved, hentry]
    rfl
  · have hentry : u.entryOfRecord b = none := by
      rw [State.entryOfRecord]
      by_cases hk : b.body.kind = .firstRead
      · rw [if_pos hk]
        cases he : u.engine.lookup b.body.meterId with
        | none => rfl
        | some e => exact if_neg (h.resolve_left (fun hn => hn hk) e he)
      · rw [if_neg hk]
    rw [disposeRemoved, hentry]
    rfl

end Sys2Proof.Machine
end

section
/-!
PROOF. The packet operation: classification (R78 to R83), new relays (R122), HELD requests (R131), the receipt of a HANDOVER (R55).
-/

namespace Sys2Proof.Machine

/-! ## HELD requests and new relays (R122, R131) -/

theorem requestHeld_eq (s : State) (pair : HeldPair) : requestHeld s pair =
    if ∃ i ∈ s.relay.heldPending, i.pair = pair then s
    else if s.relay.heldPending.length < 16 then
      { s with
        relay := { s.relay with heldPending := s.relay.heldPending ++ [⟨s.nextTag, pair⟩] }
        nextTag := s.nextTag + 1 }
    else
      { s with
        relay := { s.relay with
          heldPending := s.relay.heldPending.tail ++ [⟨s.nextTag, pair⟩]
          heldDrop := min (s.relay.heldDrop + 1) 65535 }
        nextTag := s.nextTag + 1 } := by
  have hany : (s.relay.heldPending.any (·.pair == pair)) = true ↔ ∃ i ∈ s.relay.heldPending, i.pair = pair := by simp
  unfold requestHeld
  simp only [hany]
  refine ite_congr rfl (fun _ => rfl) fun _ => ?_
  by_cases h : s.relay.heldPending.length < 16
  · have hfull : decide (Config.heldPendingCapacity ≤ s.relay.heldPending.length) = false := decide_eq_false (Nat.not_le.2 h)
    rw [if_pos h, hfull]
    simp only [Bool.false_eq_true, if_false]
  · have hfull : decide (Config.heldPendingCapacity ≤ s.relay.heldPending.length) = true := decide_eq_true (Nat.not_lt.1 h)
    rw [if_neg h, hfull, List.drop_one]
    simp only [if_true]
    rfl

/-- What a self-store keeps that a new relay looks at. -/
theorem selfStore_kept (s : State) (p : Packet) (segment : Nat) (stale : Bool) (target : Option Nat) :
    let t := selfStore s p segment stale target
    t.tracker = s.tracker ∧ t.settings = s.settings ∧ t.relay.list = s.relay.list := by
  have h := appendOrDrop_apart s (unconfirmedRecord s p segment stale target)
  have hp {α : Type} (f : State → α) := congrArg f h
  exact ⟨hp State.tracker, hp State.settings, hp fun s => s.relay.list⟩

/-- The relay list with room for one more (R122). -/
theorem evictRelay_eq (s : State) : evictRelay s =
    match s.relay.list with
    | e :: rest =>
      if s.relay.list.length < 32 then s
      else { selfStore s e.packet e.segment e.stale e.target with
        relay := { (selfStore s e.packet e.segment e.stale e.target).relay with list := rest } }
    | [] => s := by
  unfold evictRelay
  cases hl : s.relay.list with
  | nil => exact if_pos (by decide)
  | cons e rest => rfl

theorem evictRelay_kept (s : State) : (evictRelay s).tracker = s.tracker ∧ (evictRelay s).settings = s.settings := by
  unfold evictRelay
  split
  · exact ⟨rfl, rfl⟩
  · split
    · exact ⟨rfl, rfl⟩
    · next e rest _ =>
      obtain ⟨ht, hs, -⟩ := selfStore_kept s e.packet e.segment e.stale e.target
      exact ⟨ht, hs⟩

theorem newRelay_running {s : State} (p : Packet) (h : s.isRunning = true) : newRelay s p =
    if ∃ e ∈ s.relay.list, e.packet.meterId = p.meterId ∧ e.packet.counter = p.counter then
      { s with relay := { s.relay with duplicates := min (s.relay.duplicates + 1) 65535 } }
    else
      { evictRelay s with
        relay := { (evictRelay s).relay with list := (evictRelay s).relay.list ++
          [⟨(evictRelay s).nextTag, p, s.shareOf p.meterId, s.tracker.segment, s.tracker.stale, 0, none, none, .unsent⟩] }
        nextTag := (evictRelay s).nextTag + 1 } := by
  have hany : (s.relay.list.any (·.packet.pair == p.pair)) = true ↔
      ∃ e ∈ s.relay.list, e.packet.meterId = p.meterId ∧ e.packet.counter = p.counter := by
    simp [Packet.pair]
  obtain ⟨ht, hs⟩ := evictRelay_kept s
  have hshare : (evictRelay s).shareOf p.meterId = s.shareOf p.meterId := by rw [State.shareOf, State.shareOf, hs]
  unfold newRelay
  rw [h, Bool.not_true, if_neg Bool.false_ne_true]
  dsimp only
  rw [ht, hshare]
  simp only [hany]
  rfl

/-! ## Classification (R79 to R83) -/

theorem readingOf_eq (s : State) (item : Taken) :
    s.readingOf item = ⟨decide (item.pair ∈ s.relay.heldMemory), s.shareState (s.shareOf item.pair.meterId)⟩ := by
  rw [State.readingOf, List.contains_eq_mem]

theorem packetEnds_eq {s : State} {item : Taken} {reading : Option PacketReading} (h : s.engine.op = .packet item reading) :
    packetEnds s = some (endOperation (finishPacket s item (reading.getD (s.readingOf item)))) := by
  rw [packetEnds, h]

theorem exec_packetOperation {s : State} {item : Taken} {reading : Option PacketReading} (hp : s.startup.powered = true)
    (h : s.engine.op = .packet item reading) :
    exec .packetOperation s = .next (settle (endOperation (finishPacket s item (reading.getD
      ⟨decide (item.pair ∈ s.relay.heldMemory), s.shareState (s.shareOf item.pair.meterId)⟩)))) :=
  act_next (f := packetEnds) hp ((packetEnds_eq h).trans (by rw [readingOf_eq]))

theorem classify_held {s : State} {h : Heard} {r : PacketReading} (hr : r.held = true) :
    classify s h r = heldForRelayed { s with engine := { s.engine with heldDrop := min (s.engine.heldDrop + 1) 65535 } } h :=
  if_pos hr

/-- Past the held memory, the share as read decides (R80). -/
theorem classify_read {s : State} {h : Heard} {r : PacketReading} (hr : ¬ r.held = true) :
    classify s h r = match r.share with
      | .queued | .loading => requestHeld (appendOrDrop s (unlistedRecord s .adopting h.packet)) h.packet.pair
      | .own | .adopted => lookUpAndEvaluate s h r.share (s.shareOf h.packet.meterId)
      | .notMine =>
        match h.hearingSlot with
        | none => newRelay s h.packet
        | some _ => heldForRelayed (storeUnlisted s h (recordOrigin h r.share (s.shareOf h.packet.meterId))) h :=
  if_neg hr

theorem classify_adopting {s : State} {h : Heard} {r : PacketReading} (hr : ¬ r.held = true) (hx : r.share = .queued ∨ r.share = .loading) :
    classify s h r = requestHeld (appendOrDrop s (unlistedRecord s .adopting h.packet)) h.packet.pair := by
  rw [classify_read hr]
  rcases hx with hx | hx <;> rw [hx]

/-- A table miss (R82): no entry of the meter, or one that is HANDING. -/
theorem lookUpAndEvaluate_miss {s : State} {h : Heard} {x : ShareState} {share : Nat}
    (hmiss : ∀ e, s.engine.lookup h.packet.meterId = some e → e.status = .handing) :
    lookUpAndEvaluate s h x share = heldForRelayed (storeUnlisted s h (recordOrigin h x share)) h := by
  unfold lookUpAndEvaluate
  cases hl : s.engine.lookup h.packet.meterId with
  | none => rfl
  | some e =>
    dsimp only
    rw [if_pos (hmiss e hl)]

theorem classify_miss {s : State} {h : Heard} {r : PacketReading} (hr : ¬ r.held = true) (hx : r.share = .own ∨ r.share = .adopted)
    (hmiss : ∀ e, s.engine.lookup h.packet.meterId = some e → e.status = .handing) :
    classify s h r = heldForRelayed (storeUnlisted s h (recordOrigin h r.share (s.shareOf h.packet.meterId))) h := by
  rw [classify_read hr]
  rcases hx with hx | hx <;> rw [hx] <;> exact lookUpAndEvaluate_miss hmiss

theorem recordOrigin_relayed (p : Packet) (src share : Nat) {x : ShareState} (hx : x = .own ∨ x = .adopted ∨ x = .notMine) :
    recordOrigin ⟨p, some src⟩ x share = .relayedIn src := by
  rcases hx with rfl | rfl | rfl <;> rfl

/-- A relayed-in packet (R83): each outcome with its HELD. -/
theorem classify_relayed (s : State) (p : Packet) (r : PacketReading) (src : Nat) :
    let pair : HeldPair := ⟨p.meterId, p.counter⟩
    let unlisted := fun o => if s.settings.storeUnlisted then appendOrDrop s (unlistedRecord s o p)
      else { s with engine := { s.engine with unlistedDrop := min (s.engine.unlistedDrop + 1) 65535 } }
    (r.held = true → classify s ⟨p, some src⟩ r =
      requestHeld { s with engine := { s.engine with heldDrop := min (s.engine.heldDrop + 1) 65535 } } pair) ∧
    (¬ r.held = true → r.share = .queued ∨ r.share = .loading →
      classify s ⟨p, some src⟩ r = requestHeld (appendOrDrop s (unlistedRecord s .adopting p)) pair) ∧
    (¬ r.held = true → r.share = .notMine → classify s ⟨p, some src⟩ r = requestHeld (unlisted (.relayedIn src)) pair) ∧
    (¬ r.held = true → r.share = .own ∨ r.share = .adopted → (∀ e, s.engine.lookup p.meterId = some e → e.status = .handing) →
      classify s ⟨p, some src⟩ r = requestHeld (unlisted (.relayedIn src)) pair) := by
  refine ⟨classify_held, classify_adopting, fun hr hx => ?_, fun hr hx hmiss => ?_⟩
  · rw [classify_read hr, hx]
    exact congrArg (fun o => heldForRelayed (storeUnlisted s ⟨p, some src⟩ o) ⟨p, some src⟩) (recordOrigin_relayed p src _ (.inr (.inr rfl)))
  · rw [classify_miss hr hx hmiss, recordOrigin_relayed p src _ (hx.imp id .inl)]
    rfl

/-- A RELAY frame's meter ID and kind (R78). -/
theorem relayValid_iff (p : RelayPayload) : relayValid p = true ↔
    p.meterId ≠ 0 ∧ p.meterId ≠ 0xFFFFFFFF ∧ (p.digitsKind.toNat % 16 = 1 ∨ p.digitsKind.toNat % 16 = 2) := by
  simp [relayValid, validMeterId, and_assoc]

/-- What a packet heard here becomes (R79 to R82). -/
theorem finishPacket_intake (s : State) (p : Packet) (r : PacketReading) :
    finishPacket s (.intake p) r = classify s ⟨p, none⟩ r := rfl

/-- An UNLISTED record of a packet heard here (R82). -/
theorem classify_heard_miss {s : State} {p : Packet} {r : PacketReading} {x : ShareState} {o : Origin}
    (ho : recordOrigin ⟨p, none⟩ x (s.shareOf p.meterId) = o) (hx : x = .own ∨ x = .adopted) (hr : ¬ r.held = true) (hs : r.share = x)
    (hmiss : ∀ e, s.engine.lookup p.meterId = some e → e.status = .handing) :
    classify s ⟨p, none⟩ r = storeUnlisted s ⟨p, none⟩ o := by
  rw [classify_miss hr (hs ▸ hx) hmiss, hs]
  exact congrArg (storeUnlisted s ⟨p, none⟩) ho

/-- A RELAY frame is classified only with a valid meter ID and kind (R78). -/
theorem finishPacket_relay (s : State) (src : Nat) (p : RelayPayload) (r : PacketReading) :
    finishPacket s (.relayed (.relay src p)) r = if relayValid p then classify s ⟨relayPacket p, some src⟩ r
      else { s with engine := { s.engine with relayReject := countUp s.engine.relayReject } } := rfl

theorem relayValid_false {p : RelayPayload}
    (h : p.meterId = 0 ∨ p.meterId = 0xFFFFFFFF ∨ (p.digitsKind.toNat % 16 ≠ 1 ∧ p.digitsKind.toNat % 16 ≠ 2)) : ¬ relayValid p = true := by
  rw [relayValid_iff]
  rintro ⟨h0, hmax, hk⟩
  rcases h with h | h | ⟨h1, h2⟩
  · exact h0 h
  · exact hmax h
  · exact hk.elim h1 h2

/-- A new relay outside RUNNING is self-stored (R122). -/
theorem newRelay_stored {s : State} (p : Packet) (h : s.isRunning = false) :
    newRelay s p = selfStore s p s.tracker.segment s.tracker.stale none := by
  unfold newRelay
  rw [h, Bool.not_false, if_pos rfl]

/-- Settles O46: the branches of the classification, new relays, HELD requests and the receipt of a HANDOVER. -/
theorem packetClassified : Obligations.PacketClassified := by
  unfold Obligations.PacketClassified
  refine ⟨fun s item hp => ⟨fun r h => ?_, fun h => ?_⟩, fun p g b n q h => ⟨rfl, rfl, rfl, rfl⟩, fun s origin p => rfl, fun s p r => ?_,
    fun s src p r => ⟨fun h => ?_, fun h0 hmax hkind => ?_⟩, fun s p r => rfl, fun s p h => newRelay_stored p h,
    fun s p segment stale target => ?_, fun s p h => ?_, requestHeld_eq⟩
  · rw [exec_packetOperation hp h, Option.getD_some]
  · rw [exec_packetOperation hp h, Option.getD_none]
  · refine ⟨classify_held (h := ⟨p, none⟩), classify_adopting (h := ⟨p, none⟩), fun hr hx => ?_,
      fun hr hx => classify_heard_miss rfl (.inl rfl) hr hx, fun hr hx => classify_heard_miss rfl (.inr rfl) hr hx,
      fun segment stale => rfl, fun src => classify_relayed s p r src⟩
    rw [finishPacket_intake, classify_read hr, hx]
  · rw [finishPacket_relay, if_neg (relayValid_false h)]
    rfl
  · rw [finishPacket_relay, if_pos ((relayValid_iff p).2 ⟨h0, hmax, hkind⟩)]
    rfl
  · exact (selfStore_eq s p segment stale target).trans (by
      have h := (onlyAppends_of_apart (appendOrDrop_apart s (unconfirmedRecord s p segment stale target))).2
      generalize appendOrDrop s (unconfirmedRecord s p segment stale target) = u at h ⊢
      rw [h]
      rfl)
  · rw [newRelay_running p h]
    refine ite_congr rfl (fun _ => rfl) fun _ => ?_
    exact congrArg (fun u : State => { u with
      relay := { u.relay with list := u.relay.list ++
        [(⟨u.nextTag, p, s.shareOf p.meterId, s.tracker.segment, s.tracker.stale, 0, none, none, .unsent⟩ : RelayEntry)] }
      nextTag := u.nextTag + 1 }) (evictRelay_eq s)

end Sys2Proof.Machine
end

section
/-!
PROOF. The packet operation on a table hit (5.3 to 5.5, 6.2 to 6.5): the entry, its records, its notice and its HELD.
-/

namespace Sys2Proof.Machine

/-! ## The table after a change of an entry (R64, R65) -/

theorem lookup_meterId {g : Engine} {m : MeterId} {e : Entry} (h : g.lookup m = some e) : e.meterId = m :=
  beq_iff_eq.1 (List.find?_some (p := fun x : Entry => x.meterId == m) h)

theorem lookup_replaceEntry_same {g : Engine} {m : MeterId} {e n : Entry} (h : g.lookup m = some e) (hn : n.meterId = m) :
    (g.replaceEntry e n).lookup m = some n := by
  have he := lookup_meterId h
  unfold Engine.lookup Engine.replaceEntry at *
  dsimp only
  have hpred : ((fun x : Entry => x.meterId == m) ∘ fun x => if x.meterId = e.meterId then n else x) = fun x => x.meterId == m := by
    funext x
    by_cases hx : x.meterId = e.meterId
    · simp [hx, hn, he]
    · simp [hx]
  rw [List.find?_map, hpred, h, Option.map_some, if_pos rfl]

theorem lookup_replaceEntry_other {g : Engine} {m k : MeterId} {e n : Entry} (he : e.meterId = m) (hn : n.meterId = m) (hk : k ≠ m) :
    (g.replaceEntry e n).lookup k = g.lookup k := by
  unfold Engine.lookup Engine.replaceEntry
  dsimp only
  have hpred : ((fun x : Entry => x.meterId == k) ∘ fun x => if x.meterId = e.meterId then n else x) = fun x => x.meterId == k := by
    funext x
    by_cases hx : x.meterId = e.meterId
    · simp [hx, hn, he]
    · simp [hx]
  rw [List.find?_map, hpred]
  cases hl : g.table.find? (·.meterId == k) with
  | none => rfl
  | some x =>
    have hx : x.meterId = k := beq_iff_eq.1 (List.find?_some (p := fun x : Entry => x.meterId == k) hl)
    rw [Option.map_some, if_neg (by rw [hx, he]; exact hk)]

theorem replaceEntry_twice (g : Engine) {e n n' : Entry} (h : n.meterId = e.meterId) :
    (g.replaceEntry e n).replaceEntry n n' = g.replaceEntry e n' := by
  unfold Engine.replaceEntry
  dsimp only
  rw [List.map_map]
  have hcomp : ((fun x : Entry => if x.meterId = n.meterId then n' else x) ∘ fun x => if x.meterId = e.meterId then n else x) =
      fun x => if x.meterId = e.meterId then n' else x := by
    funext x
    by_cases hx : x.meterId = e.meterId
    · simp [hx]
    · simp [hx, h]
  rw [hcomp]

/-! ## Records of an evaluated packet (R94, R95) -/

/-- A record takes of the state the run number, the segment and the stale state, and of the entry what the evaluation settles. -/
theorem evaluatedRecord_congr {s t : State} {e n : Entry} (kind : RecordKind) (o : Origin) (p : Packet) (raised : Nat)
    (hs : s.engine.currentRun = t.engine.currentRun ∧ s.tracker.segment = t.tracker.segment ∧ s.tracker.stale = t.tracker.stale)
    (he : e.status = n.status ∧ e.detectors = n.detectors ∧ e.score = n.score) :
    evaluatedRecord s kind o e p raised = evaluatedRecord t kind o n p raised := by
  obtain ⟨hrun, hseg, hstale⟩ := hs
  obtain ⟨hstatus, hdet, hscore⟩ := he
  simp only [evaluatedRecord, State.runNumber, hrun, hseg, hstale, hstatus, hdet, hscore]

/-- An append takes of the state the store and the Start-up Controller. -/
theorem append_congr {s t : State} (b : RecordBody) (h : s.store = t.store ∧ s.startup = t.startup) :
    (append s b).1.store = (append t b).1.store ∧ (append s b).1.startup = (append t b).1.startup ∧ (append s b).2 = (append t b).2 := by
  obtain ⟨⟩ := s; obtain ⟨⟩ := t
  obtain ⟨rfl, rfl⟩ := h
  simp only [append, noteFull_eq, State.scanned, State.now]
  split_ifs <;> simp

/-- Appends change of the state the store and the Start-up Controller alone. -/
theorem append_frame (s : State) (b : RecordBody) : (append s b).1 = { s with
    store := (append s b).1.store
    startup := (append s b).1.startup } :=
  (onlyAppends_of_apart (append_apart s b)).2

/-- Records made one after another are the same as records made at once, as no append changes what they take. -/
theorem foldl_evaluatedRecord (l : List Nat) (s : State) (kind : RecordKind) (o : Origin) (e : Entry) (p : Packet) :
    l.foldl (fun s j => appendOrDrop s (evaluatedRecord s kind o e p j)) s = (l.map (evaluatedRecord s kind o e p)).foldl appendOrDrop s := by
  have hrec (u : State) (b : RecordBody) (k : Nat) :
      evaluatedRecord (appendOrDrop u b) kind o e p k = evaluatedRecord u kind o e p k := by
    have hf := appendOrDrop_apart u b
    have hp {α : Type} (f : State → α) := congrArg f hf
    exact evaluatedRecord_congr kind o p k ⟨hp fun s => s.engine.currentRun, hp fun s => s.tracker.segment, hp fun s => s.tracker.stale⟩
      ⟨rfl, rfl, rfl⟩
  induction l generalizing s with
  | nil => rfl
  | cons j l ih =>
    rw [List.foldl_cons, ih, List.map_cons, List.foldl_cons]
    exact congrArg (fun f => (l.map f).foldl appendOrDrop _) (funext (hrec s _))

/-! ## The detectors raised (R94, R102) -/

theorem evaluated_getElem? (st : Settings) (day : BitVec 16) (e : Entry) (p : Packet) {j : Nat} (hj : j < 7) :
    (evaluated st day e p)[j]? = some (detectorStep (st.detector j) (p.alarm && j == 0) ((packetResults st day e p).getD j none)
      (e.detectors.getD j ⟨.idle, 0, 0, none⟩)) := by
  rw [evaluated, detectorsStep, List.getElem?_map, List.getElem?_range hj, Option.map_some]

theorem filterMap_ite {α β : Type} (c : α → Bool) (f : α → β) (l : List α) :
    l.filterMap (fun a => if c a then some (f a) else none) = (l.filter c).map f := by
  induction l with
  | nil => rfl
  | cons a l ih => cases h : c a <;> simp [h, ih]

theorem raisedNumbers_evaluated (st : Settings) (day : BitVec 16) (e : Entry) (p : Packet) :
    raisedNumbers (evaluated st day e p) = ((List.range 7).filter fun j => (detectorStep (st.detector j) (p.alarm && j == 0)
      ((packetResults st day e p).getD j none) (e.detectors.getD j ⟨.idle, 0, 0, none⟩)).2).map (· + 1) := by
  rw [raisedNumbers, ← filterMap_ite]
  refine List.filterMap_congr fun j hj => ?_
  rw [evaluated_getElem? st day e p (List.mem_range.1 hj), Option.map_some, Option.getD_some]

theorem isFirstReading_iff (e : Entry) (p : Packet) : isFirstReading e p = true ↔
    packetKind e.lastHeard p.counter ≠ .repeated ∧ (e.status = .unread ∨ e.status = .missed ∨ e.status = .elsewhere) := by
  simp [isFirstReading, or_assoc]

theorem afterReading_eq (x : Status) : x.afterReading = if x = .missed then .late else .read := by
  cases x <;> rfl

/-! ## The evaluation (5.4, 5.5) -/

/-- The entry as the evaluation leaves it, its FIRST READ referenced or kept (R69, R92, R93). -/
def settledEntry (s : State) (old : Entry) (p : Packet) (o : Origin) : Entry :=
  let new := evaluatedEntry s.settings s.engine.runDay old p
  if isFirstReading old p then
    if s.store.accepts then { new with firstRead := some s.store.seqCounter, kept := none }
    else { new with firstRead := none, kept := some (evaluatedRecord s .firstRead o new p 0) }
  else new

/-- The suspect mark comes with this packet (R112). -/
def turnsSuspect (s : State) (old : Entry) (p : Packet) : Bool :=
  !old.suspect && (evaluatedEntry s.settings s.engine.runDay old p).suspect

/-- The records after the FIRST READ, in order (R94). -/
def laterRecords (s : State) (old : Entry) (p : Packet) (o : Origin) : List RecordBody :=
  let new := evaluatedEntry s.settings s.engine.runDay old p
  (raisedNumbers (evaluated s.settings s.engine.runDay old p)).map (evaluatedRecord s .exception o new p) ++
    if turnsSuspect s old p then [evaluatedRecord s .suspect o new p 0] else []

/-- The state with the FIRST READ appended, where there is one (R69). -/
def firstAppended (s : State) (old : Entry) (p : Packet) (o : Origin) : State :=
  if isFirstReading old p then (append s (evaluatedRecord s .firstRead o (evaluatedEntry s.settings s.engine.runDay old p) p 0)).1 else s

theorem storeFirstRead_eq {s : State} (e : Entry) (b : RecordBody) : storeFirstRead s e b = { s with
    engine := s.engine.replaceEntry e (if s.store.accepts then { e with firstRead := some s.store.seqCounter, kept := none }
      else { e with firstRead := none, kept := some b })
    store := (append s b).1.store
    startup := (append s b).1.startup } := by
  have hf := append_frame s b
  unfold storeFirstRead
  cases ha : s.store.accepts with
  | true =>
    have hn := append_accepted b ha
    generalize append s b = r at hf hn
    obtain ⟨t, o⟩ := r
    obtain rfl : o = _ := hn
    exact congrArg (fun u : State => { u with
      engine := u.engine.replaceEntry e { e with firstRead := some s.store.seqCounter, kept := none } }) hf
  | false =>
    rw [append_refused b ha]
    rfl

theorem settledEntry_meterId (s : State) (old : Entry) (p : Packet) (o : Origin) : (settledEntry s old p o).meterId = old.meterId := by
  unfold settledEntry
  dsimp only
  split_ifs <;> rfl

/-- The entry changed and reported, its FIRST READ stored (R69, R74). -/
theorem firstReadStored_eq (s : State) (old : Entry) (p : Packet) (o : Origin) {new : Entry} {s1 : State}
    (hnew : evaluatedEntry s.settings s.engine.runDay old p = new) (hs1 : changeEntry s old new = s1) :
    (if isFirstReading old p then storeFirstRead s1 new (evaluatedRecord s1 .firstRead o new p 0) else s1) = { s with
      engine := s.engine.replaceEntry old (settledEntry s old p o)
      tracker := (s.tracker.forget old).learn new
      store := (firstAppended s old p o).store
      startup := (firstAppended s old p o).startup } := by
  have hm : new.meterId = old.meterId := hnew ▸ rfl
  have hrec : evaluatedRecord s1 .firstRead o new p 0 = evaluatedRecord s .firstRead o new p 0 :=
    hs1 ▸ evaluatedRecord_congr .firstRead o p 0 ⟨rfl, rfl, rfl⟩ ⟨rfl, rfl, rfl⟩
  have hstore : s1.store = s.store ∧ s1.startup = s.startup := hs1 ▸ ⟨rfl, rfl⟩
  have hfrom {g : Engine} {st : Store} {su : Startup} : { s1 with engine := g, store := st, startup := su } =
      { s with engine := g, tracker := (s.tracker.forget old).learn new, store := st, startup := su } := hs1 ▸ rfl
  unfold settledEntry firstAppended
  rw [hnew]
  cases isFirstReading old p with
  | false => exact hs1 ▸ rfl
  | true =>
    obtain ⟨h1, h2, -⟩ := append_congr (evaluatedRecord s .firstRead o new p 0) hstore
    have hg : s1.engine = s.engine.replaceEntry old new := hs1 ▸ rfl
    rw [if_pos rfl, if_pos rfl, if_pos rfl, storeFirstRead_eq, hrec, h1, h2, hstore.1, hg, replaceEntry_twice _ hm]
    exact hfrom

/-- The records after the FIRST READ are appended in order, each with what the state gave before (R94). -/
theorem laterAppended_eq {s u : State} (l : List Nat) (b : Bool) (o : Origin) (new : Entry) (p : Packet)
    (hu : u.engine.currentRun = s.engine.currentRun ∧ u.tracker.segment = s.tracker.segment ∧ u.tracker.stale = s.tracker.stale) :
    let v := l.foldl (fun s j => appendOrDrop s (evaluatedRecord s .exception o new p j)) u
    (if b then appendOrDrop v (evaluatedRecord v .suspect o new p 0) else v) =
      (l.map (evaluatedRecord s .exception o new p) ++ if b then [evaluatedRecord s .suspect o new p 0] else []).foldl appendOrDrop u := by
  intro v
  have hv : v = (l.map (evaluatedRecord s .exception o new p)).foldl appendOrDrop u := by
    have hrec : evaluatedRecord u .exception o new p = evaluatedRecord s .exception o new p :=
      funext fun j => evaluatedRecord_congr .exception o p j hu ⟨rfl, rfl, rfl⟩
    rw [← hrec]
    exact foldl_evaluatedRecord l u .exception o new p
  rw [List.foldl_append, ← hv]
  cases b with
  | false => rfl
  | true =>
    have hk : v.engine.currentRun = s.engine.currentRun ∧ v.tracker.segment = s.tracker.segment ∧ v.tracker.stale = s.tracker.stale := by
      rw [hv, foldl_appendOrDrop_frame]
      exact hu
    rw [if_pos rfl, if_pos rfl, List.foldl_cons, List.foldl_nil, evaluatedRecord_congr .suspect o p 0 hk ⟨rfl, rfl, rfl⟩]

/-- The evaluation of a packet: the entry replaced and reported, the records appended, the notice placed. -/
theorem evaluate_eq (s : State) (old : Entry) (p : Packet) (o : Origin) :
    let new := evaluatedEntry s.settings s.engine.runDay old p
    let w := (laterRecords s old p o).foldl appendOrDrop (firstAppended s old p o)
    let t : State := { s with
      engine := s.engine.replaceEntry old (settledEntry s old p o)
      tracker := (s.tracker.forget old).learn new
      store := w.store
      startup := w.startup }
    evaluate s old p o = if turnsSuspect s old p then
      placeNotice t ⟨0, p.meterId, new.score, activeSet new.detectors, s.tracker.segment⟩ else t := by
  intro new w t
  let u : State := { s with
    engine := s.engine.replaceEntry old (settledEntry s old p o)
    tracker := (s.tracker.forget old).learn new
    store := (firstAppended s old p o).store
    startup := (firstAppended s old p o).startup }
  have hlater := laterAppended_eq (s := s) (u := u) (raisedNumbers (evaluated s.settings s.engine.runDay old p)) (turnsSuspect s old p)
    o new p ⟨rfl, rfl, rfl⟩
  have ht : (laterRecords s old p o).foldl appendOrDrop u = t := by
    rw [foldl_appendOrDrop_frame]
    obtain ⟨h1, h2⟩ := foldl_appendOrDrop_congr (laterRecords s old p o) (s := u) (t := firstAppended s old p o) ⟨rfl, rfl⟩
    rw [h1, h2]
  have hu := firstReadStored_eq s old p o (new := new) rfl rfl
  unfold evaluate
  extract_lets st new' suspectNow s1 s2 s3 s4
  have hs2 : s2 = u := hu
  have hs3 : s3 = (raisedNumbers (evaluated s.settings s.engine.runDay old p)).foldl
      (fun s j => appendOrDrop s (evaluatedRecord s .exception o new p j)) u := by
    show List.foldl _ s2 (raisedNumbers (evaluated st s2.engine.runDay old p)) = _
    rw [hs2]
    rfl
  have hs4 : s4 = t := by
    rw [← ht]
    refine Eq.trans ?_ hlater
    show (if suspectNow then appendOrDrop s3 (evaluatedRecord s3 .suspect o new p 0) else s3) = _
    rw [hs3]
    rfl
  rw [hs4]
  rfl

/-! ## The hit (5.3, R83) -/

theorem requestHeld_kept (s : State) (q : HeldPair) : requestHeld s q = { s with
    relay := { s.relay with
      heldPending := (requestHeld s q).relay.heldPending
      heldDrop := (requestHeld s q).relay.heldDrop }
    nextTag := (requestHeld s q).nextTag } := by
  unfold requestHeld
  split <;> rfl

/-- Apart from tags, a HELD request depends on the Relay Unit alone. -/
theorem requestHeld_pairs {s t : State} (q : HeldPair) (h : t.relay = s.relay) :
    (requestHeld t q).relay.heldPending.map (·.pair) = (requestHeld s q).relay.heldPending.map (·.pair) ∧
    (requestHeld t q).relay.heldDrop = (requestHeld s q).relay.heldDrop := by
  unfold requestHeld
  rw [h]
  cases s.relay.heldPending.any (·.pair == q) with
  | true => simp [h]
  | false => simp

theorem lookUpAndEvaluate_hit {s : State} {h : Heard} {e : Entry} (x : ShareState) (share : Nat)
    (hl : s.engine.lookup h.packet.meterId = some e) (he : e.status ≠ .handing) : lookUpAndEvaluate s h x share =
      if packetKind e.lastHeard h.packet.counter = .repeated ∧ h.hearingSlot = none then evaluate s e h.packet (recordOrigin h x share)
      else requestHeld (evaluate s e h.packet (recordOrigin h x share)) h.packet.pair := by
  unfold lookUpAndEvaluate
  rw [hl]
  dsimp only
  rw [if_neg he]
  dsimp only
  unfold heldForRelayed
  by_cases hk : packetKind e.lastHeard h.packet.counter = .repeated
  · cases hs : h.hearingSlot <;> simp [hk]
  · simp [hk]

/-- What a hit keeps of the state: all but the entry with its report, the notices, the HELD requests and the appends. -/
def HitFrame (s t : State) : Prop :=
  t = { s with
    engine := { s.engine with
      table := t.engine.table
      notices := t.engine.notices
      suspectDrop := t.engine.suspectDrop }
    tracker := { s.tracker with
      rows := t.tracker.rows
      revisit := t.tracker.revisit }
    relay := { s.relay with
      heldPending := t.relay.heldPending
      heldDrop := t.relay.heldDrop }
    store := t.store
    startup := t.startup
    nextTag := t.nextTag }

theorem HitFrame.requestHeld {s u : State} (q : HeldPair) (h : HitFrame s u) : HitFrame s (requestHeld u q) := by
  have hk := requestHeld_kept u q
  generalize Machine.requestHeld u q = v at hk ⊢
  unfold HitFrame at h
  rw [hk, h]
  rfl

theorem evaluate_hitFrame (s : State) (e : Entry) (p : Packet) (o : Origin) : HitFrame s (evaluate s e p o) := by
  rw [evaluate_eq]
  cases turnsSuspect s e p <;> rfl

/-- The item of a packet operation and the packet it works on, with its hearing slot (R78). -/
def WorksOn (s : State) (item : Taken) (p : Packet) (src : Option Nat) : Prop :=
  (item = .intake p ∧ src = none) ∨ (∃ g b, item = .relayed (.moved p g b) ∧ src = some s.slot) ∨
    (∃ n q, item = .relayed (.relay n q) ∧ relayValid q = true ∧ p = relayPacket q ∧ src = some n)

theorem finishPacket_own {s : State} {item : Taken} {p : Packet} {src : Option Nat} {r : PacketReading} (hi : WorksOn s item p src)
    (hr : r.held = false) (hx : r.share = .own ∨ r.share = .adopted) :
    finishPacket s item r = lookUpAndEvaluate s ⟨p, src⟩ r.share (s.shareOf p.meterId) := by
  have hc : finishPacket s item r = classify s ⟨p, src⟩ r := by
    rcases hi with ⟨rfl, rfl⟩ | ⟨g, b, rfl, rfl⟩ | ⟨n, q, rfl, hq, rfl, rfl⟩
    · rfl
    · rfl
    · rw [finishPacket_relay, if_pos hq]
  rw [hc, classify_read (by rw [hr]; exact Bool.false_ne_true)]
  rcases hx with hx | hx <;> rw [hx]

theorem recordOrigin_own {p : Packet} {x : ShareState} (src : Option Nat) (share : Nat) (hx : x = .own ∨ x = .adopted) :
    recordOrigin ⟨p, src⟩ x share = match src with
      | some n => .relayedIn n
      | none => if x = .adopted then .adopted share else .own := by
  cases src <;> rcases hx with rfl | rfl <;> rfl

/-- The entry after a hit, field by field (R92, R93, R102, R111, R112). -/
theorem settledEntry_eq (s : State) (e : Entry) (p : Packet) (o : Origin) :
    let n := settledEntry s e p o
    let kind := packetKind e.lastHeard p.counter
    let first := kind ≠ .repeated ∧ (e.status = .unread ∨ e.status = .missed ∨ e.status = .elsewhere)
    n = { e with
      detectors := n.detectors
      score := scoreOf s.settings n.detectors
      suspect := e.suspect || decide (s.settings.threshold ≤ scoreOf s.settings n.detectors)
      lastHeard := if kind = .repeated then e.lastHeard else some ⟨p.counter, p.reading, p.flags⟩
      status := if first then (if e.status = .missed then .late else .read) else e.status
      firstRead := n.firstRead
      kept := n.kept } := by
  have hfirst := isFirstReading_iff e p
  dsimp only
  unfold settledEntry
  dsimp only
  by_cases h : isFirstReading e p = true
  · rw [if_pos (hfirst.1 h), if_pos h, ← afterReading_eq]
    cases s.store.accepts <;> simp [evaluatedEntry, h]
  · rw [if_neg (mt hfirst.2 h), if_neg h]
    simp [evaluatedEntry, h]

/-- Settling the FIRST READ changes nothing of what the evaluation found. -/
theorem settledEntry_found (s : State) (e : Entry) (p : Packet) (o : Origin) :
    let n := settledEntry s e p o
    let new := evaluatedEntry s.settings s.engine.runDay e p
    n.detectors = new.detectors ∧ n.score = new.score ∧ n.suspect = new.suspect ∧ n.status = new.status := by
  dsimp only
  unfold settledEntry
  dsimp only
  split_ifs <;> exact ⟨rfl, rfl, rfl, rfl⟩

theorem settledEntry_unsettled {s : State} {e : Entry} {p : Packet} (o : Origin) (h : ¬ isFirstReading e p = true) :
    (settledEntry s e p o).firstRead = e.firstRead ∧ (settledEntry s e p o).kept = e.kept := by
  unfold settledEntry
  dsimp only
  rw [if_neg h]
  exact ⟨rfl, rfl⟩

theorem settledEntry_first {s : State} {e : Entry} {p : Packet} (o : Origin) (h : isFirstReading e p = true) :
    let n := settledEntry s e p o
    (s.store.accepts = true → n.firstRead = some s.store.seqCounter ∧ n.kept = none) ∧
    (s.store.accepts = false → n.firstRead = none ∧ n.kept = some (evaluatedRecord s .firstRead o n p 0)) := by
  obtain ⟨hd, hsc, -, hst⟩ := settledEntry_found s e p o
  dsimp only
  rw [evaluatedRecord_congr .firstRead o p 0 (t := s) (n := evaluatedEntry s.settings s.engine.runDay e p) ⟨rfl, rfl, rfl⟩ ⟨hst, hd, hsc⟩]
  unfold settledEntry
  dsimp only
  rw [if_pos h]
  exact ⟨fun ha => by rw [if_pos ha]; exact ⟨rfl, rfl⟩, fun ha => by rw [if_neg (by rw [ha]; exact Bool.false_ne_true)]; exact ⟨rfl, rfl⟩⟩

theorem turnsSuspect_iff (s : State) (e : Entry) (p : Packet) (o : Origin) :
    turnsSuspect s e p = true ↔ e.suspect = false ∧ (settledEntry s e p o).suspect = true := by
  rw [(settledEntry_found s e p o).2.2.1, turnsSuspect, Bool.and_eq_true, Bool.not_eq_true']

/-- The records of a hit, written with the entry as the hit leaves it (R94). -/
theorem laterRecords_eq (s : State) (e : Entry) (p : Packet) (o : Origin) :
    let n := settledEntry s e p o
    let raises := (List.range 7).filter fun j => (detectorStep (s.settings.detector j) (p.alarm && j == 0)
      ((packetResults s.settings s.engine.runDay e p).getD j none) (e.detectors.getD j ⟨.idle, 0, 0, none⟩)).2
    laterRecords s e p o = raises.map (fun j => evaluatedRecord s .exception o n p (j + 1)) ++
      (if e.suspect = false ∧ n.suspect = true then [evaluatedRecord s .suspect o n p 0] else []) := by
  obtain ⟨hd, hsc, -, hst⟩ := settledEntry_found s e p o
  have hrec (kind : RecordKind) (j : Nat) :
      evaluatedRecord s kind o (settledEntry s e p o) p j = evaluatedRecord s kind o (evaluatedEntry s.settings s.engine.runDay e p) p j :=
    evaluatedRecord_congr kind o p j ⟨rfl, rfl, rfl⟩ ⟨hst, hd, hsc⟩
  dsimp only
  simp only [hrec, ← turnsSuspect_iff s e p o]
  unfold laterRecords
  dsimp only
  rw [raisedNumbers_evaluated, List.map_map]
  rfl

theorem firstAppended_eq (s : State) (e : Entry) (p : Packet) (o : Origin) : firstAppended s e p o =
    if packetKind e.lastHeard p.counter ≠ .repeated ∧ (e.status = .unread ∨ e.status = .missed ∨ e.status = .elsewhere) then
      (append s (evaluatedRecord s .firstRead o (settledEntry s e p o) p 0)).1 else s := by
  obtain ⟨hd, hsc, -, hst⟩ := settledEntry_found s e p o
  rw [evaluatedRecord_congr .firstRead o p 0 (t := s) (n := evaluatedEntry s.settings s.engine.runDay e p) ⟨rfl, rfl, rfl⟩ ⟨hst, hd, hsc⟩]
  exact if_congr (isFirstReading_iff e p) rfl rfl

theorem firstAppended_apart (s : State) (e : Entry) (p : Packet) (o : Origin) : (firstAppended s e p o).apartAppends = s.apartAppends := by
  unfold firstAppended
  split
  · exact append_apart s _
  · rfl

/-- A notice placed: the one for the same meter taken out, the oldest of 64 others evicted and counted (R114, R115). -/
theorem placeNotice_eq (s : State) (n : Notice) :
    let others := s.engine.notices.filter fun c => decide (c.meterId ≠ n.meterId)
    (placeNotice s n).engine.notices.map (fun c => (c.meterId, c.score, c.active, c.segment)) =
      (if others.length < 64 then others else others.tail).map (fun c => (c.meterId, c.score, c.active, c.segment)) ++
        [(n.meterId, n.score, n.active, n.segment)] ∧
    (placeNotice s n).engine.suspectDrop = if others.length < 64 then s.engine.suspectDrop else min (s.engine.suspectDrop + 1) 65535 := by
  intro others
  have ho : (s.engine.notices.filter fun c => c.meterId != n.meterId) = others :=
    List.filter_congr fun c _ => by rw [decide_not, bne, beq_eq_decide]
  unfold placeNotice
  rw [ho]
  dsimp only
  by_cases h : others.length < 64
  · have hfull : decide (Config.noticeCapacity ≤ others.length) = false := decide_eq_false (Nat.not_le.2 h)
    simp [hfull, h]
  · have hfull : decide (Config.noticeCapacity ≤ others.length) = true := decide_eq_true (Nat.not_lt.1 h)
    simp [hfull, h, countUp, Config.counterMax]

/-- The state after a hit, its HELD requested or not. -/
def hitState (s : State) (e : Entry) (p : Packet) (src : Option Nat) (o : Origin) : State :=
  if packetKind e.lastHeard p.counter = .repeated ∧ src = none then evaluate s e p o
  else requestHeld (evaluate s e p o) ⟨p.meterId, p.counter⟩

theorem hitState_again {e : Entry} {p : Packet} (s : State) (o : Origin) (h : packetKind e.lastHeard p.counter = .repeated) :
    hitState s e p none o = evaluate s e p o :=
  if_pos ⟨h, rfl⟩

theorem hitState_held {e : Entry} {p : Packet} {src : Option Nat} (s : State) (o : Origin)
    (h : packetKind e.lastHeard p.counter ≠ .repeated ∨ src ≠ none) :
    hitState s e p src o = requestHeld (evaluate s e p o) ⟨p.meterId, p.counter⟩ :=
  if_neg fun hc => h.elim (fun hk => hk hc.1) fun hs => hs hc.2

theorem hitState_frame (s : State) (e : Entry) (p : Packet) (src : Option Nat) (o : Origin) : HitFrame s (hitState s e p src o) := by
  unfold hitState
  split
  · exact evaluate_hitFrame s e p o
  · exact (evaluate_hitFrame s e p o).requestHeld _

/-- A HELD request aside, a hit is its evaluation. -/
theorem hitState_evaluate (s : State) (e : Entry) (p : Packet) (src : Option Nat) (o : Origin) :
    (hitState s e p src o).engine = (evaluate s e p o).engine ∧ (hitState s e p src o).store = (evaluate s e p o).store ∧
    (hitState s e p src o).startup = (evaluate s e p o).startup := by
  unfold hitState
  split
  · exact ⟨rfl, rfl, rfl⟩
  · rw [requestHeld_kept]
    exact ⟨rfl, rfl, rfl⟩

theorem evaluate_parts (s : State) (e : Entry) (p : Packet) (o : Origin) :
    let u := evaluate s e p o
    let w := (laterRecords s e p o).foldl appendOrDrop (firstAppended s e p o)
    u.engine.table = (s.engine.replaceEntry e (settledEntry s e p o)).table ∧ u.store = w.store ∧ u.startup = w.startup ∧ u.relay = s.relay := by
  rw [evaluate_eq]
  cases turnsSuspect s e p <;> exact ⟨rfl, rfl, rfl, rfl⟩

theorem evaluate_onlyAppends (s : State) (e : Entry) (p : Packet) (o : Origin) : OnlyAppends s (evaluate s e p o) := by
  obtain ⟨-, hst, hsu, -⟩ := evaluate_parts s e p o
  have h := (onlyAppends_of_apart ((foldl_appendOrDrop_apart (laterRecords s e p o) (firstAppended s e p o)).trans
    (firstAppended_apart s e p o))).1
  unfold OnlyAppends at h ⊢
  rw [hst, hsu]
  exact h

/-- Settles O47: the evaluation's entry, records and notice, and the HELD after it, field by field. -/
theorem packetEvaluated : Obligations.PacketEvaluated := by
  unfold Obligations.PacketEvaluated
  refine ⟨?_, fun s kind origin e p raised => rfl, fun ds j hj => ?_⟩
  · intro s e p item reading src hp hop read hi hheld hx hl he hnodup st kind results origin first
    have hshare : read.share = .own ∨ read.share = .adopted := hx
    have horigin : recordOrigin ⟨p, src⟩ read.share (s.shareOf p.meterId) = origin := recordOrigin_own src _ hx
    have hfinish : finishPacket s item read = hitState s e p src origin := by
      rw [finishPacket_own hi hheld hx, lookUpAndEvaluate_hit _ _ hl he, horigin]
      rfl
    have hm : e.meterId = p.meterId := lookup_meterId hl
    have hnm : (settledEntry s e p origin).meterId = p.meterId := (settledEntry_meterId s e p origin).trans hm
    obtain ⟨htable, hstore, hstartup, hrelay⟩ := evaluate_parts s e p origin
    obtain ⟨heng, hst, hsu⟩ := hitState_evaluate s e p src origin
    have hfirst := isFirstReading_iff e p
    have hlook (m : MeterId) : (hitState s e p src origin).engine.lookup m = (s.engine.replaceEntry e (settledEntry s e p origin)).lookup m := by
      rw [Engine.lookup, Engine.lookup, heng, htable]
    refine ⟨endOperation (hitState s e p src origin), settledEntry s e p origin, ?_, ?_, ?_, ?_, ?_, settledEntry_eq s e p origin, ?_, ?_, ?_, ?_, ?_, ?_, ?_, ?_⟩
    · rw [exec_packetOperation hp hop, ← hfinish]
    · exact congrArg endOperation (hitState_frame s e p src origin)
    · have h := evaluate_onlyAppends s e p origin
      unfold OnlyAppends at h ⊢
      have h1 : (endOperation (hitState s e p src origin)).store = (evaluate s e p origin).store := hst
      have h2 : (endOperation (hitState s e p src origin)).startup = (evaluate s e p origin).startup := hsu
      rw [h1, h2]
      exact h
    · exact (hlook _).trans (lookup_replaceEntry_same hl hnm)
    · exact fun m hne => (hlook m).trans (lookup_replaceEntry_other hm hnm hne)
    · intro j hj
      rw [(settledEntry_found s e p origin).1]
      exact (List.getElem?_map ..).trans (congrArg (Option.map (·.1)) (evaluated_getElem? s.settings s.engine.runDay e p hj))
    · exact fun h => settledEntry_unsettled origin (mt hfirst.1 h)
    · exact fun h => settledEntry_first origin (hfirst.2 h)
    · refine (hst.trans hstore).trans ?_
      rw [laterRecords_eq, firstAppended_eq]
    · intro hk hsrc
      subst hsrc
      have hv := congrArg State.relay (hitState_again s origin hk)
      exact hv.trans hrelay
    · intro h
      have hv : (endOperation (hitState s e p src origin)).relay = (requestHeld (evaluate s e p origin) ⟨p.meterId, p.counter⟩).relay :=
        (congrArg State.relay (hitState_held s origin h) :)
      rw [hv]
      exact requestHeld_pairs _ hrelay
    · intro he0 he1 others
      obtain ⟨hd, hsc, -, -⟩ := settledEntry_found s e p origin
      have hv : (endOperation (hitState s e p src origin)).engine.notices = (evaluate s e p origin).engine.notices ∧
          (endOperation (hitState s e p src origin)).engine.suspectDrop = (evaluate s e p origin).engine.suspectDrop :=
        ⟨(congrArg Engine.notices heng :), (congrArg Engine.suspectDrop heng :)⟩
      rw [hv.1, hv.2, evaluate_eq, if_pos ((turnsSuspect_iff s e p origin).2 ⟨he0, he1⟩), hd, hsc]
      exact placeNotice_eq _ _
    · intro h
      have hv : (endOperation (hitState s e p src origin)).engine.notices = (evaluate s e p origin).engine.notices ∧
          (endOperation (hitState s e p src origin)).engine.suspectDrop = (evaluate s e p origin).engine.suspectDrop :=
        ⟨(congrArg Engine.notices heng :), (congrArg Engine.suspectDrop heng :)⟩
      rw [hv.1, hv.2, evaluate_eq, if_neg (mt (turnsSuspect_iff s e p origin).1 h)]
      exact ⟨rfl, rfl⟩
  · rw [activeSet, numberSet_getLsbD _ hj, Nat.add_sub_cancel, List.getD_eq_getElem?_getD]
    cases ds[j]? with
    | none => rfl
    | some d => exact beq_eq_decide ..

end Sys2Proof.Machine
end

section
/-!
PROOF. Entries taken in turn by an engine operation (R53, R70, R147), the release, the close release, the closure marking and the close
finish (R143).
-/

namespace Sys2Proof.Machine

/-! ## The table after entries have been taken in turn -/

/-- An operation on one entry changes the entries of its meter alone, each into what `r` says. -/
def TakesInTurn (f : State → Entry → State) (r : Entry → Option Entry) : Prop :=
  (∀ (s : State) (e : Entry), (∀ x ∈ s.engine.table, x.meterId = e.meterId → x = e) →
    (f s e).engine.table = s.engine.table.filterMap fun x => if x.meterId = e.meterId then r x else some x) ∧
  ∀ x y, r x = some y → y.meterId = x.meterId

theorem TakesInTurn.foldl_table {f : State → Entry → State} {r : Entry → Option Entry} (hf : TakesInTurn f r) (l : List Entry) (s : State)
    (hl : (l.map (·.meterId)).Nodup) (hs : ∀ e ∈ l, ∀ x ∈ s.engine.table, x.meterId = e.meterId → x = e) :
    (l.foldl f s).engine.table = s.engine.table.filterMap fun x => if l.any (·.meterId == x.meterId) then r x else some x := by
  obtain ⟨hstep, hmeter⟩ := hf
  induction l generalizing s with
  | nil => simp
  | cons e l ih =>
    have htable := hstep s e (hs e (by simp))
    rw [List.map_cons, List.nodup_cons] at hl
    obtain ⟨he, hl⟩ := hl
    have hfresh (m : MeterId) (hm : m = e.meterId) : l.any (·.meterId == m) = false := by
      rw [List.any_eq_false]
      intro x hx hxm
      exact he (hm ▸ beq_iff_eq.1 hxm ▸ List.mem_map_of_mem hx)
    rw [List.foldl_cons, ih (f s e) hl ?_, htable, List.filterMap_filterMap]
    · refine List.filterMap_congr fun x hx => ?_
      rw [List.any_cons]
      by_cases hx : x.meterId = e.meterId
      · rw [if_pos hx, beq_iff_eq.2 hx.symm, Bool.true_or, if_pos rfl]
        cases hr : r x with
        | none => rfl
        | some y =>
          rw [Option.bind_some, hfresh _ ((hmeter x y hr).trans hx)]
          rfl
      · rw [if_neg hx, Option.bind_some, beq_eq_false_iff_ne.2 (Ne.symm hx), Bool.false_or]
    · intro e' he' y hy hye
      rw [htable, List.mem_filterMap] at hy
      obtain ⟨x, hx, hxy⟩ := hy
      split at hxy
      · next hxe =>
        refine absurd ?_ he
        rw [← hxe, ← hmeter x y hxy, hye]
        exact List.mem_map_of_mem he'
      · obtain rfl : x = y := Option.some.inj hxy
        exact hs e' (by simp [he']) x hx hye

/-- The entries of the table that `p` picks, taken in turn: each becomes what `r` says. -/
theorem TakesInTurn.foldl_filter {f : State → Entry → State} {r : Entry → Option Entry} (hf : TakesInTurn f r) (p : Entry → Bool) (s : State)
    (h : (s.engine.table.map (·.meterId)).Nodup) : ((s.engine.table.filter p).foldl f s).engine.table =
      s.engine.table.filterMap fun x => if p x then r x else some x := by
  have hsame : ∀ e ∈ s.engine.table.filter p, ∀ x ∈ s.engine.table, x.meterId = e.meterId → x = e :=
    fun e he x hx hm => List.inj_on_of_nodup_map h hx (List.mem_of_mem_filter he) hm
  rw [hf.foldl_table _ s (h.sublist (List.filter_sublist.map _)) hsame]
  refine List.filterMap_congr fun x hx => if_congr ?_ rfl rfl
  rw [List.any_eq_true]
  refine ⟨fun ⟨e, he, hm⟩ => ?_, fun hp => ⟨x, List.mem_filter.2 ⟨hx, hp⟩, beq_self_eq_true _⟩⟩
  rw [hsame e he x hx (beq_iff_eq.1 hm).symm]
  exact (List.mem_filter.1 he).2

/-- A changed entry put in the place of the old one (R74). -/
theorem replaceEntry_filterMap {g : Engine} {e : Entry} (c : Entry → Entry) (h : ∀ x ∈ g.table, x.meterId = e.meterId → x = e) :
    (g.replaceEntry e (c e)).table = g.table.filterMap fun x => if x.meterId = e.meterId then some (c x) else some x := by
  rw [Engine.replaceEntry, ← List.filterMap_eq_map]
  refine List.filterMap_congr fun x hx => ?_
  by_cases hm : x.meterId = e.meterId
  · rw [if_pos hm, h x hx hm]
    exact congrArg some (if_pos rfl)
  · rw [if_neg hm]
    exact congrArg some (if_neg hm)

theorem dropEntry_filterMap (g : Engine) (e : Entry) :
    (g.dropEntry e).table = g.table.filterMap fun x => if x.meterId = e.meterId then none else some x := by
  rw [Engine.dropEntry, ← List.filterMap_eq_filter]
  refine List.filterMap_congr fun x _ => ?_
  by_cases hm : x.meterId = e.meterId <;> simp [Option.guard, hm]

theorem giveKept_engine (s : State) (e : Entry) : (giveKept s e).engine = s.engine := by rw [giveKept_frame]

/-! ## What an operation on entries keeps -/

/-- Of the state only the table, the HANDOVER items, the tracker's figures, the appends and the tags have changed. -/
def EntryFrame (s t : State) : Prop :=
  t = { s with
    engine := { s.engine with
      table := t.engine.table
      handing := t.engine.handing }
    tracker := { s.tracker with
      rows := t.tracker.rows
      revisit := t.tracker.revisit }
    store := t.store
    startup := t.startup
    nextTag := t.nextTag }

theorem EntryFrame.refl (s : State) : EntryFrame s s := rfl

theorem EntryFrame.trans {s t u : State} (h : EntryFrame s t) (h' : EntryFrame t u) : EntryFrame s u := by
  unfold EntryFrame at *
  rw [h', h]

theorem EntryFrame.foldl {f : State → Entry → State} (hf : ∀ s e, EntryFrame s (f s e)) (l : List Entry) (s : State) :
    EntryFrame s (l.foldl f s) := by
  induction l generalizing s with
  | nil => exact .refl s
  | cons e l ih => exact (hf s e).trans (ih (f s e))

theorem giveKept_entryFrame (s : State) (e : Entry) : EntryFrame s (giveKept s e) := by
  have h := giveKept_frame s e
  generalize giveKept s e = t at h ⊢
  rw [h]
  rfl

theorem changeEntry_entryFrame (s : State) (e n : Entry) : EntryFrame s (changeEntry s e n) := rfl

theorem removeEntry_entryFrame (s : State) (e : Entry) : EntryFrame s (removeEntry s e) := by
  rw [removeEntry_frame]
  rfl

/-! ## A release (R53) -/

/-- What a release makes of an entry of its share. -/
def releasedEntry (e : Entry) : Option Entry :=
  match e.status with
  | .read | .late => some { e with status := .handing, kept := none }
  | .unread | .elsewhere | .missed => none
  | .handing => some e

theorem handEntry_eq (s : State) (n : Nat) (e : Entry) : handEntry s n e = { s with
    engine := { s.engine with
      table := (s.engine.replaceEntry e { e with status := .handing, kept := none }).table
      handing := s.engine.handing ++ [⟨s.nextTag, e.meterId, n⟩] }
    tracker := (s.tracker.forget e).learn { e with status := .handing, kept := none }
    store := (giveKept s e).store
    startup := (giveKept s e).startup
    nextTag := s.nextTag + 1 } := by
  unfold handEntry
  rw [giveKept_frame]
  rfl

theorem releaseEntry_handed {n : Nat} {s : State} {e : Entry} (h : e.status = .read ∨ e.status = .late) :
    releaseEntry n s e = handEntry s n e := by
  unfold releaseEntry
  rcases h with h | h <;> rw [h]

theorem releaseEntry_removed {n : Nat} {s : State} {e : Entry} (h : e.status = .unread ∨ e.status = .elsewhere ∨ e.status = .missed) :
    releaseEntry n s e = removeEntry s e := by
  unfold releaseEntry
  rcases h with h | h | h <;> rw [h]

theorem releaseEntry_handing {n : Nat} {s : State} {e : Entry} (h : e.status = .handing) : releaseEntry n s e = s := by
  unfold releaseEntry
  rw [h]

/-- The three cases of a release. -/
theorem Status.release_cases (x : Status) :
    (x = .read ∨ x = .late) ∨ (x = .unread ∨ x = .elsewhere ∨ x = .missed) ∨ x = .handing := by
  cases x <;> decide

theorem releaseEntry_entryFrame (n : Nat) (s : State) (e : Entry) : EntryFrame s (releaseEntry n s e) := by
  rcases e.status.release_cases with h | h | h
  · rw [releaseEntry_handed h, handEntry_eq]
    rfl
  · rw [releaseEntry_removed h]
    exact removeEntry_entryFrame s e
  · rw [releaseEntry_handing h]
    exact .refl s

theorem releaseEntry_takes (n : Nat) : TakesInTurn (releaseEntry n) releasedEntry := by
  refine ⟨fun s e hs => ?_, fun x y hy => ?_⟩
  · rcases e.status.release_cases with h | h | h
    · rw [releaseEntry_handed h, handEntry_eq]
      refine (replaceEntry_filterMap (fun x => { x with status := .handing, kept := none }) hs).trans ?_
      refine List.filterMap_congr fun x hx => ite_congr rfl (fun hm => ?_) fun _ => rfl
      rw [hs x hx hm, releasedEntry]
      rcases h with h | h <;> rw [h]
    · rw [releaseEntry_removed h, removeEntry_frame]
      refine (dropEntry_filterMap s.engine e).trans ?_
      refine List.filterMap_congr fun x hx => ite_congr rfl (fun hm => ?_) fun _ => rfl
      rw [hs x hx hm, releasedEntry]
      rcases h with h | h | h <;> rw [h]
    · rw [releaseEntry_handing h]
      refine (List.filterMap_some.symm).trans ?_
      refine List.filterMap_congr fun x hx => ?_
      by_cases hm : x.meterId = e.meterId
      · rw [if_pos hm, hs x hx hm, releasedEntry, h]
      · rw [if_neg hm]
  · unfold releasedEntry at hy
    rcases x.status.release_cases with h | h | h
    · rcases h with h | h <;> rw [h] at hy <;> cases hy <;> rfl
    · rcases h with h | h | h <;> rw [h] at hy <;> cases hy
    · rw [h] at hy
      cases hy
      rfl

/-- The kept records of the entries that leave or turn HANDING, in table order (R70). -/
theorem foldl_releaseEntry_gives (n : Nat) (l : List Entry) (s : State) :
    let kept := (l.filter (·.status != .handing)).filterMap (·.kept)
    (l.foldl (releaseEntry n) s).store = (kept.foldl appendOrDrop s).store ∧
    (l.foldl (releaseEntry n) s).startup = (kept.foldl appendOrDrop s).startup := by
  have hskip : l.foldl (releaseEntry n) s = (l.filter (·.status != .handing)).foldl (releaseEntry n) s := by
    rw [List.foldl_filter]
    congr 1
    funext u e
    by_cases h : e.status = .handing
    · rw [releaseEntry_handing h, h]
      rfl
    · rw [if_pos (bne_iff_ne.2 h)]
  rw [hskip]
  refine foldl_gives _ (fun u e he => ?_) s s ⟨rfl, rfl⟩
  rcases e.status.release_cases with h | h | h
  · rw [releaseEntry_handed h, handEntry_eq]
    exact ⟨rfl, rfl⟩
  · rw [releaseEntry_removed h, removeEntry_frame]
    exact ⟨rfl, rfl⟩
  · exact absurd h (bne_iff_ne.1 (List.mem_filter.1 he).2)

/-- A release removes the entry. -/
def Entry.leaves (e : Entry) : Bool := e.status == .unread || e.status == .elsewhere || e.status == .missed

/-- A release hands the entry over. -/
def Entry.isHanded (e : Entry) : Bool := e.status == .read || e.status == .late

/-- The HANDOVERs of the entries removed go, and those of the entries handed come after the ones that stay (R53, R54). -/
theorem foldl_releaseEntry_handing (n : Nat) (l : List Entry) (s : State) (hl : (l.map (·.meterId)).Nodup) :
    let removed := l.filter Entry.leaves
    let handed := l.filter Entry.isHanded
    (l.foldl (releaseEntry n) s).engine.handing = (s.engine.handing.filter fun i => !removed.any (·.meterId == i.meterId)) ++
      handed.zipIdx.map (fun x => ⟨s.nextTag + x.2, x.1.meterId, n⟩) ∧
    (l.foldl (releaseEntry n) s).nextTag = s.nextTag + handed.length := by
  induction l generalizing s with
  | nil => simp
  | cons e l ih =>
    rw [List.map_cons, List.nodup_cons] at hl
    obtain ⟨he, hl⟩ := hl
    obtain ⟨h1, h2⟩ := ih (releaseEntry n s e) hl
    dsimp only at h1 h2 ⊢
    rw [List.foldl_cons, h1, h2]
    rcases e.status.release_cases with h | h | h
    · have hfresh : ((l.filter Entry.leaves).any (·.meterId == e.meterId)) = false := by
        rw [List.any_eq_false]
        intro x hx hm
        exact he (beq_iff_eq.1 hm ▸ List.mem_map_of_mem (List.mem_of_mem_filter hx))
      have hh : e.isHanded = true := by unfold Entry.isHanded; rcases h with h | h <;> rw [h] <;> rfl
      have hr : ¬ e.leaves = true := by unfold Entry.leaves; rcases h with h | h <;> rw [h] <;> decide
      rw [releaseEntry_handed h, handEntry_eq, List.filter_cons_of_pos hh, List.filter_cons_of_neg hr]
      dsimp only
      rw [List.filter_append, List.filter_singleton]
      dsimp only
      rw [hfresh, Bool.not_false, cond_true, List.zipIdx_cons, List.map_cons, List.length_cons, List.append_assoc,
        List.zipIdx_succ, List.map_map]
      refine ⟨congrArg _ (congrArg _ (List.map_congr_left fun x _ => ?_)), by omega⟩
      simp only [Function.comp, Nat.add_assoc, Nat.add_comm 1]
    · have hh : ¬ e.isHanded = true := by unfold Entry.isHanded; rcases h with h | h | h <;> rw [h] <;> decide
      have hr : e.leaves = true := by unfold Entry.leaves; rcases h with h | h | h <;> rw [h] <;> rfl
      rw [releaseEntry_removed h, removeEntry_frame, List.filter_cons_of_neg hh, List.filter_cons_of_pos hr]
      dsimp only [Engine.dropEntry]
      rw [List.filter_filter]
      refine ⟨congrArg (· ++ _) (List.filter_congr fun i _ => ?_), rfl⟩
      rw [List.any_cons, Bool.not_or, Bool.and_comm, bne, Bool.beq_comm]
    · have hh : ¬ e.isHanded = true := by rw [Entry.isHanded, h]; decide
      have hr : ¬ e.leaves = true := by rw [Entry.leaves, h]; decide
      rw [releaseEntry_handing h, List.filter_cons_of_neg hh, List.filter_cons_of_neg hr]
      exact ⟨rfl, rfl⟩

/-! ## Removals and marks in turn (R143, R147) -/

theorem foldl_forget_frame (l : List Entry) (t : Tracker) : l.foldl Tracker.forget t = { t with
    rows := (l.foldl Tracker.forget t).rows
    revisit := (l.foldl Tracker.forget t).revisit } := by
  induction l generalizing t with
  | nil => rfl
  | cons e l ih => exact ih (t.forget e)

theorem missEntry_takes : TakesInTurn missEntry fun e => some { e with status := .missed } :=
  ⟨fun s _ hs => replaceEntry_filterMap (g := s.engine) (fun x => { x with status := .missed }) hs, fun _ _ hy => by cases hy; rfl⟩

theorem foldl_missEntry_frame (l : List Entry) (s : State) : l.foldl missEntry s = { s with
    engine := { s.engine with table := (l.foldl missEntry s).engine.table }
    tracker := { s.tracker with
      rows := (l.foldl missEntry s).tracker.rows
      revisit := (l.foldl missEntry s).tracker.revisit } } := by
  induction l generalizing s with
  | nil => rfl
  | cons e l ih => exact ih (missEntry s e)

/-! ## The close finish (R143) -/

theorem closeWorkLeft_iff (g : Engine) : g.closeWorkLeft = true ↔
    .close ∈ g.releases ∨ g.op = .closeRelease ∨ (∃ n, .closure n ∈ g.requests) ∨ ∃ n, g.op = .closure n := by
  have hreq : (g.requests.any fun r => match r with | .closure _ => true | _ => false) = true ↔ ∃ n, .closure n ∈ g.requests := by
    rw [List.any_eq_true]
    constructor
    · rintro ⟨r, hr, hm⟩
      cases r with
      | closure n => exact ⟨n, hr⟩
      | _ => cases hm
    · exact fun ⟨n, hn⟩ => ⟨_, hn, rfl⟩
  have hop : (match g.op with | .closure _ => true | _ => false) = true ↔ ∃ n, g.op = .closure n := by
    cases g.op <;> simp
  have hdef : g.closeWorkLeft = (g.releases.contains .close || g.op == .closeRelease ||
    g.requests.any (fun r => match r with | .closure _ => true | _ => false) || (match g.op with | .closure _ => true | _ => false)) := rfl
  rw [hdef, Bool.or_eq_true, Bool.or_eq_true, Bool.or_eq_true, hreq, hop, List.contains_iff_mem, beq_iff_eq, or_assoc, or_assoc]

/-- The close finish meets no packet operation's waiting reading otherwise than the state before it. -/
theorem raceReading_closed (u : State) (st : Store) (b : Bool) (run : Option (BitVec 16)) (r : Option RunState) :
    raceReading { u with
      engine := { u.engine with
        closeWaits := b
        currentRun := run
        runState := r }
      store := st } = { raceReading u with
    engine := { (raceReading u).engine with
      closeWaits := b
      currentRun := run
      runState := r }
    store := st } := by
  by_cases h : ∃ item, u.engine.op = .packet item none
  · obtain ⟨item, h⟩ := h
    rw [raceReading_of_waiting h]
    exact raceReading_of_waiting h
  · rw [raceReading_of_taken fun item hi => h ⟨item, hi⟩]
    exact raceReading_of_taken fun item hi => h ⟨item, hi⟩

/-- The end of a flush in CLOSING makes the station READY; its recomputation finds no share taken on (R143). -/
theorem flushEnded_closing {u : State} (hlaw : RunLaw u) (hrun : u.engine.runState = some .closing) (hw : u.engine.closeWaits = true)
    (hs : u.dock.session.state ≠ .starting) : flushEnded u = remap { raceReading u with
      store := { u.store with flushing := false }
      engine := { (raceReading u).engine with
        closeWaits := false
        currentRun := none
        runState := some .ready } } := by
  have hnot : u.isRunning = false := by rw [State.isRunning, hrun]; rfl
  have hfinish : finishClose { u with store := { u.store with flushing := false } } = remap { raceReading u with
      store := { u.store with flushing := false }
      engine := { (raceReading u).engine with
        closeWaits := false
        currentRun := none
        runState := some .ready } } := by
    refine (recompute_quiet (s := { u with
      store := { u.store with flushing := false }
      engine := { u.engine with
        closeWaits := false
        currentRun := none
        runState := some .ready } }) rfl (hlaw.shares hnot)).trans ?_
    exact congrArg remap (raceReading_closed u { u.store with flushing := false } false none (some .ready))
  have hcond : (u.engine.closeWaits && u.engine.runState == some .closing) = true := by rw [hw, hrun]; rfl
  have hkept : (remap { raceReading u with
      store := { u.store with flushing := false }
      engine := { (raceReading u).engine with
        closeWaits := false
        currentRun := none
        runState := some .ready } }).dock = u.dock := raceReading_dock u
  unfold flushEnded
  dsimp only
  rw [if_pos hcond, hfinish, hkept, if_neg hs]

/-! ## The operations' ends (8.4, 8.6, 8.7) -/

theorem exec_release {s : State} {n : Nat} (hp : s.startup.powered = true) (h : s.engine.op = .release n) :
    exec .release s = .next (settle (releaseEnds s n)) := by
  refine (?_ : exec .release s = _).trans (act_next (f := fun s => match s.engine.op with
    | .release share => some (releaseEnds s share)
    | _ => none) hp (by rw [h]))
  rfl

theorem exec_closeRelease {s : State} (hp : s.startup.powered = true) (h : s.engine.op = .closeRelease) :
    exec .closeRelease s = .next (settle (closeReleaseEnds s)) := by
  refine (?_ : exec .closeRelease s = _).trans (act_next (f := fun s => match s.engine.op with
    | .closeRelease => some (closeReleaseEnds s)
    | _ => none) hp (by rw [h]))
  rfl

theorem exec_closureMarking {s : State} {n : Nat} (hp : s.startup.powered = true) (h : s.engine.op = .closure n) :
    exec .closureMarking s = .next (settle (closureEnds s n)) := by
  refine (?_ : exec .closureMarking s = _).trans (act_next (f := fun s => match s.engine.op with
    | .closure segment => some (closureEnds s segment)
    | _ => none) hp (by rw [h]))
  rfl

/-- Appends alone, where what appends change is as a fold of them leaves it. -/
theorem onlyAppends_of_foldl {s t : State} {l : List RecordBody} (hstore : t.store = (l.foldl appendOrDrop s).store)
    (hstartup : t.startup = (l.foldl appendOrDrop s).startup) : OnlyAppends s t := by
  have h := (onlyAppends_of_apart (foldl_appendOrDrop_apart l s)).1
  unfold OnlyAppends at h ⊢
  rw [hstore, hstartup]
  exact h

/-- The state a release leaves (R53). -/
theorem releaseEnds_eq (s : State) (n : Nat) :
    let u := (s.engine.entriesOf n).foldl (releaseEntry n) s
    releaseEnds s n = { s with
      engine := { s.engine with
        op := .idle
        untracked := s.engine.untracked.filter (·.1 != n)
        table := u.engine.table
        handing := u.engine.handing }
      tracker := { s.tracker with
        rows := u.tracker.rows
        revisit := u.tracker.revisit }
      store := u.store
      startup := u.startup
      nextTag := u.nextTag } := by
  have h := EntryFrame.foldl (releaseEntry_entryFrame n) (s.engine.entriesOf n) s
  unfold releaseEnds
  generalize (s.engine.entriesOf n).foldl (releaseEntry n) s = u at h ⊢
  unfold EntryFrame at h
  rw [h]
  rfl

/-- The table after a release: entries removed and entries handed (R53). -/
theorem release_table (n : Nat) (table : List Entry) :
    (table.filterMap fun x => if x.origin == .adopted n then releasedEntry x else some x) =
      (table.filter fun e => e.origin != .adopted n || e.status == .read || e.status == .late || e.status == .handing).map (fun e =>
        if e.origin = .adopted n ∧ (e.status = .read ∨ e.status = .late) then { e with
          status := .handing
          kept := none } else e) := by
  rw [← filterMap_ite]
  refine List.filterMap_congr fun x _ => ?_
  by_cases ho : x.origin = .adopted n
  · rcases x.status.release_cases with h | h | h
    · rcases h with h | h <;> simp [ho, h, releasedEntry]
    · rcases h with h | h | h <;> simp [ho, h, releasedEntry]
    · simp [ho, h, releasedEntry]
  · simp [ho]

theorem release_handing {s : State} {n : Nat} (hm : (s.engine.table.map (·.meterId)).Nodup) :
    let t := (s.engine.entriesOf n).foldl (releaseEntry n) s
    let removed := s.engine.table.filter fun e => e.origin == .adopted n &&
      (e.status == .unread || e.status == .elsewhere || e.status == .missed)
    let handed := s.engine.table.filter fun e => e.origin == .adopted n && (e.status == .read || e.status == .late)
    t.engine.handing = (s.engine.handing.filter fun i => !removed.any (·.meterId == i.meterId)) ++
      handed.zipIdx.map (fun x => ⟨s.nextTag + x.2, x.1.meterId, n⟩) ∧
    t.nextTag = s.nextTag + handed.length := by
  have h := foldl_releaseEntry_handing n (s.engine.entriesOf n) s (hm.sublist (List.filter_sublist.map _))
  have hand (p : Entry → Bool) : (s.engine.entriesOf n).filter p = s.engine.table.filter fun e => e.origin == .adopted n && p e := by
    rw [Engine.entriesOf, List.filter_filter]
    exact List.filter_congr fun e _ => Bool.and_comm ..
  dsimp only at h
  rw [hand, hand] at h
  exact h

/-- Settles O48: the entries taken in turn, each operation's end, and the close finish. -/
theorem releasesAndClosure : Obligations.ReleasesAndClosure := by
  unfold Obligations.ReleasesAndClosure
  refine ⟨fun s n hp h => ?_, fun s hp h => ?_, fun s n hp h => ?_, closeWorkLeft_iff, fun u => ?_, fun u hlaw hrun hw hs => ?_⟩
  · refine ⟨releaseEnds s n, exec_release hp h, ?_⟩
    rw [releaseEnds_eq]
    obtain ⟨hstore, hstartup⟩ := foldl_releaseEntry_gives n (s.engine.entriesOf n) s
    have hkept : (s.engine.entriesOf n).filter (·.status != .handing) =
        s.engine.table.filter fun e => e.origin == .adopted n && e.status != .handing := by
      rw [Engine.entriesOf, List.filter_filter]
      exact List.filter_congr fun e _ => Bool.and_comm ..
    rw [hkept] at hstore hstartup
    refine ⟨onlyAppends_of_foldl hstore hstartup, rfl, ⟨hstore, hstartup⟩, fun hm => ?_, fun hm => ⟨?_, fun e he ho hst => ?_⟩⟩
    · exact release_handing hm
    · exact ((releaseEntry_takes n).foldl_filter _ s hm).trans (release_table n s.engine.table)
    · rw [(release_handing hm).1]
      have hmem : e ∈ s.engine.table.filter fun e => e.origin == .adopted n && (e.status == .read || e.status == .late) :=
        List.mem_filter.2 ⟨he, by rcases hst with h | h <;> simp [ho, h]⟩
      obtain ⟨i, hi⟩ := List.mem_iff_getElem?.1 hmem
      exact ⟨⟨s.nextTag + i, e.meterId, n⟩, List.mem_append_right _ (List.mem_map.2 ⟨(e, i), List.mk_mem_zipIdx_iff_getElem?.2 hi, rfl⟩), rfl, rfl⟩
  · refine ⟨_, exec_closeRelease hp h, ?_⟩
    rw [foldl_removeEntry_frame, foldl_forget_frame]
    refine ⟨onlyAppends_of_foldl rfl rfl, rfl, ⟨rfl, rfl, rfl⟩, fun e he => ?_, fun hm => ?_⟩
    · obtain ⟨he, hnot⟩ := List.mem_filter.1 he
      refine Decidable.byContradiction fun hc => ?_
      have hin : e ∈ s.engine.table.filter fun e => e.origin != .own || e.status == .handing :=
        List.mem_filter.2 ⟨he, by simpa [Decidable.not_and_iff_or_not, imp_iff_not_or] using hc⟩
      rw [List.any_eq_true (p := fun x : Entry => x.meterId == e.meterId) |>.2 ⟨e, hin, beq_self_eq_true e.meterId⟩] at hnot
      cases hnot
    · refine (filter_not_any_meter hm _).trans (List.filter_congr fun e _ => ?_)
      rw [Bool.not_or, bne, Bool.not_not, bne]
  · refine ⟨_, exec_closureMarking hp h, ?_⟩
    have htable := fun hm => missEntry_takes.foldl_filter (fun e => e.segment == n && e.status == .unread) s hm
    rw [foldl_missEntry_frame]
    refine ⟨rfl, fun hm => (htable hm).trans ?_⟩
    rw [← List.filterMap_eq_map]
    refine List.filterMap_congr fun x _ => ?_
    by_cases hx : x.segment = n ∧ x.status = .unread
    · simp [hx.1, hx.2]
    · have : ¬ (x.segment == n && x.status == .unread) = true := by simpa using hx
      simp [hx, this]
  · rfl
  · rw [flushEnded_closing hlaw hrun hw hs, remap_eq]
    have hpres : (raceReading u).presence = u.presence := raceReading_presence u
    dsimp only
    rw [hpres]

end Sys2Proof.Machine
end

section
/-!
PROOF. The run reset (R71), the entry to RUNNING (R139), the rebuild scan over the log (R140, R141, R158), and the effect of one record.
-/

namespace Sys2Proof.Machine

/-! ## A recomputation that only takes shares on -/

/-- In RUNNING, every share is this station's own, NOT MINE, or QUEUED with this station as its owner. -/
def Joining (s : State) : Prop :=
  s.isRunning = true ∧ ∀ i, s.presence.shares.getD i .notMine = .own ∨ s.presence.shares.getD i .notMine = .notMine ∨
    (s.presence.shares.getD i .notMine = .queued ∧ s.presence.owners.getD i s.slot = s.slot)

theorem Joining.compare {s : State} (h : Joining s) (n : Nat) : Joining (compareShare s n) ∧
    compareShare s n = { s with presence := { s.presence with
      shares := (compareShare s n).presence.shares
      adoptQueue := (compareShare s n).presence.adoptQueue } } := by
  obtain ⟨hrun, hshares⟩ := h
  have hsame (hx : compareShare s n = s) : Joining (compareShare s n) ∧
      compareShare s n = { s with presence := { s.presence with
        shares := (compareShare s n).presence.shares
        adoptQueue := (compareShare s n).presence.adoptQueue } } := by
    rw [hx]
    exact ⟨⟨hrun, hshares⟩, rfl⟩
  rcases hshares (n - 1) with hx | hx | ⟨hx, ho⟩
  · exact hsame (compareShare_same (.inl hx))
  · by_cases hm : s.ownerOf n = s.slot ∧ s.isRunning = true
    · rw [compareShare_notMine hx hm]
      refine ⟨⟨hrun, fun i => ?_⟩, rfl⟩
      change (s.presence.shares.set (n - 1) .queued).getD i .notMine = .own ∨
        (s.presence.shares.set (n - 1) .queued).getD i .notMine = .notMine ∨
        ((s.presence.shares.set (n - 1) .queued).getD i .notMine = .queued ∧ s.presence.owners.getD i s.slot = s.slot)
      by_cases hi : n - 1 = i
      · subst hi
        by_cases hl : n - 1 < s.presence.shares.length
        · exact .inr (.inr ⟨by simp [List.getD_eq_getElem?_getD, hl], hm.1⟩)
        · exact .inr (.inl (by simp [List.getD_eq_getElem?_getD, hl]))
      · have hget : (s.presence.shares.set (n - 1) .queued).getD i .notMine = s.presence.shares.getD i .notMine := by
          simp [List.getD_eq_getElem?_getD, List.getElem?_set_ne hi]
        rw [hget]
        exact hshares i
    · exact hsame (compareShare_same (.inr (.inl ⟨hx, hm⟩)))
  · exact hsame (compareShare_same (.inr (.inr ⟨.inl hx, ho, hrun⟩)))

/-- A recomputation in RUNNING before which no share was taken on changes the presence alone (R45). -/
theorem recompute_joining {s : State} (hrun : s.isRunning = true) (hop : ∀ item, s.engine.op ≠ .packet item none)
    (hs : ∀ x ∈ s.presence.shares, x = .own ∨ x = .notMine) :
    recompute s = { s with presence := { s.presence with
      owners := (recompute s).presence.owners
      shares := (recompute s).presence.shares
      adoptQueue := (recompute s).presence.adoptQueue } } := by
  have hfold (l : List Nat) (u : State) (hu : Joining u) : l.foldl compareShare u = { u with presence := { u.presence with
      shares := (l.foldl compareShare u).presence.shares
      adoptQueue := (l.foldl compareShare u).presence.adoptQueue } } := by
    induction l generalizing u with
    | nil => rfl
    | cons n l ih =>
      obtain ⟨hj, hn⟩ := hu.compare n
      have h := ih _ hj
      rw [List.foldl_cons]
      generalize l.foldl compareShare (compareShare u n) = w at h ⊢
      rw [h, hn]
  have hj : Joining (remap s) := by
    refine ⟨hrun, fun i => ?_⟩
    by_cases hi : i < s.presence.shares.length
    · have : s.presence.shares.getD i .notMine = s.presence.shares[i] := List.getD_eq_getElem _ _ hi
      exact (hs _ (List.getElem_mem hi)).imp (this.trans ·) fun h => .inl (this.trans h)
    · exact .inr (.inl (List.getD_eq_default _ _ (Nat.not_lt.1 hi)))
  have h := hfold s.allShares (remap s) hj
  have hdef : recompute s = s.allShares.foldl compareShare (remap s) := by
    rw [recompute, raceReading_of_taken hop]
  rw [hdef]
  generalize s.allShares.foldl compareShare (remap s) = w at h ⊢
  rw [h]
  rfl

/-! ## The next slot of the log (R158) -/

theorem mem_logOrder {rows : List SectorRow} {q : Nat} {r : SectorRow} :
    (q, r) ∈ logOrder rows ↔ r ∈ rows ∧ r.seq = some q ∧ r.state.inLog = true := by
  rw [logOrder, mem_sortRows, List.mem_filter, and_assoc]
  exact and_congr_right fun _ => and_comm

/-- A slot of the log, of a sector with sequence `q` in the list. -/
def HasSlot (head : Option (Nat × Nat)) (l : List (Nat × SectorRow)) (n q k : Nat) : Prop :=
  (∃ r, (q, r) ∈ l ∧ r.sector = n) ∧ 1 ≤ k ∧ k < slotLimit head n

/-- A slot lies after a position. -/
def IsAfter (pos : LogPos) (q k : Nat) : Prop := pos.sector < q ∨ (q = pos.sector ∧ pos.slot < k)

/-- The slot that the scan tries in the sector of sequence `q`. -/
def triedSlot (pos : LogPos) (q : Nat) : Nat := if q = pos.sector then pos.slot + 1 else 1

theorem nextSlotIn_cons (head : Option (Nat × Nat)) (pos : LogPos) (q : Nat) (r : SectorRow) (l : List (Nat × SectorRow)) :
    nextSlotIn head pos ((q, r) :: l) =
      if pos.sector ≤ q ∧ triedSlot pos q < slotLimit head r.sector then some (⟨q, triedSlot pos q⟩, r.sector)
      else nextSlotIn head pos l := rfl

theorem triedSlot_after {pos : LogPos} {q : Nat} (h : pos.sector ≤ q) : 1 ≤ triedSlot pos q ∧ IsAfter pos q (triedSlot pos q) := by
  unfold IsAfter triedSlot
  split <;> omega

/-- It is the least of the sector after the position. -/
theorem nextSlot_least {pos : LogPos} {q k : Nat} (hk : 1 ≤ k) (h : IsAfter pos q k) : pos.sector ≤ q ∧ triedSlot pos q ≤ k := by
  unfold triedSlot
  rcases h with h | ⟨rfl, h⟩
  · rw [if_neg (by omega)]
    exact ⟨by omega, hk⟩
  · rw [if_pos rfl]
    exact ⟨le_rfl, h⟩

theorem nextSlotIn_some {head : Option (Nat × Nat)} {pos : LogPos} {l : List (Nat × SectorRow)} (hl : l.Pairwise fun a b => a.1 ≤ b.1)
    {p : LogPos} {n : Nat} (h : nextSlotIn head pos l = some (p, n)) : HasSlot head l n p.sector p.slot ∧ IsAfter pos p.sector p.slot ∧
      ∀ m q k, HasSlot head l m q k → IsAfter pos q k → p.sector < q ∨ (p.sector = q ∧ p.slot ≤ k) := by
  induction l with
  | nil => cases h
  | cons x l ih =>
    obtain ⟨q, r⟩ := x
    obtain ⟨hle, hl⟩ := List.pairwise_cons.1 hl
    rw [nextSlotIn_cons] at h
    by_cases hc : pos.sector ≤ q ∧ triedSlot pos q < slotLimit head r.sector
    · rw [if_pos hc] at h
      cases h
      obtain ⟨h1, hafter⟩ := triedSlot_after hc.1
      refine ⟨⟨⟨r, by simp, rfl⟩, h1, hc.2⟩, hafter, fun m q' k hs ha => ?_⟩
      · obtain ⟨⟨r', hr', -⟩, h1, -⟩ := hs
        obtain ⟨-, hleast⟩ := nextSlot_least h1 ha
        have hq : q ≤ q' := by
          rcases List.mem_cons.1 hr' with h | h
          · cases h
            exact le_rfl
          · exact hle _ h
        rcases Nat.lt_or_eq_of_le hq with hlt | rfl
        · exact .inl hlt
        · exact .inr ⟨rfl, hleast⟩
    · rw [if_neg hc] at h
      obtain ⟨⟨⟨r', hr', hn⟩, hk⟩, ha, hmin⟩ := ih hl h
      refine ⟨⟨⟨r', by simp [hr'], hn⟩, hk⟩, ha, fun m q' k hs ha => ?_⟩
      obtain ⟨⟨r', hr', hm⟩, h1, hlim⟩ := hs
      rcases List.mem_cons.1 hr' with h | h
      · cases h
        obtain ⟨hsec, hleast⟩ := nextSlot_least h1 ha
        exact absurd ⟨hsec, by rw [hm]; omega⟩ hc
      · exact hmin m q' k ⟨⟨r', h, hm⟩, h1, hlim⟩ ha

theorem nextSlotIn_none {head : Option (Nat × Nat)} {pos : LogPos} {l : List (Nat × SectorRow)} (h : nextSlotIn head pos l = none)
    {m q k : Nat} (hs : HasSlot head l m q k) : ¬ IsAfter pos q k := by
  intro ha
  obtain ⟨⟨r', hr', hm⟩, h1, hlim⟩ := hs
  obtain ⟨hsec, hleast⟩ := nextSlot_least h1 ha
  induction l with
  | nil => cases hr'
  | cons x l ih =>
    obtain ⟨q', r⟩ := x
    rw [nextSlotIn_cons] at h
    by_cases hc : pos.sector ≤ q' ∧ triedSlot pos q' < slotLimit head r.sector
    · rw [if_pos hc] at h
      cases h
    · rw [if_neg hc] at h
      rcases List.mem_cons.1 hr' with h' | h'
      · cases h'
        exact hc ⟨hsec, by rw [hm]; omega⟩
      · exact ih h h'

/-! ## The run reset (R71) -/

theorem resetEntry_eq (s : State) (e : Entry) : resetEntry s e = { s with
    engine := { s.engine with table := (s.engine.replaceEntry e { e with status := .unread, lastHeard := none, firstRead := none, kept := none }).table }
    tracker := (s.tracker.forget e).learn { e with status := .unread, lastHeard := none, firstRead := none, kept := none }
    store := (giveKept s e).store
    startup := (giveKept s e).startup } := by
  unfold resetEntry
  rw [giveKept_frame]
  rfl

theorem resetEntry_takes : TakesInTurn resetEntry fun e => some { e with
    status := .unread
    lastHeard := none
    firstRead := none
    kept := none } := by
  refine ⟨fun s e hs => ?_, fun _ _ hy => by cases hy; rfl⟩
  rw [resetEntry_eq]
  exact replaceEntry_filterMap (g := s.engine) (fun x => { x with status := .unread, lastHeard := none, firstRead := none, kept := none }) hs

theorem foldl_resetEntry_frame (l : List Entry) (s : State) : l.foldl resetEntry s = { s with
    engine := { s.engine with table := (l.foldl resetEntry s).engine.table }
    tracker := { s.tracker with
      rows := (l.foldl resetEntry s).tracker.rows
      revisit := (l.foldl resetEntry s).tracker.revisit }
    store := (l.foldl resetEntry s).store
    startup := (l.foldl resetEntry s).startup } := by
  induction l generalizing s with
  | nil => rfl
  | cons e l ih =>
    have h := ih (resetEntry s e)
    rw [List.foldl_cons]
    generalize l.foldl resetEntry (resetEntry s e) = w at h ⊢
    rw [h, resetEntry_eq]
    rfl

theorem resetTable_gives (s : State) : (resetTable s).store = ((s.engine.table.filterMap (·.kept)).foldl appendOrDrop s).store ∧
    (resetTable s).startup = ((s.engine.table.filterMap (·.kept)).foldl appendOrDrop s).startup :=
  foldl_gives s.engine.table (fun u e _ => by rw [resetEntry_eq]; exact ⟨rfl, rfl⟩) s s ⟨rfl, rfl⟩

theorem resetTable_table {s : State} (h : (s.engine.table.map (·.meterId)).Nodup) :
    (resetTable s).engine.table = s.engine.table.map fun e => { e with
      status := .unread
      lastHeard := none
      firstRead := none
      kept := none } := by
  have ht := resetEntry_takes.foldl_filter (fun _ => true) s h
  rw [List.filter_true] at ht
  exact ht.trans (List.filterMap_eq_map (f := fun e : Entry => { e with
    status := .unread
    lastHeard := none
    firstRead := none
    kept := none }) ▸ rfl)

/-! ## The entry to RUNNING (R41, R139, R141, R149) -/

/-- The state with which a recomputation enters RUNNING. -/
def runningState (u : State) (run : BitVec 16) : State :=
  { u with
    engine := { u.engine with
      op := .idle
      runState := some .running
      currentRun := some run
      openingRun := none }
    tracker := { u.tracker with
      watchdog := some u.now
      stale := true }
    presence := { u.presence with view := u.presence.view.map fun x => { x with presumed := some (u.now + 2000) } } }

theorem enterRunning_eq (u : State) (run : BitVec 16) : enterRunning (endOperation u) run = recompute (runningState u run) := rfl

/-- No share is taken on at the entry (8.1), so it changes the presence alone beyond what it sets. -/
theorem recompute_runningState {u : State} {run : BitVec 16} (hs : ∀ x ∈ u.presence.shares, x = .own ∨ x = .notMine) :
    recompute (runningState u run) = { runningState u run with presence := { (runningState u run).presence with
      owners := (recompute (runningState u run)).presence.owners
      shares := (recompute (runningState u run)).presence.shares
      adoptQueue := (recompute (runningState u run)).presence.adoptQueue } } :=
  recompute_joining rfl (fun _ h => nomatch h) hs

/-- The end of an operation and an append do not meet. -/
theorem appendOrDrop_endOperation (s : State) (b : RecordBody) :
    appendOrDrop (endOperation s) b = endOperation (appendOrDrop s b) := by
  have h1 := (onlyAppends_of_apart (appendOrDrop_apart (endOperation s) b)).2
  have h2 := (onlyAppends_of_apart (appendOrDrop_apart s b)).2
  obtain ⟨h3, h4⟩ := appendOrDrop_congr b (s := endOperation s) (t := s) ⟨rfl, rfl⟩
  rw [h1, h2, h3, h4]
  rfl

/-- A new run begins (R139): RUN MARK(open), RUNNING. -/
theorem newRunBegins_ready {s : State} {run : BitVec 16} (hrun : s.engine.runState = some .ready) (hopen : s.engine.openingRun = some run) :
    newRunBegins s = recompute (runningState (appendOrDrop s (runMarkRecord s true run)) run) := by
  unfold newRunBegins
  rw [hrun, hopen]
  dsimp only
  rw [appendOrDrop_endOperation, enterRunning_eq]

theorem rebuildEnds_rebuilding {u : State} (h : u.engine.runState = some .rebuilding) :
    rebuildEnds u = recompute (runningState u (u.engine.currentRun.getD 0)) :=
  (if_pos h).trans (enterRunning_eq u _)

theorem rebuildEnds_else {u : State} (h : u.engine.runState ≠ some .rebuilding) :
    rebuildEnds u = { u with engine := { u.engine with op := .idle } } :=
  if_neg h

/-! ## The rebuild scan (R140, R141) -/

theorem rebuildFrom_slot {u : State} {pos : LogPos} (last : Nat) (h : u.store.nextSlot pos ≠ none) :
    rebuildFrom u pos last = { u with engine := { u.engine with op := .rebuild pos last } } := by
  unfold rebuildFrom
  cases hn : u.store.nextSlot pos with
  | none => exact absurd hn h
  | some x => rfl

theorem rebuildFrom_end {u : State} {pos : LogPos} (last : Nat) (h : u.store.nextSlot pos = none) : rebuildFrom u pos last = rebuildEnds u := by
  unfold rebuildFrom
  rw [h]

theorem rebuildBegins_eq (u : State) (m : Interrupted) : rebuildBegins u m =
    if u.store.holdsAt m.pos m.number then rebuildFrom u m.pos m.number
    else match u.store.tail with
      | some r => rebuildFrom u ⟨r.pos.sector, r.pos.slot - 1⟩ 0
      | none => rebuildEnds u := rfl

theorem exec_runReset {s t : State} (hp : s.startup.powered = true) (h : runResetEnds s = some t) : exec .runReset s = .next (settle t) :=
  act_next hp h

theorem runResetEnds_new {s : State} (h : s.engine.op = .runReset) : runResetEnds s = some (newRunBegins (resetTable s)) := by
  unfold runResetEnds
  rw [h]

theorem runResetEnds_resume {s : State} {m : Interrupted} (h : s.engine.op = .resumeReset m) : runResetEnds s =
    some (if (resetTable s).engine.runState = some .rebuilding then rebuildBegins (resetTable s) m else endOperation (resetTable s)) := by
  unfold runResetEnds
  rw [h]

theorem exec_rebuildRead {s t : State} (hp : s.startup.powered = true) (h : logReadEnds s = some t) :
    exec .rebuildRead s = .next (settle t) :=
  act_next hp h

theorem logReadEnds_reader {s : State} {pos : LogPos} {last : Nat} (hs : s.store.serving = some (.rebuildRead true))
    (hop : s.engine.op = .rebuild pos last) :
    logReadEnds s = some (rebuildReadEnds { s with store := { s.store with serving := none } } pos last) := by
  unfold logReadEnds
  rw [hs, hop]

theorem logReadEnds_orphaned {s : State} (hs : s.store.serving = some (.rebuildRead false)) :
    logReadEnds s = some { s with store := { s.store with serving := none } } := by
  unfold logReadEnds
  rw [hs]

/-- What a walk whose last number is `last` accepts of a slot's bytes (R158). -/
def Accepts (bs : List Byte) (last : Nat) : Prop := bs ≠ List.replicate 32 0xFF ∧ crc16 bs = 0 ∧ last < fieldOf bs 0 4

theorem rebuildReadEnds_accepted {u : State} {pos p : LogPos} {n last : Nat} (h : u.store.nextSlot pos = some (p, n))
    (ha : Accepts (u.store.flash.readBytes (slotAddress n p.slot) 32) last) :
    let bs := u.store.flash.readBytes (slotAddress n p.slot) 32
    rebuildReadEnds u pos last = rebuildFrom (applyRecord u (recordOf p bs)) p (fieldOf bs 0 4) := by
  have hacc := (acceptedAt_eq u.store p n last).trans (if_pos ha)
  unfold rebuildReadEnds
  rw [h]
  dsimp only
  rw [hacc]
  rfl

theorem rebuildReadEnds_passed {u : State} {pos p : LogPos} {n last : Nat} (h : u.store.nextSlot pos = some (p, n))
    (ha : ¬ Accepts (u.store.flash.readBytes (slotAddress n p.slot) 32) last) : rebuildReadEnds u pos last = rebuildFrom u p last := by
  have hacc := (acceptedAt_eq u.store p n last).trans (if_neg ha)
  unfold rebuildReadEnds
  rw [h]
  dsimp only
  rw [hacc]

theorem rebuildReadEnds_end {u : State} {pos : LogPos} (last : Nat) (h : u.store.nextSlot pos = none) :
    rebuildReadEnds u pos last = rebuildEnds u := by
  unfold rebuildReadEnds
  rw [h]

/-! ## The effect of a record (R141) -/

theorem applyRecord_firstRead {s : State} {r : LogRecord} {e : Entry} (hl : s.engine.lookup r.meterId = some e) (hrun : r.run = s.runNumber)
    (hk : r.kind = 2) : applyRecord s r = changeEntry s e { e with
      status := if r.late then .late else .read
      lastHeard := some ⟨r.counter, r.reading, r.flags⟩
      firstRead := some r.number
      kept := none } := by
  unfold applyRecord
  rw [if_neg (not_not.2 hrun), hl, hk]
  rfl

theorem applyRecord_suspect {s : State} {r : LogRecord} {e : Entry} (hl : s.engine.lookup r.meterId = some e) (hrun : r.run = s.runNumber)
    (hk : r.kind = 4) : applyRecord s r = changeEntry s e { e with suspect := true } := by
  unfold applyRecord
  rw [if_neg (not_not.2 hrun), hl, hk]
  rfl

theorem applyRecord_other {s : State} {r : LogRecord} (hk : r.kind ≠ 2 ∧ r.kind ≠ 4) : applyRecord s r = s := by
  unfold applyRecord
  split
  · rfl
  · split
    · next h => exact absurd h hk.1
    · next h => exact absurd h hk.2
    · rfl

theorem applyRecord_outside {s : State} {r : LogRecord} (h : r.run ≠ s.runNumber ∨ s.engine.lookup r.meterId = none) : applyRecord s r = s := by
  unfold applyRecord
  by_cases hrun : r.run = s.runNumber
  · rw [if_neg (not_not.2 hrun), h.resolve_left (not_not.2 hrun)]
  · exact if_pos hrun

/-- The slots of the log, as the head bounds them (R158). -/
theorem hasSlot_logOrder (st : Store) (n q k : Nat) : HasSlot st.head (logOrder st.rows) n q k ↔
    (∃ r ∈ st.rows, r.sector = n ∧ r.seq = some q ∧ r.state.inLog = true) ∧ 1 ≤ k ∧ k < (match st.head with
      | some (m, slot) => if m = n then slot else 128
      | none => 128) := by
  have hlimit : slotLimit st.head n = match st.head with
      | some (m, slot) => if m = n then slot else 128
      | none => 128 := by
    cases st.head <;> rfl
  rw [← hlimit, HasSlot]
  refine and_congr_left fun _ => exists_congr fun r => ?_
  rw [mem_logOrder]
  exact ⟨fun ⟨⟨h1, h2, h3⟩, h4⟩ => ⟨h1, h4, h2, h3⟩, fun ⟨h1, h4, h2, h3⟩ => ⟨⟨h1, h2, h3⟩, h4⟩⟩

/-- Settles O49: the reset entry by entry, the entry to RUNNING, the scan slot by slot, and each record's effect. -/
theorem resetAndRebuild : Obligations.ResetAndRebuild := by
  unfold Obligations.ResetAndRebuild
  refine ⟨fun s => ?_, fun s run hlaw hp hop hrun hopen => ?_, fun s m hp hop => ⟨fun hr => ?_, fun hr => ?_⟩, fun s pos last hp hs hop => ⟨fun p n hn => ⟨fun ha => ?_, fun ha => ?_⟩, fun hn => ?_⟩,
    fun u pos last => ⟨fun h => rebuildFrom_slot last h, fun h => rebuildFrom_end last h⟩,
    fun u m => ⟨fun h => ?_, fun h ht => ?_, fun r h ht => ?_⟩, fun u => ⟨fun hr => ⟨?_, fun hlaw => ?_⟩, fun hr => rebuildEnds_else hr⟩,
    fun st pos => ?_, fun s r e hl hrun => ⟨fun hk => ?_, fun hk => ?_, fun h2 h4 => ?_⟩, fun s r h => ?_, fun s hp hs => ?_⟩
  · obtain ⟨hstore, hstartup⟩ := resetTable_gives s
    exact ⟨onlyAppends_of_foldl hstore hstartup, foldl_resetEntry_frame s.engine.table s, ⟨hstore, hstartup⟩, resetTable_table⟩
  · intro r u
    have hr : r = resetTable s := rfl
    have hframe := foldl_resetEntry_frame s.engine.table s
    rw [show s.engine.table.foldl resetEntry s = r from rfl] at hframe
    have hp' {α : Type} (f : State → α) := congrArg f hframe
    have hrec : runMarkRecord r true run = runMarkRecord s true run := by
      rw [hframe]
      rfl
    have hu : newRunBegins r = recompute (runningState u run) := by
      rw [newRunBegins_ready ((hp' fun s => s.engine.runState).trans hrun) ((hp' fun s => s.engine.openingRun).trans hopen), hrec]
      rfl
    have huf := (onlyAppends_of_apart (appendOrDrop_apart r (runMarkRecord s true run))).2
    have hpres : u.presence = s.presence := (congrArg State.presence huf).trans (hp' State.presence)
    have hnow : u.now = s.now := by
      obtain ⟨hstore, hstartup⟩ := resetTable_gives s
      have h1 : u.now = r.now :=
        (congrArg (fun s : State => s.startup.now) (appendOrDrop_apart r (runMarkRecord s true run)) :)
      have h2 : r.now = s.now := (congrArg (fun x : Startup => x.now) (onlyAppends_of_foldl hstore hstartup).2 :)
      exact h1.trans h2
    refine ⟨recompute (runningState u run), ?_, ?_⟩
    · rw [exec_runReset hp (runResetEnds_new hop), ← hu]
    · refine (recompute_runningState ?_).trans ?_
      · rw [hpres]
        exact hlaw.shares (by rw [State.isRunning, hrun]; rfl)
      · unfold runningState
        rw [hpres, hnow]
  · rw [exec_runReset hp (runResetEnds_resume hop), if_pos]
    rw [resetTable, foldl_resetEntry_frame]
    exact hr
  · rw [exec_runReset hp (runResetEnds_resume hop), if_neg]
    rw [resetTable, foldl_resetEntry_frame]
    exact hr
  · rw [exec_rebuildRead hp (logReadEnds_reader hs hop)]
    exact congrArg (fun t => Host.Outcome.next (settle t))
      (rebuildReadEnds_accepted (u := { s with store := { s.store with serving := none } }) hn ha)
  · rw [exec_rebuildRead hp (logReadEnds_reader hs hop)]
    exact congrArg (fun t => Host.Outcome.next (settle t))
      (rebuildReadEnds_passed (u := { s with store := { s.store with serving := none } }) hn ha)
  · rw [exec_rebuildRead hp (logReadEnds_reader hs hop)]
    exact congrArg (fun t => Host.Outcome.next (settle t))
      (rebuildReadEnds_end (u := { s with store := { s.store with serving := none } }) last hn)
  · rw [rebuildBegins_eq, h, if_pos rfl]
  · rw [rebuildBegins_eq, h, if_neg Bool.false_ne_true, ht]
  · rw [rebuildBegins_eq, h, if_neg Bool.false_ne_true, ht]
  · exact rebuildEnds_rebuilding hr
  · rw [rebuildEnds_rebuilding hr]
    have h := recompute_runningState (u := u) (run := u.engine.currentRun.getD 0) (hlaw.shares (by rw [State.isRunning, hr]; rfl))
    exact h.trans (congrArg (fun x => { runningState u (u.engine.currentRun.getD 0) with presence := x }) (congrArg State.presence h).symm)
  · refine ⟨fun p n h => ?_, fun h m q k hs => ?_⟩
    · obtain ⟨hs, ha, hmin⟩ := nextSlotIn_some (sortRows_sorted _) h
      exact ⟨(hasSlot_logOrder st n p.sector p.slot).1 hs, ha, fun m q k hs ha => hmin m q k ((hasSlot_logOrder st m q k).2 hs) ha⟩
    · exact nextSlotIn_none h ((hasSlot_logOrder st m q k).2 hs)
  · exact applyRecord_firstRead hl hrun hk
  · exact applyRecord_suspect hl hrun hk
  · exact applyRecord_other ⟨h2, h4⟩
  · exact applyRecord_outside h
  · exact exec_rebuildRead hp (logReadEnds_orphaned hs)

end Sys2Proof.Machine
end

section
/-!
PROOF. The depot's engine work: the findings clear (R117, R118), the emptying of the route table (R72) and the kept-record release (R178).
-/

namespace Sys2Proof.Machine

/-! ## The findings clear (R117, R118) -/

/-- Entries changed in turn touch the table and the tracker's figures alone. -/
theorem foldl_changeEntry_frame (c : Entry → Entry) (l : List Entry) (s : State) :
    let t := l.foldl (fun u e => changeEntry u e (c e)) s
    t = { s with
      engine := { s.engine with table := t.engine.table }
      tracker := { s.tracker with
        rows := t.tracker.rows
        revisit := t.tracker.revisit } } := by
  induction l generalizing s with
  | nil => rfl
  | cons e l ih => exact ih (changeEntry s e (c e))

theorem changeEntry_takes {c : Entry → Entry} (hc : ∀ e, (c e).meterId = e.meterId) :
    TakesInTurn (fun u e => changeEntry u e (c e)) fun e => some (c e) :=
  ⟨fun s _ hs => replaceEntry_filterMap (g := s.engine) c hs, fun x _ hy => by cases hy; exact hc x⟩

/-- The settings hold through the clear. -/
theorem foldl_clearEntry (l : List Entry) (s : State) :
    l.foldl (fun u e => changeEntry u e (clearEntry u.settings e)) s = l.foldl (fun u e => changeEntry u e (clearEntry s.settings e)) s := by
  induction l generalizing s with
  | nil => rfl
  | cons e l ih => exact ih (changeEntry s e (clearEntry s.settings e))

theorem clearEntry_eq (st : Settings) (e : Entry) :
    let n := clearEntry st e
    n = { e with
      detectors := e.detectors.map fun d => if d.state = .active ∧ d.last ≠ some true then { d with
        state := .idle
        consecutive := 0
        clean := 0 } else d
      score := scoreOf st n.detectors
      suspect := e.suspect && decide (st.threshold ≤ n.score) } := rfl

theorem exec_findingsClear {s : State} (hp : s.startup.powered = true) (h : s.engine.op = .findingsClear) :
    exec .findingsClear s = .next (settle (findingsClearEnds s)) :=
  act_onlyIf (c := fun s => s.engine.op == .findingsClear) (f := findingsClearEnds) hp (by rw [h]; rfl)

theorem exec_routeTableEmptying {s : State} (hp : s.startup.powered = true) (h : s.engine.op = .emptying) :
    exec .routeTableEmptying s = .next (settle (emptyingEnds s)) :=
  act_onlyIf (c := fun s => s.engine.op == .emptying) (f := emptyingEnds) hp (by rw [h]; rfl)

theorem exec_keptRecordRelease {s : State} {m : MeterId} {n : Nat} (hp : s.startup.powered = true) (h : s.engine.op = .keptRelease m n) :
    exec .keptRecordRelease s = .next (settle (keptReleaseEnds s m n)) := by
  refine (?_ : exec .keptRecordRelease s = _).trans (act_next (f := fun s => match s.engine.op with
    | .keptRelease m n => some (keptReleaseEnds s m n)
    | _ => none) hp (by rw [h]))
  rfl

theorem findingsClearEnds_eq (s : State) :
    let t := s.engine.table.foldl (fun u e => changeEntry u e (clearEntry s.settings e)) s
    findingsClearEnds s = { s with
      engine := { s.engine with
        op := .idle
        table := t.engine.table }
      tracker := { s.tracker with
        rows := t.tracker.rows
        revisit := t.tracker.revisit }
      dock := { s.dock with
        replies := (if 8 ≤ s.dock.replies.length then s.dock.replies.tail else s.dock.replies) ++ [⟨s.nextTag, .fixed ([5, 1]
          ++ clearFigures s.settings s.engine.table)⟩]
        replyDrops := if 8 ≤ s.dock.replies.length then min (s.dock.replyDrops + 1) 65535 else s.dock.replyDrops }
      nextTag := s.nextTag + 1 } := by
  have h := foldl_changeEntry_frame (clearEntry s.settings) s.engine.table s
  unfold findingsClearEnds
  dsimp only at h ⊢
  rw [foldl_clearEntry, replyWith_eq]
  generalize s.engine.table.foldl (fun u e => changeEntry u e (clearEntry s.settings e)) s = u at h ⊢
  rw [h]
  rfl

/-! ## The emptying (R72) -/

theorem emptyingEnds_eq (s : State) :
    let kept := s.engine.table.filterMap (·.kept)
    let forgotten := s.engine.table.foldl Tracker.forget s.tracker
    emptyingEnds s = { s with
      engine := { s.engine with
        op := .idle
        table := []
        ownUntracked := 0
        duplicates := 0
        handing := s.engine.handing.filter fun i => !s.engine.table.any (·.meterId == i.meterId) }
      tracker := { s.tracker with
        rows := forgotten.rows
        revisit := forgotten.revisit }
      store := { (kept.foldl appendOrDrop s).store with planErase := some 0 }
      startup := (kept.foldl appendOrDrop s).startup } := by
  have htable : (s.engine.table.filter fun e => !s.engine.table.any (·.meterId == e.meterId)) = [] := by
    rw [List.filter_eq_nil_iff]
    intro e he
    rw [Bool.not_eq_true', List.any_eq_true (p := fun x : Entry => x.meterId == e.meterId) |>.2 ⟨e, he, beq_self_eq_true e.meterId⟩]
    decide
  unfold emptyingEnds
  rw [foldl_removeEntry_frame, htable, foldl_forget_frame]
  rfl

/-! ## The kept-record release (R178) -/

theorem keptReleaseEnds_found {s : State} {m : MeterId} {e : Entry} (h : s.engine.lookup m = some e) (n : Nat) :
    keptReleaseEnds s m n = if e.kept.isSome then { s with engine := { s.engine with
        op := .idle
        table := s.engine.table.map fun x => if x.meterId = e.meterId then { e with
          kept := none
          firstRead := some n } else x } }
      else { s with engine := { s.engine with op := .idle } } := by
  have h' : (endOperation s).engine.lookup m = some e := h
  unfold keptReleaseEnds
  dsimp only
  rw [h'] <;> rfl

theorem keptReleaseEnds_missing {s : State} {m : MeterId} (h : s.engine.lookup m = none) (n : Nat) :
    keptReleaseEnds s m n = { s with engine := { s.engine with op := .idle } } := by
  have h' : (endOperation s).engine.lookup m = none := h
  unfold keptReleaseEnds
  dsimp only
  rw [h'] <;> rfl

/-- Settles O50: the clear entry by entry with its figures, the emptying, and the release of one kept record. -/
theorem depotEngineWork : Obligations.DepotEngineWork := by
  unfold Obligations.DepotEngineWork
  refine ⟨fun s hp h => ⟨_, exec_findingsClear hp h, ?_, fun hm => ?_⟩, clearEntry_eq, fun s hp h => ⟨_, exec_routeTableEmptying hp h, ?_⟩,
    fun s m n hp h => ?_⟩
  · rw [findingsClearEnds_eq]
    rfl
  · have ht := (changeEntry_takes (c := clearEntry s.settings) fun _ => rfl).foldl_filter (fun _ => true) s hm
    rw [List.filter_true] at ht
    rw [findingsClearEnds_eq]
    refine ht.trans ?_
    rw [← List.filterMap_eq_map]
    rfl
  · rw [emptyingEnds_eq]
    have hap := (onlyAppends_of_apart (foldl_appendOrDrop_apart (s.engine.table.filterMap (·.kept)) s)).1
    refine ⟨⟨congrArg (fun st : Store => { st with planErase := some 0 }) hap.1, hap.2⟩, ⟨rfl, rfl⟩, rfl, rfl⟩
  · rw [exec_keptRecordRelease hp h]
    refine congrArg (fun t => Host.Outcome.next (settle t)) ?_
    cases hl : s.engine.lookup m with
    | none => exact keptReleaseEnds_missing hl n
    | some e => exact keptReleaseEnds_found hl n

end Sys2Proof.Machine
end

section
/-!
PROOF. PLAN_READ: the slot read and its four readers (R62), the entry of a plan record (R59), the build (R66), the plan check (R61), the
adoption load (R48 to R50), and the check read at PLAN END (R186).
-/

namespace Sys2Proof.Machine

/-! ## The read (R62) -/

theorem slotReadEnds_reader {s : State} (h : s.store.serving = some (.planRead true)) : slotReadEnds s =
    some (planReadEnds { s with store := { s.store with serving := none } } (s.store.planBytes s.planReadIndex)) := by
  unfold slotReadEnds
  rw [h]

theorem slotReadEnds_orphaned {s : State} (h : s.store.serving = some (.planRead false)) : slotReadEnds s =
    some { s with store := { s.store with serving := none } } := by
  unfold slotReadEnds
  rw [h]

theorem exec_planRead {s : State} (hp : s.startup.powered = true) (h : s.store.serving = some (.planRead true))
    (hin : inFlash (planSlotAddress s.planReadIndex) 32 = true) : exec .planRead s =
      .next (settle (planReadEnds { s with store := { s.store with serving := none } } (s.store.flash.readBytes (32 * s.planReadIndex) 32))) := by
  have hact := act_next hp (slotReadEnds_reader h)
  have hbytes : s.store.planBytes s.planReadIndex = s.store.flash.readBytes (32 * s.planReadIndex) 32 :=
    congrArg (fun a => s.store.flash.readBytes a 32) (Nat.mul_comm s.planReadIndex 32)
  have hcond : (s.startup.powered && s.store.serving == some (.planRead true)) = true := by rw [hp, h]; rfl
  rw [hbytes] at hact
  exact (if_pos hcond).trans ((atFlash_inside hin).trans hact)

theorem exec_planRead_orphaned {s : State} (hp : s.startup.powered = true) (h : s.store.serving = some (.planRead false)) :
    exec .planRead s = .next (settle { s with store := { s.store with serving := none } }) := by
  have hcond : ¬ (s.startup.powered && s.store.serving == some (.planRead true)) = true := by rw [hp, h]; decide
  exact (if_neg hcond).trans (act_next hp (slotReadEnds_orphaned h))

/-- What a plan read's bytes are used for, by the operation and the plan state (R61, R62). -/
theorem planReadEnds_eq (bs : List Byte) (u : State) {op : EngineOp} {plan : Option Plan} (hop : u.engine.op = op) (hplan : u.engine.plan = plan) :
    planReadEnds u bs = match (generalizing := false) op, plan with
      | .planCheckHeader, _ =>
        (match planHeaderOf bs with
          | some h => { u with engine := { u.engine with op := .planCheckRecord 0 h } }
          | none => checkFails u)
      | .planCheckRecord i h, _ =>
        if planRecordGood bs = false then checkFails u
        else if i + 1 < h.count then { u with engine := { u.engine with op := .planCheckRecord (i + 1) h } }
        else { u with
          engine := { u.engine with
            op := .idle
            plan := some h
            requests := u.engine.requests ++ [.ownBuild] }
          startup := { u.startup with step := .build } }
      | .ownBuild i, some h =>
        let v := buildRecord u h i bs
        if i + 1 < h.count then { v with engine := { v.engine with op := .ownBuild (i + 1) } } else buildEnds v h
      | .load n i, some h =>
        let v := loadRecord u h n i bs
        if i + 1 < h.count then { v with engine := { v.engine with op := .load n (i + 1) } } else loadEnds v n
      | .ownBuild _, none => { u with engine := { u.engine with op := .idle } }
      | .load n _, none => if u.shareState n = .loading then abandonLoad u n else stopLoad u n
      | _, _ => checkRead u bs := by
  unfold planReadEnds
  rw [hop, hplan]
  cases op with
  | planCheckRecord i h => cases planRecordGood bs <;> rfl
  | ownBuild i => cases plan <;> rfl
  | load n i => cases plan <;> rfl
  | _ => rfl

/-! ## The entry of a plan record (R59) -/

theorem min_eq_ite (a b : Nat) : min a b = if b < a then b else a := by
  rcases Nat.lt_or_ge b a with h | h
  · rw [if_pos h, Nat.min_eq_right h.le]
  · rw [if_neg (Nat.not_lt.2 h), Nat.min_eq_left h]

theorem entryOf_clamped (segments i : Nat) (o : EntryOrigin) (bs : List Byte) (h : 1 ≤ segments) :
    let e := entryOf segments i o bs
    e.segment = (if segments ≤ fieldOf bs 4 2 then segments - 1 else fieldOf bs 4 2) ∧
    (5 ≤ e.digits ∧ e.digits ≤ 9 ∧ (5 ≤ fieldOf bs 12 1 → fieldOf bs 12 1 ≤ 9 → e.digits = fieldOf bs 12 1) ∧
      (fieldOf bs 12 1 < 5 → e.digits = 5) ∧ (9 < fieldOf bs 12 1 → e.digits = 9)) ∧
    e.billed = (if 10 ^ e.digits ≤ fieldOf bs 6 4 then 10 ^ e.digits - 1 else fieldOf bs 6 4) ∧
    e.band = (if 3 < fieldOf bs 13 1 then 3 else fieldOf bs 13 1) ∧
    e.rate = (if 1048575 < fieldOf bs 14 3 then 1048575 else fieldOf bs 14 3) := by
  have hbelow (x n : Nat) (hn : 1 ≤ n) : min x (n - 1) = if n ≤ x then n - 1 else x := by
    rw [min_eq_ite]
    split_ifs <;> omega
  refine ⟨hbelow _ _ h, ?_, hbelow _ _ (Nat.one_le_pow _ _ (by decide)), min_eq_ite _ _, min_eq_ite _ _⟩
  change 5 ≤ min (max (fieldOf bs 12 1) 5) 9 ∧ min (max (fieldOf bs 12 1) 5) 9 ≤ 9 ∧
    (5 ≤ fieldOf bs 12 1 → fieldOf bs 12 1 ≤ 9 → min (max (fieldOf bs 12 1) 5) 9 = fieldOf bs 12 1) ∧
    (fieldOf bs 12 1 < 5 → min (max (fieldOf bs 12 1) 5) 9 = 5) ∧ (9 < fieldOf bs 12 1 → min (max (fieldOf bs 12 1) 5) 9 = 9)
  omega

theorem loadRecord_eq (s : State) (h : Plan) (share i : Nat) (bs : List Byte) : loadRecord s h share i bs =
    if s.shareOf (planMeterId bs) ≠ share ∨ (s.engine.lookup (planMeterId bs)).isSome then s
    else if 8192 ≤ s.engine.table.length then { s with engine := { s.engine with untracked := s.engine.untracked.map fun x =>
      if x.1 = share then (x.1, x.2 + 1) else x } }
    else { s with engine := { s.engine with table := insertEntry (entryOf h.segments i (.adopted share) bs) s.engine.table } } := by
  unfold loadRecord
  dsimp only
  by_cases h1 : s.shareOf (planMeterId bs) = share
  · by_cases h2 : (s.engine.lookup (planMeterId bs)).isSome = true
    · rw [if_neg (not_not.2 h1), if_pos h2, if_pos (.inr h2)]
    · rw [if_neg (not_not.2 h1), if_neg h2, if_neg (not_or.2 ⟨not_not.2 h1, h2⟩)]
      rfl
  · rw [if_pos h1, if_pos (.inl h1)]

/-! ## The check read at PLAN END (R186) -/

/-- The bad records with one more record checked, each counted once (R186). -/
def checkedBad (s : State) (i : Nat) (bs : List Byte) : List Nat :=
  if planRecordGood bs = true ∨ i ∈ s.dock.load.bad then s.dock.load.bad else s.dock.load.bad ++ [i]

theorem checkRead_eq {s : State} {i : Nat} {rest : List Nat} (bs : List Byte) (h : s.dock.load.check = some (i :: rest)) :
    checkRead s bs = if rest.isEmpty then planEndJudged { s with dock := { s.dock with load := { s.dock.load with bad := checkedBad s i bs } } }
      else { s with dock := { s.dock with load := { s.dock.load with
        bad := checkedBad s i bs
        check := some rest } } } := by
  have hor : (planRecordGood bs || s.dock.load.bad.contains i) = true ↔ planRecordGood bs = true ∨ i ∈ s.dock.load.bad := by
    rw [Bool.or_eq_true, List.contains_iff_mem]
  unfold checkRead checkedBad
  rw [h]
  dsimp only
  by_cases hb : planRecordGood bs = true ∨ i ∈ s.dock.load.bad
  · rw [if_pos (hor.2 hb), if_pos hb]
  · rw [if_neg (mt hor.1 hb), if_neg hb]

theorem planEndJudged_clean {u : State} (hc : u.dock.load.received.length = u.dock.load.count) (hb : u.dock.load.bad = []) :
    planEndJudged u = { u with
      dock := { u.dock with load := { u.dock.load with check := none } }
      store := { u.store with progs := u.store.progs ++ [.planHeader] } } :=
  if_pos ⟨hc, hb⟩

theorem planEndJudged_fails {u : State} (h : u.dock.load.received.length ≠ u.dock.load.count ∨ u.dock.load.bad ≠ []) :
    planEndJudged u = planStatus (setRunState { u with dock := { u.dock with load := { u.dock.load with check := none } } } .blank) 1 :=
  if_neg fun hall => h.elim (fun hc => hc hall.1) fun hb => hb hall.2

theorem planStatus_built (s : State) (result : Byte) (hle : s.dock.load.ignored ≤ 65535) :
    let l := s.dock.load
    let built := fun n : Nat => if result = 0 then n else 0
    planStatus s result = replyWith { s with dock := { s.dock with load := { l with phase := .none } } } 8 .done
      ([result] ++ bytesOf 2 l.received.length ++ bytesOf 2 (l.count - l.received.length) ++ bytesOf 2 l.bad.length ++
        bytesOf 2 l.ignored ++ bytesOf 2 (built s.engine.duplicates) ++ bytesOf 2 (built s.engine.table.length) ++
        bytesOf 2 (built s.engine.ownUntracked)) := by
  unfold planStatus
  simp only [figure16, if_pos hle, beq_iff_eq]

/-! ## A change of run state while no operation is in progress -/

theorem compareShare_idle {s : State} (n : Nat) (h : s.engine.op = .idle) : (compareShare s n).engine.op = .idle := by
  have hjudge (u : State) (k : Nat) : (judgeHeldEntries u k).engine = u.engine := by rw [judgeHeldEntries_eq, foldl_expireWait]
  unfold compareShare
  split
  · exact h
  · exact (congrArg Engine.op (hjudge _ n)).trans h
  · exact congrArg Engine.op (hjudge _ n)
  · exact h
  · exact h

theorem setRunState_idle {s : State} (r : RunState) (h : s.engine.op = .idle) : (setRunState s r).engine.op = .idle := by
  have hfold (l : List Nat) (u : State) (hu : u.engine.op = .idle) : (l.foldl compareShare u).engine.op = .idle := by
    induction l generalizing u with
    | nil => exact hu
    | cons n l ih => exact ih _ (compareShare_idle n hu)
  unfold setRunState recompute
  rw [raceReading_of_taken (fun _ hop => by rw [h] at hop; cases hop)]
  exact hfold _ _ h

/-- What a change of the run state keeps that a build or a plan check looks at. -/
theorem setRunState_step (s : State) (r : RunState) :
    let t := setRunState s r
    t.engine.duplicates = s.engine.duplicates ∧ t.engine.ownUntracked = s.engine.ownUntracked ∧ t.tracker = s.tracker ∧
    t.startup.step = s.startup.step ∧ t.now = s.now := by
  have h := recompute_frame { s with engine := { s.engine with runState := some r } }
  have hp {α : Type} (f : State → α) := congrArg f h
  exact ⟨hp fun s => s.engine.duplicates, hp fun s => s.engine.ownUntracked, hp State.tracker, hp fun s => s.startup.step,
    (congrArg (fun x : Startup => x.now) (hp State.startup) :)⟩

/-- READY takes no share on and releases none where none was taken on (8.1). -/
theorem setRunState_ready_table {s : State} (hop : s.engine.op = .idle) (hs : ∀ x ∈ s.presence.shares, x = .own ∨ x = .notMine) :
    (setRunState s .ready).engine.table = s.engine.table := by
  have h := recompute_quiet (s := { s with engine := { s.engine with runState := some .ready } }) rfl hs
  rw [raceReading_of_taken (fun _ hc => by rw [show s.engine.op = _ from hc] at hop; cases hop)] at h
  exact (congrArg (fun t : State => t.engine.table) h :)

/-! ## The build (R66, R144) -/

/-- The row of a segment after entries are counted in. -/
theorem foldl_add_row (l : List Entry) (r : SegmentRow) :
    let x := l.foldl SegmentRow.add r
    x.segment = r.segment ∧ x.state = r.state ∧
    x.expected = r.expected + l.countP fun e => e.segment == r.segment && e.status != .handing := by
  induction l generalizing r with
  | nil => exact ⟨rfl, rfl, rfl⟩
  | cons e l ih =>
    obtain ⟨h1, h2, h3⟩ := ih (r.add e)
    have hseg := SegmentRow.add_segment r e
    rw [hseg] at h1 h3
    rw [List.foldl_cons]
    refine ⟨h1, h2.trans (by unfold SegmentRow.add; split <;> rfl), h3.trans ?_⟩
    rw [List.countP_cons]
    unfold SegmentRow.add Entry.counted
    by_cases hs : r.segment = e.segment
    · rw [if_pos hs, hs, beq_self_eq_true, Bool.true_and]
      cases e.status != .handing with
      | false => simp
      | true =>
        simp
        omega
    · rw [if_neg hs, beq_eq_false_iff_ne.2 (Ne.symm hs), Bool.false_and]
      simp

theorem freshRows_segments (n : Nat) (table : List Entry) : (freshRows n table).map (·.segment) = List.range n := by
  rw [freshRows, List.map_map]
  refine (List.map_congr_left fun i _ => ?_).trans (List.map_id _)
  exact (foldl_add_row table ⟨i, .ahead, 0, 0, 0, 0⟩).1

theorem freshRows_counts {n : Nat} {table : List Entry} {r : SegmentRow} (h : r ∈ freshRows n table) :
    r.state = .ahead ∧ r.expected = table.countP fun e => e.segment == r.segment && e.status != .handing := by
  obtain ⟨i, -, rfl⟩ := List.mem_map.1 h
  obtain ⟨h1, h2, h3⟩ := foldl_add_row table ⟨i, .ahead, 0, 0, 0, 0⟩
  refine ⟨h2, h3.trans ?_⟩
  rw [h1, Nat.zero_add]

/-- The state in which a build has ended, its report aside (R66). -/
def builtState (s : State) (p : Plan) : State :=
  setRunState { endOperation s with tracker := { s.tracker with rows := freshRows p.segments s.engine.table } } .ready

theorem buildEnds_eq (s : State) (p : Plan) : buildEnds s p =
    if (builtState s p).startup.step = .build then startStepSix (builtState s p)
    else if (builtState s p).dock.load.phase = .ending then planStatus (builtState s p) 0
    else builtState s p := rfl

theorem planStatus_kept (s : State) (result : Byte) :
    let t := planStatus s result
    t.engine = s.engine ∧ t.tracker = s.tracker ∧ t.startup = s.startup := by
  unfold planStatus
  dsimp only
  rw [replyWith_eq]
  exact ⟨rfl, rfl, rfl⟩

theorem buildEnds_state (s : State) (p : Plan) : (buildEnds s p).engine = (builtState s p).engine ∧
    (buildEnds s p).tracker = (builtState s p).tracker := by
  obtain ⟨h1, h2, -⟩ := planStatus_kept (builtState s p) 0
  rw [buildEnds_eq]
  split_ifs
  · exact ⟨rfl, rfl⟩
  · exact ⟨h1, h2⟩
  · exact ⟨rfl, rfl⟩

/-- The built state's figures: READY, no operation, fresh rows, and what the report takes. -/
theorem builtState_kept (s : State) (p : Plan) :
    let u := builtState s p
    u.engine.runState = some .ready ∧ u.engine.op = .idle ∧ u.tracker.rows = freshRows p.segments s.engine.table ∧
    u.dock = s.dock ∧ u.startup.step = s.startup.step ∧ u.now = s.now ∧ u.nextTag = s.nextTag ∧ u.engine.plan = s.engine.plan ∧
    u.engine.duplicates = s.engine.duplicates ∧ u.engine.ownUntracked = s.engine.ownUntracked := by
  have h1 := setRunState_kept { endOperation s with tracker := { s.tracker with rows := freshRows p.segments s.engine.table } } .ready
  have h2 := setRunState_step { endOperation s with tracker := { s.tracker with rows := freshRows p.segments s.engine.table } } .ready
  have h3 := setRunState_idle (s := { endOperation s with tracker := { s.tracker with rows := freshRows p.segments s.engine.table } }) .ready rfl
  obtain ⟨hdock, hrun, hplan, htag, -⟩ := h1
  obtain ⟨hdup, hunt, htr, hstep, hnow⟩ := h2
  exact ⟨hrun, h3, congrArg Tracker.rows htr, hdock, hstep, hnow, htag, hplan, hdup, hunt⟩

theorem builtState_table {s : State} (p : Plan) (hlaw : RunLaw s) (hrun : s.isRunning = false) :
    (builtState s p).engine.table = s.engine.table :=
  setRunState_ready_table (s := { endOperation s with tracker := { s.tracker with rows := freshRows p.segments s.engine.table } }) rfl
    (hlaw.shares hrun)

theorem checkFails_eq (s : State) :
    checkFails s = startStepSix (setRunState { endOperation s with engine := { (endOperation s).engine with plan := none } } .blank) := rfl

theorem checkFails_ends (s : State) :
    let t := checkFails s
    t.engine.runState = some .blank ∧ t.engine.plan = none ∧ t.engine.op = .idle ∧ t.startup.step = .up ∧
    t.presence.item = some s.nextTag ∧ t.presence.timer = some (s.now + 500) := by
  obtain ⟨-, hrun, hplan, htag, -⟩ := setRunState_kept { endOperation s with engine := { (endOperation s).engine with plan := none } } .blank
  obtain ⟨-, -, -, -, hnow⟩ := setRunState_step { endOperation s with engine := { (endOperation s).engine with plan := none } } .blank
  have hop := setRunState_idle (s := { endOperation s with engine := { (endOperation s).engine with plan := none } }) .blank rfl
  rw [checkFails_eq]
  generalize setRunState { endOperation s with engine := { (endOperation s).engine with plan := none } } .blank = u at *
  exact ⟨hrun, hplan, hop, rfl, congrArg some htag, congrArg (fun x => some (x + 500)) hnow⟩

/-! ## The end of a load: its entries counted (R49) -/

theorem segmentState_learn (t : Tracker) (e : Entry) (n : Nat) : (t.learn e).segmentState n = t.segmentState n := by
  have hadd (r : SegmentRow) : (r.add e).segment = r.segment ∧ (r.add e).state = r.state := by
    unfold SegmentRow.add
    split <;> exact ⟨rfl, rfl⟩
  have hpred : ((fun r : SegmentRow => r.segment == n) ∘ fun r : SegmentRow => r.add e) = fun r : SegmentRow => r.segment == n := by
    funext r
    rw [Function.comp, (hadd r).1]
  unfold Tracker.segmentState Tracker.learn
  dsimp only
  rw [List.find?_map, hpred]
  cases t.rows.find? (·.segment == n) with
  | none => rfl
  | some r => exact (hadd r).2

/-- A loaded entry as it is counted, by the segments' states of `t` (R49). -/
def admittedEntry (t : Tracker) (e : Entry) : Entry :=
  if t.segmentState e.segment = .closed then { e with status := .missed } else e

/-- A loaded entry counted, by the segments' states of `t`. -/
def admitBy (t : Tracker) (u : State) (e : Entry) : State :=
  { u with
    engine := if t.segmentState e.segment = .closed then u.engine.replaceEntry e { e with status := .missed } else u.engine
    tracker := u.tracker.learn (admittedEntry t e) }

theorem admitEntry_eq {s : State} {t : Tracker} (e : Entry) (h : ∀ n, s.tracker.segmentState n = t.segmentState n) :
    admitEntry s e = admitBy t s e := by
  unfold admitEntry admitBy admittedEntry
  rw [h]
  split <;> rfl

/-- Counting entries in changes no segment's state, so those at the start decide. -/
theorem foldl_admitEntry (l : List Entry) {s : State} {t : Tracker} (h : ∀ n, s.tracker.segmentState n = t.segmentState n) :
    l.foldl admitEntry s = l.foldl (admitBy t) s := by
  induction l generalizing s with
  | nil => rfl
  | cons e l ih =>
    rw [List.foldl_cons, List.foldl_cons, admitEntry_eq e h]
    exact ih fun n => (segmentState_learn s.tracker (admittedEntry t e) n).trans (h n)

theorem admitBy_table (t : Tracker) (u : State) (e : Entry) :
    admitBy t u e = { u with
      engine := { u.engine with table := (admitBy t u e).engine.table }
      tracker := u.tracker.learn (admittedEntry t e) } := by
  unfold admitBy
  split <;> rfl

theorem admitBy_takes (t : Tracker) : TakesInTurn (admitBy t) fun e => some (admittedEntry t e) := by
  refine ⟨fun s e hs => ?_, fun x y hy => ?_⟩
  · by_cases hc : t.segmentState e.segment = .closed
    · have htable : (admitBy t s e).engine.table = (s.engine.replaceEntry e { e with status := .missed }).table :=
        congrArg Engine.table (if_pos hc)
      rw [htable]
      refine (replaceEntry_filterMap (fun x => { x with status := .missed }) hs).trans ?_
      refine List.filterMap_congr fun x hx => ite_congr rfl (fun hm => ?_) fun _ => rfl
      rw [hs x hx hm]
      exact congrArg some (if_pos hc).symm
    · have htable : (admitBy t s e).engine.table = s.engine.table := congrArg Engine.table (if_neg hc)
      rw [htable]
      refine List.filterMap_some.symm.trans (List.filterMap_congr fun x hx => ?_)
      by_cases hm : x.meterId = e.meterId
      · rw [if_pos hm, hs x hx hm]
        exact congrArg some (if_neg hc).symm
      · rw [if_neg hm]
  · cases hy
    unfold admittedEntry
    split <;> rfl

theorem foldl_admitBy_frame (t : Tracker) (l : List Entry) (s : State) : l.foldl (admitBy t) s = { s with
    engine := { s.engine with table := (l.foldl (admitBy t) s).engine.table }
    tracker := { s.tracker with
      rows := (l.foldl (admitBy t) s).tracker.rows
      revisit := (l.foldl (admitBy t) s).tracker.revisit } } := by
  induction l generalizing s with
  | nil => rfl
  | cons e l ih =>
    have h := ih (admitBy t s e)
    rw [List.foldl_cons]
    generalize l.foldl (admitBy t) (admitBy t s e) = w at h ⊢
    rw [h, admitBy_table]
    rfl

/-! ## The end of a load: its relay entries moved (R50) -/

theorem moveRelayEntry_moved {s : State} (e : RelayEntry) (h : s.engine.relayQueue.length < 8) : moveRelayEntry s e = { s with
    engine := { s.engine with relayQueue := s.engine.relayQueue ++ [.moved e.packet e.segment e.stale] }
    relay := { s.relay with list := s.relay.list.filter (·.tag != e.tag) } } := by
  exact congrArg (fun u : State => { u with relay := u.relay.removeEntry e.tag }) (if_pos h)

theorem moveRelayEntry_stored {s : State} (e : RelayEntry) (h : ¬ s.engine.relayQueue.length < 8) : moveRelayEntry s e = { s with
    relay := { s.relay with
      list := s.relay.list.filter (·.tag != e.tag)
      unconfirmed := countUp s.relay.unconfirmed }
    store := (appendOrDrop s (entryRecord s e)).store
    startup := (appendOrDrop s (entryRecord s e)).startup } := by
  exact congrArg (fun u : State => { u with relay := u.relay.removeEntry e.tag }) ((if_neg h).trans (selfStore_eq ..))

theorem foldl_moveRelayEntry (l : List RelayEntry) (s : State) :
    let room := 8 - s.engine.relayQueue.length
    let stored := (l.drop room).map (entryRecord s)
    l.foldl moveRelayEntry s = { s with
      engine := { s.engine with
        relayQueue := s.engine.relayQueue ++ (l.take room).map fun e => .moved e.packet e.segment e.stale }
      relay := { s.relay with
        list := s.relay.list.filter fun x => !l.any (·.tag == x.tag)
        unconfirmed := countUp^[stored.length] s.relay.unconfirmed }
      store := (stored.foldl appendOrDrop s).store
      startup := (stored.foldl appendOrDrop s).startup } := by
  induction l generalizing s with
  | nil => simp
  | cons e l ih =>
    have hlist (list : List RelayEntry) : ((list.filter (·.tag != e.tag)).filter fun x => !l.any (·.tag == x.tag)) =
        list.filter fun x => !(e :: l).any (·.tag == x.tag) := by
      rw [List.filter_filter]
      refine List.filter_congr fun x _ => ?_
      rw [List.any_cons, Bool.not_or, Bool.and_comm, bne, Bool.beq_comm]
    have hstep (x : State) (hrec : entryRecord x = entryRecord s) (h : x.store = s.store ∧ x.startup = s.startup) (k : Nat) :
        (((l.drop k).map (entryRecord x)).foldl appendOrDrop x).store = (((l.drop k).map (entryRecord s)).foldl appendOrDrop s).store ∧
        (((l.drop k).map (entryRecord x)).foldl appendOrDrop x).startup = (((l.drop k).map (entryRecord s)).foldl appendOrDrop s).startup := by
      rw [hrec]
      exact foldl_appendOrDrop_congr _ h
    by_cases h : s.engine.relayQueue.length < 8
    · obtain ⟨room, hroom⟩ : ∃ k, 8 - s.engine.relayQueue.length = k + 1 := ⟨7 - s.engine.relayQueue.length, by omega⟩
      obtain ⟨x, hx⟩ : ∃ x, moveRelayEntry s e = x := ⟨_, rfl⟩
      have ih := ih x
      rw [moveRelayEntry_moved e h] at hx
      have hroom' : 8 - x.engine.relayQueue.length = room := by
        rw [← hx]
        dsimp only
        rw [List.length_append, List.length_singleton]
        omega
      obtain ⟨h1, h2⟩ := hstep x (hx ▸ rfl) (hx ▸ ⟨rfl, rfl⟩) room
      dsimp only at ih ⊢
      rw [hroom', h1, h2, List.length_map] at ih
      rw [List.foldl_cons, moveRelayEntry_moved e h, hx, ih, hroom, List.take_succ_cons, List.drop_succ_cons, List.map_cons, List.length_map,
        ← hlist, ← hx]
      dsimp only
      rw [List.append_assoc]
      rfl
    · have hroom : 8 - s.engine.relayQueue.length = 0 := by omega
      obtain ⟨x, hx⟩ : ∃ x, moveRelayEntry s e = x := ⟨_, rfl⟩
      have ih := ih x
      rw [moveRelayEntry_stored e h] at hx
      have hroom' : 8 - x.engine.relayQueue.length = 0 := by rw [← hx]; exact hroom
      have hrec : entryRecord x = entryRecord s := hx ▸ rfl
      have hap := foldl_appendOrDrop_congr (l.map (entryRecord s)) (s := x) (t := appendOrDrop s (entryRecord s e)) (hx ▸ ⟨rfl, rfl⟩)
      dsimp only at ih ⊢
      rw [hroom', List.drop_zero, List.take_zero, hrec, hap.1, hap.2, List.length_map] at ih
      rw [List.foldl_cons, moveRelayEntry_stored e h, hx, ih, hroom, List.take_zero, List.drop_zero, List.length_map, List.length_cons,
        List.map_cons, List.foldl_cons, ← hlist, Function.iterate_succ_apply, ← hx]

/-- The state in which the load of a share has completed (R49, R50). -/
theorem completeLoad_eq (s : State) (n : Nat) :
    let a := (s.engine.entriesOf n).foldl (admitBy s.tracker) s
    let mine := s.relay.list.filter (·.share == n)
    let room := 8 - s.engine.relayQueue.length
    let stored := (mine.drop room).map (entryRecord s)
    completeLoad s n = { s with
      engine := { s.engine with
        op := .idle
        table := a.engine.table
        relayQueue := s.engine.relayQueue ++ (mine.take room).map fun e => .moved e.packet e.segment e.stale }
      tracker := { s.tracker with
        rows := a.tracker.rows
        revisit := a.tracker.revisit }
      presence := s.presence.setShare n .adopted
      relay := { s.relay with
        list := s.relay.list.filter fun x => !mine.any (·.tag == x.tag)
        unconfirmed := countUp^[stored.length] s.relay.unconfirmed }
      store := (stored.foldl appendOrDrop s).store
      startup := (stored.foldl appendOrDrop s).startup } := by
  intro a mine room stored
  have hadmit := (foldl_admitEntry (s.engine.entriesOf n) (s := s) (t := s.tracker) fun _ => rfl).trans
    (foldl_admitBy_frame s.tracker (s.engine.entriesOf n) s)
  obtain ⟨w, hw⟩ : ∃ w, w = ({ s with
      engine := { s.engine with table := a.engine.table }
      tracker := { s.tracker with
        rows := a.tracker.rows
        revisit := a.tracker.revisit }
      presence := s.presence.setShare n .adopted } : State) := ⟨_, rfl⟩
  have hmoved := foldl_moveRelayEntry mine w
  have hdef : completeLoad s n = endOperation (mine.foldl moveRelayEntry w) := by
    unfold completeLoad
    dsimp only
    rw [hadmit, hw]
  have hrec : entryRecord w = entryRecord s := hw ▸ rfl
  have hqueue : w.engine.relayQueue = s.engine.relayQueue := hw ▸ rfl
  obtain ⟨h1, h2⟩ := foldl_appendOrDrop_congr stored (s := w) (t := s) (hw ▸ ⟨rfl, rfl⟩)
  dsimp only at hmoved
  rw [hrec, hqueue, h1, h2] at hmoved
  rw [hdef, hmoved, hw]
  rfl

/-- Relay entries of one tag each: those of a share moved, the others stay (R50). -/
theorem filter_not_any_tag {list : List RelayEntry} (h : (list.map (·.tag)).Nodup) (p : RelayEntry → Bool) :
    (list.filter fun e => !(list.filter p).any (·.tag == e.tag)) = list.filter fun e => !p e := by
  refine List.filter_congr fun e he => congrArg (!·) (Bool.eq_iff_iff.2 ⟨fun hany => ?_, fun hp => ?_⟩)
  · obtain ⟨x, hx, hm⟩ := List.any_eq_true.1 hany
    obtain ⟨hx, hpx⟩ := List.mem_filter.1 hx
    have : x = e := List.inj_on_of_nodup_map h hx he (eq_of_beq hm)
    rwa [← this]
  · exact List.any_eq_true.2 ⟨e, List.mem_filter.2 ⟨he, hp⟩, beq_self_eq_true _⟩

theorem loadEnds_loading {s : State} {n : Nat} (h : s.shareState n = .loading) : loadEnds s n = completeLoad s n := if_pos h

/-- Settles O51: the read for its four readers, the entry made, and the ends of a build, a load and the check read. -/
theorem planReadUsed : Obligations.PlanReadUsed := by
  unfold Obligations.PlanReadUsed
  refine ⟨fun s hp h hin => ?_, fun s hp h => exec_planRead_orphaned hp h, fun s h share i bs => ⟨rfl, loadRecord_eq s h share i bs⟩,
    fun segments i o bs h => ?_, fun s p => ?_, checkFails_ends, fun s n h hm => ?_, fun s i rest bs h hne => ?_, fun s i bs h => ⟨fun hc hb => ?_, fun hb => ?_⟩,
    fun s result hle => planStatus_built s result hle⟩
  · rw [exec_planRead hp h hin]
    refine congrArg (fun t => Host.Outcome.next (settle t)) ?_
    exact planReadEnds_eq _ { s with store := { s.store with serving := none } } rfl rfl
  · obtain ⟨hseg, ⟨h5, h9, hin, hlow, hhigh⟩, hbilled, hband, hrate⟩ := entryOf_clamped segments i o bs h
    exact ⟨rfl, rfl, rfl, hseg, h5, h9, hin, hlow, hhigh, hbilled, rfl, hband, hrate, rfl, rfl, rfl, rfl, rfl, rfl, rfl⟩
  · intro t
    obtain ⟨heng, htr⟩ := buildEnds_state s p
    obtain ⟨hrun, hop, hrows, hdock, hstep, hnow, htag, hplan, hdup, hunt⟩ := builtState_kept s p
    have hrows' : t.tracker.rows = freshRows p.segments s.engine.table := (congrArg Tracker.rows htr).trans hrows
    refine ⟨(congrArg Engine.runState heng).trans hrun, (congrArg Engine.op heng).trans hop, ?_, fun r hr => ?_, fun hb => ?_, fun hb hl => ?_,
      fun hb hl hle => ?_⟩
    · rw [hrows', freshRows_segments]
    · exact freshRows_counts (hrows' ▸ hr)
    · have ht : t = startStepSix (builtState s p) := (buildEnds_eq s p).trans (if_pos (hstep.trans hb))
      rw [ht]
      exact ⟨rfl, congrArg some htag, congrArg (fun x => some (x + 500)) hnow⟩
    · have ht : t = builtState s p := (buildEnds_eq s p).trans ((if_neg (by rw [hstep]; exact hb)).trans (if_neg (by rw [hdock]; exact hl)))
      rw [ht]
      exact ⟨hdock, hstep⟩
    · have ht : t = planStatus (builtState s p) 0 :=
        (buildEnds_eq s p).trans ((if_neg (by rw [hstep]; exact hb)).trans (if_pos (by rw [hdock]; exact hl)))
      obtain ⟨-, -, hst⟩ := planStatus_kept (builtState s p) 0
      have htable : t.engine.table = (builtState s p).engine.table := congrArg Engine.table heng
      refine ⟨(congrArg (fun x : Startup => x.step) ((congrArg State.startup ht).trans hst)).trans hstep, (congrArg Engine.plan heng).trans hplan,
        (congrArg Engine.duplicates heng).trans hdup, (congrArg Engine.ownUntracked heng).trans hunt,
        fun hlaw hr => htable.trans (builtState_table p hlaw hr), ?_⟩
      rw [htable, (congrArg Engine.duplicates heng : t.engine.duplicates = _), (congrArg Engine.ownUntracked heng : t.engine.ownUntracked = _), ht,
        planStatus_built _ _ (by rw [hdock]; exact hle), replyWith_eq]
      dsimp only
      rw [hdock, htag]
      simp only [if_true, List.append_assoc, List.cons_append, List.nil_append]
      rfl
  · intro t
    have ht : t = completeLoad s n := loadEnds_loading h
    rw [completeLoad_eq] at ht
    have hp {α : Type} (f : State → α) := congrArg f ht
    refine ⟨hp State.presence, hp fun s => s.engine.op, ?_, hp fun s => s.relay.heldPending, fun htags => ?_⟩
    · refine (hp fun s => s.engine.table).trans (((admitBy_takes s.tracker).foldl_filter (fun e => e.origin == .adopted n) s hm).trans ?_)
      rw [← List.filterMap_eq_map]
      refine List.filterMap_congr fun x _ => ?_
      by_cases ho : x.origin = .adopted n <;> simp [ho, admittedEntry]
    · refine ⟨(hp fun s => s.relay.list).trans ?_, hp fun s => s.engine.relayQueue, hp State.store, fun hle => (hp fun s => s.relay.unconfirmed).trans ?_⟩
      · exact filter_not_any_tag htags _
      · exact iterate_countUp _ hle
  · rw [checkRead_eq bs h, if_neg (by simpa using hne)]
    rfl
  · rw [checkRead_eq bs h]
    exact planEndJudged_clean (u := { s with dock := { s.dock with load := { s.dock.load with bad := checkedBad s i bs } } }) hc hb
  · rw [checkRead_eq bs h]
    exact planEndJudged_fails (u := { s with dock := { s.dock with load := { s.dock.load with bad := checkedBad s i bs } } }) hb

end Sys2Proof.Machine
end

section
/-!
PROOF. The walk of the log (R158): a greedy pass over the slots of the sectors in log order, the tail, and what log order holds.
-/

namespace Sys2Proof.Machine

/-! ## The walk as one pass over the slots -/

/-- The slots of these sectors that can hold records, each with its sector, in the order of the walk. -/
def slotsOf (l : List (Nat × SectorRow)) : List (LogPos × Nat) :=
  l.flatMap fun x => (List.range' 1 127).map fun k => (⟨x.1, k⟩, x.2.sector)

/-- The record in a slot. -/
def recordAt (flash : Memory) (x : LogPos × Nat) : LogRecord := recordOf x.1 (flash.slotBytes x.2 x.1.slot)

/-- A slot holds a record with a number above `last`. -/
def walkTakes (flash : Memory) (last : Nat) (x : LogPos × Nat) : Bool :=
  recordGood (flash.slotBytes x.2 x.1.slot) && decide (last < (recordAt flash x).number)

/-- The records of a pass over slots, each number above every one accepted before it. -/
def greedy (flash : Memory) : Nat → List (LogPos × Nat) → List LogRecord
  | _, [] => []
  | last, x :: l => if walkTakes flash last x then recordAt flash x :: greedy flash (recordAt flash x).number l else greedy flash last l

/-- The last number after a pass. -/
def lastAfter (last : Nat) (l : List LogRecord) : Nat := (l.getLast?.map (·.number)).getD last

theorem lastAfter_cons (last : Nat) (r : LogRecord) (l : List LogRecord) : lastAfter last (r :: l) = lastAfter r.number l := by
  unfold lastAfter
  cases l with
  | nil => rfl
  | cons x l =>
    rw [List.getLast?_cons_cons]
    cases h : (x :: l).getLast? with
    | none => simp at h
    | some y => rfl

theorem greedy_append (flash : Memory) (last : Nat) (a b : List (LogPos × Nat)) :
    greedy flash last (a ++ b) = greedy flash last a ++ greedy flash (lastAfter last (greedy flash last a)) b := by
  induction a generalizing last with
  | nil => rfl
  | cons x a ih =>
    rw [List.cons_append, greedy, greedy]
    by_cases h : walkTakes flash last x = true
    · rw [if_pos h, if_pos h, ih, lastAfter_cons, List.cons_append]
    · rw [if_neg h, if_neg h, ih]

theorem walkSlots_eq (flash : Memory) (q sector fuel slot last : Nat) :
    walkSlots flash q sector fuel slot last = greedy flash last ((List.range' slot fuel).map fun k => (⟨q, k⟩, sector)) := by
  induction fuel generalizing slot last with
  | zero => rfl
  | succ fuel ih =>
    rw [List.range'_succ, List.map_cons, greedy, walkSlots, ih, ih]
    rfl

theorem walkSectors_eq (flash : Memory) (last : Nat) (l : List (Nat × SectorRow)) : walkSectors flash last l = greedy flash last (slotsOf l) := by
  induction l generalizing last with
  | nil => rfl
  | cons x l ih =>
    obtain ⟨q, r⟩ := x
    rw [slotsOf, List.flatMap_cons, greedy_append, ← walkSlots_eq]
    exact congrArg _ (ih _)

theorem walk_eq (st : Store) : st.walk = greedy st.flash 0 (slotsOf (logOrder st.rows)) := walkSectors_eq ..

/-! ## What the pass accepts -/

theorem walkTakes_iff {flash : Memory} {last : Nat} {x : LogPos × Nat} :
    walkTakes flash last x = true ↔ recordGood (flash.slotBytes x.2 x.1.slot) = true ∧ last < (recordAt flash x).number := by
  rw [walkTakes, Bool.and_eq_true, decide_eq_true_eq]

theorem mem_greedy {flash : Memory} {last : Nat} {l : List (LogPos × Nat)} {r : LogRecord} (h : r ∈ greedy flash last l) :
    last < r.number ∧ ∃ x ∈ l, recordGood (flash.slotBytes x.2 x.1.slot) = true ∧ r = recordAt flash x := by
  induction l generalizing last with
  | nil => cases h
  | cons x l ih =>
    rw [greedy] at h
    by_cases ht : walkTakes flash last x = true
    · obtain ⟨hgood, hlast⟩ := walkTakes_iff.1 ht
      rw [if_pos ht] at h
      rcases List.mem_cons.1 h with rfl | h
      · exact ⟨hlast, x, by simp, hgood, rfl⟩
      · obtain ⟨hr, y, hy, hrest⟩ := ih h
        exact ⟨hlast.trans hr, y, by simp [hy], hrest⟩
    · rw [if_neg ht] at h
      obtain ⟨hr, y, hy, hrest⟩ := ih h
      exact ⟨hr, y, by simp [hy], hrest⟩

theorem greedy_ascending (flash : Memory) (last : Nat) (l : List (LogPos × Nat)) :
    (greedy flash last l).Pairwise fun a b => a.number < b.number := by
  induction l generalizing last with
  | nil => exact .nil
  | cons x l ih =>
    rw [greedy]
    split
    · exact List.pairwise_cons.2 ⟨fun r hr => (mem_greedy hr).1, ih _⟩
    · exact ih last

theorem greedy_positions (flash : Memory) (last : Nat) (l : List (LogPos × Nat)) :
    ((greedy flash last l).map (·.pos)).Sublist (l.map (·.1)) := by
  induction l generalizing last with
  | nil => exact .slnil
  | cons x l ih =>
    rw [greedy]
    split
    · exact (ih _).cons_cons _
    · exact (ih _).cons _

/-- A position comes before another in the log (R158). -/
def LogPos.Before (a b : LogPos) : Prop := a.sector < b.sector ∨ (a.sector = b.sector ∧ a.slot < b.slot)

/-- A good record above every one accepted before it is accepted. -/
theorem greedy_accepts {flash : Memory} {last : Nat} {l : List (LogPos × Nat)} {x : LogPos × Nat}
    (hl : l.Pairwise fun a b => a.1.Before b.1) (hx : x ∈ l) (hgood : recordGood (flash.slotBytes x.2 x.1.slot) = true)
    (hlast : last < (recordAt flash x).number)
    (h : ∀ r ∈ greedy flash last l, r.pos.Before x.1 → r.number < (recordAt flash x).number) : recordAt flash x ∈ greedy flash last l := by
  induction l generalizing last with
  | nil => cases hx
  | cons y l ih =>
    obtain ⟨hy, hl⟩ := List.pairwise_cons.1 hl
    rw [greedy] at h ⊢
    rcases List.mem_cons.1 hx with rfl | hx
    · rw [if_pos (walkTakes_iff.2 ⟨hgood, hlast⟩)]
      exact List.mem_cons_self
    · by_cases ht : walkTakes flash last y = true
      · rw [if_pos ht] at h ⊢
        exact List.mem_cons_of_mem _ (ih hl hx (h _ List.mem_cons_self (hy x hx)) fun r hr => h r (List.mem_cons_of_mem _ hr))
      · rw [if_neg ht] at h ⊢
        exact ih hl hx hlast h

/-! ## Log order (R158) -/

theorem mem_slotsOf {l : List (Nat × SectorRow)} {q k n : Nat} :
    ((⟨q, k⟩, n) : LogPos × Nat) ∈ slotsOf l ↔ (∃ r, (q, r) ∈ l ∧ r.sector = n) ∧ 1 ≤ k ∧ k ≤ 127 := by
  simp only [slotsOf, List.mem_flatMap, List.mem_map, List.mem_range'_1, Prod.mk.injEq, LogPos.mk.injEq, Prod.exists]
  constructor
  · rintro ⟨q', r, hr, k', hk, ⟨rfl, rfl⟩, rfl⟩
    exact ⟨⟨r, hr, rfl⟩, by omega, by omega⟩
  · rintro ⟨⟨r, hr, rfl⟩, h1, h2⟩
    exact ⟨q, r, hr, k, by omega, ⟨rfl, rfl⟩, rfl⟩

theorem logOrder_ascending {rows : List SectorRow} (h : (rows.filterMap (·.seq)).Nodup) :
    (logOrder rows).Pairwise fun a b => a.1 < b.1 := by
  have hkeys : ((logOrder rows).map (·.1)).Nodup := by
    refine (((sortRows_perm _).map (·.1)).nodup_iff).2 ?_
    rw [List.map_filterMap]
    have hseq : ((rows.filter (·.state.inLog)).filterMap fun r => (r.seq.map fun q => (q, r)).map (·.1)) =
        (rows.filter (·.state.inLog)).filterMap (·.seq) := by
      refine List.filterMap_congr fun r _ => ?_
      cases r.seq <;> rfl
    rw [hseq]
    exact h.sublist (List.filter_sublist.filterMap _)
  have hne := List.pairwise_map.1 hkeys
  exact (sortRows_sorted _).imp₂ (fun a b hle hne => lt_of_le_of_ne hle hne) hne

theorem slotsOf_before {l : List (Nat × SectorRow)} (h : l.Pairwise fun a b => a.1 < b.1) :
    (slotsOf l).Pairwise fun a b => a.1.Before b.1 := by
  refine List.pairwise_flatMap.2 ⟨fun x _ => List.pairwise_map.2 ?_, h.imp fun hlt y hy z hz => ?_⟩
  · exact (List.pairwise_lt_range' (n := 127)).imp fun hlt => .inr ⟨rfl, hlt⟩
  · obtain ⟨_, _, rfl⟩ := List.mem_map.1 hy
    obtain ⟨_, _, rfl⟩ := List.mem_map.1 hz
    exact .inl hlt

/-- Rows that can be in log order hold a slot's record (R158). -/
theorem inLog_iff (x : SectorState) : x.inLog = true ↔ x = .opened ∨ x = .full ∨ x = .uploaded ∨ x = .eraseListed ∨ x = .retired := by
  cases x <;> decide

/-- A slot of the log that holds a record (R158). -/
def HoldsRecord (st : Store) (n q k : Nat) : Prop :=
  (∃ x ∈ st.rows, x.sector = n ∧ x.seq = some q ∧
    (x.state = .opened ∨ x.state = .full ∨ x.state = .uploaded ∨ x.state = .eraseListed ∨ x.state = .retired)) ∧
  st.flash.readBytes (slotAddress n k) 32 ≠ List.replicate 32 0xFF ∧ crc16 (st.flash.readBytes (slotAddress n k) 32) = 0

theorem holdsRecord_iff (st : Store) (n q k : Nat) : HoldsRecord st n q k ↔
    (∃ r, (q, r) ∈ logOrder st.rows ∧ r.sector = n) ∧ recordGood (st.flash.slotBytes n k) = true := by
  have hgood : recordGood (st.flash.slotBytes n k) = true ↔
      st.flash.readBytes (slotAddress n k) 32 ≠ List.replicate 32 0xFF ∧ crc16 (st.flash.readBytes (slotAddress n k) 32) = 0 :=
    recordGood_iff (Memory.readBytes_length _ _ _)
  rw [hgood]
  refine and_congr_left fun _ => exists_congr fun r => ?_
  rw [mem_logOrder, inLog_iff]
  exact ⟨fun ⟨h1, h2, h3, h4⟩ => ⟨⟨h1, h3, h4⟩, h2⟩, fun ⟨⟨h1, h3, h4⟩, h2⟩ => ⟨h1, h2, h3, h4⟩⟩

theorem mem_walk {st : Store} {r : LogRecord} (h : r ∈ st.walk) : 0 < r.number ∧ 1 ≤ r.pos.slot ∧ r.pos.slot ≤ 127 ∧
    ∃ n, HoldsRecord st n r.pos.sector r.pos.slot ∧ r = recordOf r.pos (st.flash.readBytes (slotAddress n r.pos.slot) 32) := by
  rw [walk_eq] at h
  obtain ⟨hlast, ⟨⟨q, k⟩, n⟩, hx, hgood, rfl⟩ := mem_greedy h
  obtain ⟨hr, h1, h2⟩ := mem_slotsOf.1 hx
  exact ⟨hlast, h1, h2, n, (holdsRecord_iff st n q k).2 ⟨hr, hgood⟩, rfl⟩

theorem walk_ascending (st : Store) : st.walk.Pairwise fun a b => a.number < b.number := by
  rw [walk_eq]
  exact greedy_ascending _ _ _

theorem walk_before {st : Store} (h : (st.rows.filterMap (·.seq)).Nodup) : st.walk.Pairwise fun a b => a.pos.Before b.pos := by
  rw [walk_eq]
  have hpos : ((slotsOf (logOrder st.rows)).map (·.1)).Pairwise LogPos.Before :=
    List.pairwise_map.2 (slotsOf_before (logOrder_ascending h))
  exact List.pairwise_map.1 (hpos.sublist (greedy_positions st.flash 0 (slotsOf (logOrder st.rows))))

theorem LogPos.Before.asymm {a b : LogPos} (h : a.Before b) : ¬ b.Before a := by
  unfold LogPos.Before at *
  omega

/-- A record has a lower number than another and stands before it. -/
def LogRecord.Precedes (a b : LogRecord) : Prop := a.number < b.number ∧ a.pos.Before b.pos

/-- A record that log order holds is accepted exactly where its number is above those accepted before it (R158). -/
theorem mem_walk_iff {st : Store} (h : (st.rows.filterMap (·.seq)).Nodup) {n q k : Nat} (hh : HoldsRecord st n q k) (h1 : 1 ≤ k) (h2 : k ≤ 127) :
    let r := recordOf ⟨q, k⟩ (st.flash.readBytes (slotAddress n k) 32)
    (r ∈ st.walk ↔ 0 < r.number ∧ ∀ x ∈ st.walk, x.pos.Before r.pos → x.number < r.number) := by
  intro r
  obtain ⟨hr, hgood⟩ := (holdsRecord_iff st n q k).1 hh
  constructor
  · intro hm
    refine ⟨(mem_walk hm).1, fun x hx hb => ?_⟩
    have hpair : st.walk.Pairwise fun a b => a.Precedes b ∨ b.Precedes a := ((walk_ascending st).and (walk_before h)).imp .inl
    have hxr : x ≠ r := fun he => LogPos.Before.asymm hb (he ▸ hb)
    have hsymm : Std.Symm fun a b : LogRecord => a.Precedes b ∨ b.Precedes a := ⟨fun _ _ => Or.symm⟩
    rcases hpair.forall hx hm hxr with hf | hf
    · exact hf.1
    · exact absurd hb hf.2.asymm
  · rintro ⟨hpos, hbelow⟩
    have hx : ((⟨q, k⟩, n) : LogPos × Nat) ∈ slotsOf (logOrder st.rows) := mem_slotsOf.2 ⟨hr, h1, h2⟩
    have := greedy_accepts (flash := st.flash) (last := 0) (slotsOf_before (logOrder_ascending h)) hx hgood hpos
    rw [← walk_eq] at this
    exact this hbelow

/-! ## The tail -/

/-- Sorting and leaving rows out do not meet, on rows sorted before. -/
theorem insertRow_filter (p : Nat × SectorRow → Bool) (r : Nat × SectorRow) {l : List (Nat × SectorRow)} (hl : l.Pairwise fun a b => a.1 ≤ b.1) :
    (insertRow r l).filter p = if p r then insertRow r (l.filter p) else l.filter p := by
  induction l with
  | nil => cases h : p r <;> simp [insertRow, h]
  | cons x l ih =>
    obtain ⟨hx, hl'⟩ := List.pairwise_cons.1 hl
    have hfront (h : r.1 ≤ x.1) (l' : List (Nat × SectorRow)) (hsub : ∀ y ∈ l', x.1 ≤ y.1) : insertRow r l' = r :: l' := by
      cases l' with
      | nil => rfl
      | cons y l' => exact if_pos (h.trans (hsub y List.mem_cons_self))
    rw [insertRow]
    by_cases h : r.1 ≤ x.1
    · have hsub : ∀ y ∈ (x :: l).filter p, x.1 ≤ y.1 := fun y hy => by
        rcases List.mem_cons.1 (List.mem_of_mem_filter hy) with rfl | hy
        · exact le_rfl
        · exact hx y hy
      rw [if_pos h, hfront h _ hsub, List.filter_cons]
    · rw [if_neg h, List.filter_cons, ih hl', List.filter_cons]
      by_cases hpx : p x = true
      · rw [if_pos hpx, if_pos hpx]
        split
        · exact (if_neg h).symm
        · rfl
      · rw [if_neg hpx, if_neg hpx]

theorem sortRows_filter (rows : List SectorRow) (p : SectorRow → Bool) :
    (sortRows rows).filter (fun x => p x.2) = sortRows (rows.filter p) := by
  induction rows with
  | nil => rfl
  | cons r rows ih =>
    have hs := sortRows_sorted rows
    unfold sortRows at *
    cases hr : r.seq with
    | none =>
      rw [List.filterMap_cons_none (by rw [hr]; rfl), ih]
      by_cases hp : p r = true
      · rw [List.filter_cons_of_pos hp, List.filterMap_cons_none (by rw [hr]; rfl)]
      · rw [List.filter_cons_of_neg hp]
    | some q =>
      rw [List.filterMap_cons_some (b := (q, r)) (by rw [hr]; rfl), List.foldr_cons, insertRow_filter _ _ hs, ih]
      by_cases hp : p r = true
      · rw [if_pos hp, List.filter_cons_of_pos hp, List.filterMap_cons_some (b := (q, r)) (by rw [hr]; rfl), List.foldr_cons]
      · rw [if_neg hp, List.filter_cons_of_neg hp]

/-- The tail is the first record of a walk that passes over RETIRED sectors (R158). -/
theorem tail_eq (st : Store) : st.tail = ({ st with rows := st.rows.filter fun x => x.state != .retired } : Store).walk.head? := by
  have hrows : (logOrder st.rows).filter (fun r => r.2.state != .retired) = logOrder (st.rows.filter fun x => x.state != .retired) := by
    rw [logOrder, logOrder, sortRows_filter _ fun r => r.state != .retired, List.filter_filter, List.filter_filter]
    exact congrArg sortRows (List.filter_congr fun r _ => Bool.and_comm ..)
  rw [Store.tail, hrows]
  rfl

theorem holdsAt_iff (st : Store) (pos : LogPos) (number : Nat) : st.holdsAt pos number = true ↔
    ∃ n, HoldsRecord st n pos.sector pos.slot ∧ fieldOf (st.flash.readBytes (slotAddress n pos.slot) 32) 0 4 = number := by
  rw [Store.holdsAt, List.any_eq_true]
  constructor
  · rintro ⟨⟨q, r⟩, hm, hx⟩
    simp only [Bool.and_eq_true, beq_iff_eq] at hx
    obtain ⟨⟨rfl, hgood⟩, hnum⟩ := hx
    exact ⟨r.sector, (holdsRecord_iff st _ _ _).2 ⟨⟨r, hm, rfl⟩, hgood⟩, hnum⟩
  · rintro ⟨n, hh, hnum⟩
    obtain ⟨⟨r, hm, rfl⟩, hgood⟩ := (holdsRecord_iff st _ _ _).1 hh
    refine ⟨_, hm, ?_⟩
    simp only [Bool.and_eq_true, beq_iff_eq]
    exact ⟨⟨trivial, hgood⟩, hnum⟩

end Sys2Proof.Machine
end

section
/-!
PROOF. What the start-up scan reads of the flash (R170 to R172): blank bodies, classes, the head sector and slot, the greatest figures, the
interrupted run and the order of the erase list.
-/

namespace Sys2Proof.Machine

/-! ## Blank stretches of a memory in canonical form -/

theorem blank_iff {m : Memory} (h : m.wf = true) (a n : Nat) : m.blank a n = true ↔ ∀ x, a ≤ x → x < a + n → m.read x = 0xFF := by
  induction m with
  | nil => exact ⟨fun _ _ _ _ => rfl, fun _ => rfl⟩
  | cons c m ih =>
    obtain ⟨k, b⟩ := c
    obtain ⟨hb, hlt, hm⟩ := (Memory.wf_cons (k, b) m).1 h
    have hstep : Memory.blank ((k, b) :: m) a n = true ↔ ¬ (a ≤ k ∧ k < a + n) ∧ Memory.blank m a n = true := by
      have hb' : (b == 0xFF) = false := beq_eq_false_iff_ne.2 hb
      rw [Memory.blank, List.all_cons, Bool.and_eq_true]
      dsimp only
      rw [hb', Bool.or_false, Bool.not_eq_true', ← Bool.decide_and, decide_eq_false_iff_not]
      rfl
    rw [hstep, ih hm]
    constructor
    · rintro ⟨hk, hall⟩ x h1 h2
      rw [Memory.read, if_neg (by omega)]
      exact hall x h1 h2
    · refine fun hall => ⟨fun hk => hb ?_, fun x h1 h2 => ?_⟩
      · have := hall k hk.1 hk.2
        rwa [Memory.read, if_pos rfl] at this
      · by_cases hkx : k = x
        · exact Memory.read_above (hkx ▸ hlt)
        · have := hall x h1 h2
          rwa [Memory.read, if_neg hkx] at this

/-- The 32 bytes of a slot are all ones. -/
def slotFree (flash : Memory) (n k : Nat) : Prop := flash.readBytes (slotAddress n k) 32 = List.replicate 32 0xFF

theorem slotFree_iff (flash : Memory) (n k : Nat) : slotFree flash n k ↔ ∀ i, i < 32 → flash.read (slotAddress n k + i) = 0xFF := by
  rw [slotFree, List.eq_replicate_iff]
  simp only [Memory.readBytes, List.length_map, List.length_range, List.mem_map, List.mem_range, forall_exists_index, and_imp, true_and,
    forall_apply_eq_imp_iff₂]

theorem allOnes_slot (flash : Memory) (n k : Nat) : allOnes (flash.readBytes (slotAddress n k) 32) = true ↔ slotFree flash n k :=
  allOnes_iff (Memory.readBytes_length _ _ _)

/-- The body of a sector is blank where every slot that can hold a record is free (R155). -/
theorem bodyBlank_iff {flash : Memory} (h : flash.wf = true) (n : Nat) :
    bodyBlank flash n = true ↔ ∀ k, 1 ≤ k → k ≤ 127 → slotFree flash n k := by
  rw [bodyBlank, blank_iff h]
  simp only [slotFree_iff, slotAddress, Config.sectorBytes, Config.sectorSlots, Config.slotBytes]
  constructor
  · intro hall k h1 h2 i hi
    exact hall _ (by omega) (by omega)
  · intro hall x h1 h2
    have := hall ((x - n * 4096) / 32) (by omega) (by omega) ((x - n * 4096) % 32) (by omega)
    rwa [show n * 4096 + (x - n * 4096) / 32 * 32 + (x - n * 4096) % 32 = x by omega] at this

/-! ## Classes (R170) -/

theorem intact_iff (h : SectorHeader) : h.intact = true ↔ h.magicGood = true ∧ h.crcGood = true ∧
    (h.opened = true ∨ h.uploaded = true ∨ h.eraseBegun = true ∨ h.retired = true) := by
  simp only [SectorHeader.intact, Bool.and_eq_true, Bool.or_eq_true, and_assoc, or_assoc]

theorem mem_scanSectors {flash : Memory} {x : Scanned} : x ∈ scanSectors flash ↔ (128 ≤ x.sector ∧ x.sector < 512) ∧ x = scanSector flash x.sector := by
  constructor
  · intro h
    refine ⟨scanSectors_range h, ?_⟩
    obtain ⟨i, -, rfl⟩ := List.mem_map.1 h
    rfl
  · rintro ⟨⟨h1, h2⟩, hx⟩
    rw [hx]
    refine List.mem_map.2 ⟨x.sector - 128, List.mem_range.2 (show x.sector - 128 < 384 by omega), ?_⟩
    exact congrArg (scanSector flash) (show 128 + (x.sector - 128) = x.sector by omega)

/-- The header of a sector as the scan reads it. -/
def headerAt (flash : Memory) (n : Nat) : SectorHeader := headerOf (flash.readBytes (slotAddress n 0) 32)

theorem scanSector_header (flash : Memory) (n : Nat) : (scanSector flash n).header = headerAt flash n := rfl

/-- A sector the scan takes as OPENED (R170). -/
def ScansOpened (flash : Memory) (n : Nat) : Prop :=
  (128 ≤ n ∧ n < 512) ∧ ((headerAt flash n).retired = false ∧ (headerAt flash n).allOnes = false) ∧
    ((headerAt flash n).magicGood = true ∧ (headerAt flash n).crcGood = true) ∧ (headerAt flash n).eraseBegun = false ∧
    (headerAt flash n).uploaded = false ∧ (headerAt flash n).opened = true

theorem scanClass_retired {h : SectorHeader} (b : Bool) (hr : h.retired = true) : scanClass h b = .retired := if_pos hr

theorem scanClass_allOnes {h : SectorHeader} (b : Bool) (hr : h.retired = false) (ho : h.allOnes = true) :
    scanClass h b = if b then .erased else .listed := by
  rw [scanClass, hr, if_neg Bool.false_ne_true, if_pos ho]

/-- Past the first rows, an intact header decides by its marks (R170). -/
theorem scanClass_plain {h : SectorHeader} (b : Bool) (hr : h.retired = false) (ho : h.allOnes = false) : scanClass h b =
    if h.intact && h.eraseBegun then .listed else if h.intact && h.uploaded then .uploaded else if h.intact && h.opened then .opened else .listed := by
  rw [scanClass, hr, ho, if_neg Bool.false_ne_true, if_neg Bool.false_ne_true]

theorem scanClass_notIntact {h : SectorHeader} (b : Bool) (hr : h.retired = false) (ho : h.allOnes = false) (hi : h.intact = false) :
    scanClass h b = .listed := by
  rw [scanClass_plain b hr ho, hi]
  rfl

/-- An OPENED sector's header carries no later mark. -/
theorem scanClass_opened_iff (h : SectorHeader) (b : Bool) : scanClass h b = .opened ↔
    (h.retired = false ∧ h.allOnes = false) ∧ (h.magicGood = true ∧ h.crcGood = true) ∧ h.eraseBegun = false ∧ h.uploaded = false ∧ h.opened = true := by
  have hi := intact_iff h
  cases hr : h.retired with
  | true => simp [scanClass_retired b hr]
  | false =>
    cases ho : h.allOnes with
    | true => cases b <;> simp [scanClass_allOnes _ hr ho]
    | false =>
      rw [scanClass_plain b hr ho]
      cases hin : h.intact with
      | false =>
        rw [hin] at hi
        simp only [Bool.false_and, Bool.false_eq_true, if_false, reduceCtorEq, false_iff]
        rintro ⟨-, ⟨hm, hc⟩, -, -, hop⟩
        exact absurd (hi.2 ⟨hm, hc, .inl hop⟩) Bool.false_ne_true
      | true =>
        obtain ⟨hm, hc, -⟩ := hi.1 hin
        cases h.eraseBegun <;> cases h.uploaded <;> cases h.opened <;> simp [hm, hc]

theorem scansOpened_iff {flash : Memory} {n : Nat} : ScansOpened flash n ↔ (128 ≤ n ∧ n < 512) ∧ (scanSector flash n).cls = .opened :=
  and_congr_right fun _ => (scanClass_opened_iff (headerAt flash n) (bodyBlank flash n)).symm

/-! ## The greatest of some numbers -/

theorem greatest_aux (l : List Nat) (a : Nat) : a ≤ l.foldl max a ∧ (∀ x ∈ l, x ≤ l.foldl max a) ∧ (l.foldl max a = a ∨ l.foldl max a ∈ l) := by
  induction l generalizing a with
  | nil => exact ⟨le_rfl, by simp, .inl rfl⟩
  | cons x l ih =>
    obtain ⟨h1, h2, h3⟩ := ih (max a x)
    rw [List.foldl_cons]
    refine ⟨(le_max_left a x).trans h1, fun y hy => ?_, ?_⟩
    · rcases List.mem_cons.1 hy with rfl | hy
      · exact (le_max_right a y).trans h1
      · exact h2 y hy
    · rcases h3 with h3 | h3
      · rcases max_choice a x with hm | hm
        · exact .inl (h3.trans hm)
        · exact .inr (by rw [h3, hm]; exact List.mem_cons_self)
      · exact .inr (List.mem_cons_of_mem _ h3)

theorem le_greatest {l : List Nat} {x : Nat} (h : x ∈ l) : x ≤ greatest l := (greatest_aux l 0).2.1 x h

theorem greatest_mem (l : List Nat) : greatest l = 0 ∨ greatest l ∈ l := (greatest_aux l 0).2.2

/-! ## The head sector and slot (R171) -/

/-- One sector more in the search for the head sector. -/
def betterHead (best : Option Scanned) (x : Scanned) : Option Scanned :=
  match best with
  | some b => if b.header.seq < x.header.seq then some x else best
  | none => some x

theorem scannedHead_eq (l : List Scanned) : scannedHead l = (l.filter (·.cls == .opened)).foldl betterHead none := rfl

theorem foldl_betterHead_mem (l : List Scanned) (best : Option Scanned) :
    l.foldl betterHead best = best ∨ ∃ x ∈ l, l.foldl betterHead best = some x := by
  induction l generalizing best with
  | nil => exact .inl rfl
  | cons y l ih =>
    rw [List.foldl_cons]
    rcases ih (betterHead best y) with h | ⟨x, hx, h⟩
    · rw [h]
      unfold betterHead
      cases best with
      | none => exact .inr ⟨y, List.mem_cons_self, rfl⟩
      | some b =>
        dsimp only
        split
        · exact .inr ⟨y, List.mem_cons_self, rfl⟩
        · exact .inl rfl
    · exact .inr ⟨x, List.mem_cons_of_mem _ hx, h⟩

/-- The head sector is one of the OPENED ones. -/
theorem scannedHead_opened {l : List Scanned} {x : Scanned} (h : scannedHead l = some x) : x ∈ l ∧ x.cls = .opened := by
  rw [scannedHead_eq] at h
  rcases foldl_betterHead_mem (l.filter (·.cls == .opened)) none with hn | ⟨y, hy, hy'⟩
  · rw [hn] at h
    cases h
  · rw [hy'] at h
    cases h
    obtain ⟨h1, h2⟩ := List.mem_filter.1 hy
    exact ⟨h1, beq_iff_eq.1 h2⟩

theorem foldl_betterHead_keeps {l : List Scanned} {x : Scanned} (h : ∀ y ∈ l, y ≠ x → y.header.seq < x.header.seq) :
    l.foldl betterHead (some x) = some x := by
  induction l with
  | nil => rfl
  | cons y l ih =>
    have hy : betterHead (some x) y = some x := by
      by_cases hyx : y = x
      · rw [hyx]
        exact if_neg (lt_irrefl _)
      · exact if_neg (Nat.lt_asymm (h y List.mem_cons_self hyx))
    rw [List.foldl_cons, hy]
    exact ih fun z hz => h z (List.mem_cons_of_mem _ hz)

theorem foldl_betterHead_greatest {l : List Scanned} {x : Scanned} (hx : x ∈ l) (h : ∀ y ∈ l, y ≠ x → y.header.seq < x.header.seq)
    (best : Option Scanned) (hbest : ∀ b, best = some b → b ≠ x → b.header.seq < x.header.seq) : l.foldl betterHead best = some x := by
  induction l generalizing best with
  | nil => cases hx
  | cons y l ih =>
    have hrest : ∀ z ∈ l, z ≠ x → z.header.seq < x.header.seq := fun z hz => h z (List.mem_cons_of_mem _ hz)
    rw [List.foldl_cons]
    by_cases hyx : y = x
    · have hy : betterHead best y = some x := by
        rw [hyx]
        cases best with
        | none => rfl
        | some b =>
          by_cases hb : b = x
          · rw [hb]
            exact if_neg (lt_irrefl _)
          · exact if_pos (hbest b rfl hb)
      rw [hy]
      exact foldl_betterHead_keeps hrest
    · refine ih ((List.mem_cons.1 hx).resolve_left (Ne.symm hyx)) hrest _ fun b hb hbx => ?_
      have hlt := h y List.mem_cons_self hyx
      cases best with
      | none =>
        cases hb
        exact hlt
      | some c =>
        unfold betterHead at hb
        dsimp only at hb
        split at hb
        · cases hb
          exact hlt
        · exact hbest b hb hbx

/-- The OPENED sector of highest sequence is the head sector (R171). -/
theorem scannedHead_greatest {flash : Memory} {n : Nat} (hn : ScansOpened flash n)
    (h : ∀ m, ScansOpened flash m → m ≠ n → (headerAt flash m).seq < (headerAt flash n).seq) :
    scannedHead (scanSectors flash) = some (scanSector flash n) := by
  obtain ⟨hin, hcls⟩ := scansOpened_iff.1 hn
  rw [scannedHead_eq]
  refine foldl_betterHead_greatest (List.mem_filter.2 ⟨mem_scanSectors.2 ⟨hin, rfl⟩, by rw [hcls]; rfl⟩) (fun y hy hne => ?_) none (fun _ hb => nomatch hb)
  obtain ⟨hy, hycls⟩ := List.mem_filter.1 hy
  obtain ⟨hyin, hyeq⟩ := mem_scanSectors.1 hy
  rw [hyeq]
  refine h y.sector (scansOpened_iff.2 ⟨hyin, ?_⟩) fun hsec => hne ?_
  · rw [← hyeq]
    exact beq_iff_eq.1 hycls
  · rw [hyeq, hsec]

/-- A pass for the last slot used over slots none of which is used. -/
theorem foldl_lastUsed_free {p : Nat → Bool} {l : List Nat} (h : ∀ k ∈ l, p k = true) (last : Option Nat) :
    l.foldl (fun last k => if p k then last else some k) last = last := by
  induction l with
  | nil => rfl
  | cons k l ih =>
    rw [List.foldl_cons, if_pos (h k List.mem_cons_self)]
    exact ih fun j hj => h j (List.mem_cons_of_mem _ hj)

theorem lastUsedSlot_eq (flash : Memory) (n : Nat) : lastUsedSlot flash n =
    (List.range' 1 127).foldl (fun last k => if allOnes (flash.readBytes (slotAddress n k) 32) then last else some k) none := by
  have hrange : (List.range Config.sectorSlots).drop 1 = List.range' 1 127 := by decide
  rw [lastUsedSlot, hrange]
  rfl

theorem lastUsedSlot_none {flash : Memory} {n : Nat} (h : ∀ k, 1 ≤ k → k ≤ 127 → slotFree flash n k) : lastUsedSlot flash n = none := by
  rw [lastUsedSlot_eq]
  refine foldl_lastUsed_free (fun k hk => (allOnes_slot flash n k).2 ?_) none
  have := List.mem_range'_1.1 hk
  exact h k (by omega) (by omega)

theorem lastUsedSlot_some {flash : Memory} {n k : Nat} (h1 : 1 ≤ k) (h2 : k ≤ 127) (hk : ¬ slotFree flash n k)
    (h : ∀ j, k < j → j ≤ 127 → slotFree flash n j) : lastUsedSlot flash n = some k := by
  have hsplit : List.range' 1 127 = List.range' 1 (k - 1) ++ k :: List.range' (k + 1) (127 - k) := by
    rw [← List.range'_succ, show 127 = (k - 1) + (127 - k + 1) by omega]
    exact (congrArg (List.range' 1 (k - 1) ++ List.range' · _) (show k = 1 + (k - 1) by omega)).trans (by
      rw [show k - 1 + (127 - k + 1) - k + 1 = 127 - k + 1 by omega]
      exact List.range'_append_1 .. ) |>.symm
  rw [lastUsedSlot_eq, hsplit, List.foldl_append, List.foldl_cons, if_neg (mt (allOnes_slot flash n k).1 hk)]
  refine foldl_lastUsed_free (fun j hj => (allOnes_slot flash n j).2 ?_) _
  have := List.mem_range'_1.1 hj
  exact h j (by omega) (by omega)

/-- The page of a slot holds a slot in use that fails its CRC (R171). -/
def PageSpoiled (flash : Memory) (n k : Nat) : Prop :=
  ∃ j, 1 ≤ j ∧ j / 8 = k / 8 ∧ ¬ slotFree flash n j ∧ recordGood (flash.readBytes (slotAddress n j) 32) = false

theorem pageSpoiled_iff (flash : Memory) (n k : Nat) : pageSpoiled flash n k = true ↔ PageSpoiled flash n k := by
  have hfree (j : Nat) : (!allOnes (flash.readBytes (slotAddress n j) Config.slotBytes)) = true ↔ ¬ slotFree flash n j := by
    rw [Bool.not_eq_true', ← Bool.not_eq_true]
    exact not_congr (allOnes_slot flash n j)
  simp only [pageSpoiled, List.any_eq_true, List.mem_range, Bool.and_eq_true, decide_eq_true_eq, hfree, Bool.not_eq_true', PageSpoiled]
  constructor
  · rintro ⟨i, hi, ⟨h1, h2⟩, h3⟩
    exact ⟨k / 8 * 8 + i, h1, by omega, h2, h3⟩
  · rintro ⟨j, h1, h2, h3, h4⟩
    refine ⟨j % 8, by omega, ?_⟩
    rw [show k / 8 * 8 + j % 8 = j by omega]
    exact ⟨⟨h1, h3⟩, h4⟩

theorem scannedSlot_unused {flash : Memory} {n : Nat} (h : ∀ k, 1 ≤ k → k ≤ 127 → slotFree flash n k) : scannedSlot flash n = 1 := by
  rw [scannedSlot, lastUsedSlot_none h]

theorem scannedSlot_used {flash : Memory} {n k next : Nat} (h1 : 1 ≤ k) (h2 : k ≤ 127) (hk : ¬ slotFree flash n k)
    (h : ∀ j, k < j → j ≤ 127 → slotFree flash n j) (hspoiled : PageSpoiled flash n k → next = (k / 8 + 1) * 8)
    (hclean : ¬ PageSpoiled flash n k → next = k + 1) : scannedSlot flash n = next := by
  rw [scannedSlot, lastUsedSlot_some h1 h2 hk h]
  dsimp only
  by_cases hs : PageSpoiled flash n k
  · rw [if_pos ((pageSpoiled_iff flash n k).2 hs), hspoiled hs]
    rfl
  · rw [if_neg (mt (pageSpoiled_iff flash n k).1 hs), hclean hs]

/-! ## The interrupted run (R172) -/

/-- A RUN MARK(open). -/
def LogRecord.opensRun (r : LogRecord) : Prop := r.kind = 1 ∧ r.counter = 1

/-- A RUN MARK(open) or RUN MARK(close). -/
def LogRecord.marksRun (r : LogRecord) : Prop := r.kind = 1 ∧ (r.counter = 1 ∨ r.counter = 2)

theorem scannedRun_append (recs : List LogRecord) (r : LogRecord) : scannedRun (recs ++ [r]) =
    if r.kind = 1 ∧ r.counter = 1 then some ⟨r.run, r.pos, r.number⟩ else if r.kind = 1 ∧ r.counter = 2 then none else scannedRun recs := by
  rw [scannedRun, List.foldl_append]
  rfl

/-- Where the last element of a list stands when an element of it is singled out. -/
theorem snoc_eq_append_cons {α : Type} {l before later : List α} {x r : α} : l ++ [x] = before ++ r :: later ↔
    (later = [] ∧ l = before ∧ x = r) ∨ ∃ later', later = later' ++ [x] ∧ l = before ++ r :: later' := by
  rcases List.eq_nil_or_concat later with rfl | ⟨later', y, rfl⟩
  · refine ⟨fun h => .inl ?_, ?_⟩
    · obtain ⟨h1, h2⟩ := List.append_inj' h rfl
      exact ⟨rfl, h1, List.head_eq_of_cons_eq h2⟩
    · rintro (⟨-, rfl, rfl⟩ | ⟨l', h, -⟩)
      · rfl
      · simp at h
  · rw [List.concat_eq_append, ← List.cons_append, ← List.append_assoc]
    refine ⟨fun h => .inr ?_, ?_⟩
    · obtain ⟨h1, h2⟩ := List.append_inj' h rfl
      exact ⟨later', by rw [List.head_eq_of_cons_eq h2], h1⟩
    · rintro (⟨h, -⟩ | ⟨l', h, rfl⟩)
      · simp at h
      · obtain ⟨h1, h2⟩ := List.append_inj' h rfl
        rw [h1, h2]

/-- The newest RUN MARK(open) with no RUN MARK after it (R172). -/
theorem scannedRun_iff (recs : List LogRecord) (m : Interrupted) : scannedRun recs = some m ↔ ∃ before r later, recs = before ++ r :: later ∧
    r.kind = 1 ∧ r.counter = 1 ∧ (∀ x ∈ later, ¬ (x.kind = 1 ∧ (x.counter = 1 ∨ x.counter = 2))) ∧ m = ⟨r.run, r.pos, r.number⟩ := by
  induction recs using List.reverseRecOn with
  | nil =>
    refine ⟨fun h => (nomatch h), ?_⟩
    rintro ⟨before, r, later, h, -⟩
    simp at h
  | append_singleton recs x ih =>
    rw [scannedRun_append]
    by_cases hopen : x.kind = 1 ∧ x.counter = 1
    · rw [if_pos hopen]
      constructor
      · intro h
        cases h
        exact ⟨recs, x, [], rfl, hopen.1, hopen.2, by simp, rfl⟩
      · rintro ⟨before, r, later, h, hr1, hr2, hlater, rfl⟩
        rcases snoc_eq_append_cons.1 h with ⟨-, -, rfl⟩ | ⟨later', rfl, -⟩
        · rfl
        · exact absurd ⟨hopen.1, .inl hopen.2⟩ (hlater x (by simp))
    · rw [if_neg hopen]
      by_cases hclose : x.kind = 1 ∧ x.counter = 2
      · rw [if_pos hclose]
        refine ⟨fun h => (nomatch h), ?_⟩
        rintro ⟨before, r, later, h, hr1, hr2, hlater, -⟩
        rcases snoc_eq_append_cons.1 h with ⟨-, -, rfl⟩ | ⟨later', rfl, -⟩
        · exact absurd ⟨hr1, hr2⟩ hopen
        · exact absurd ⟨hclose.1, .inr hclose.2⟩ (hlater x (by simp))
      · rw [if_neg hclose, ih]
        have hx : ¬ (x.kind = 1 ∧ (x.counter = 1 ∨ x.counter = 2)) := fun ⟨h1, h2⟩ => h2.elim (fun h => hopen ⟨h1, h⟩) fun h => hclose ⟨h1, h⟩
        constructor
        · rintro ⟨before, r, later, rfl, hr1, hr2, hlater, rfl⟩
          refine ⟨before, r, later ++ [x], by simp, hr1, hr2, fun y hy => ?_, rfl⟩
          rcases List.mem_append.1 hy with hy | hy
          · exact hlater y hy
          · rwa [List.mem_singleton.1 hy]
        · rintro ⟨before, r, later, h, hr1, hr2, hlater, rfl⟩
          rcases snoc_eq_append_cons.1 h with ⟨-, -, rfl⟩ | ⟨later', rfl, rfl⟩
          · exact absurd ⟨hr1, hr2⟩ hopen
          · exact ⟨before, r, later', rfl, hr1, hr2, fun y hy => hlater y (by simp [hy]), rfl⟩

/-! ## The erase list and the FULL marks (R170, R171) -/

/-- The sectors that the scan lists without an intact header, ascending. -/
def lostSectors (l : List Scanned) : List Nat := ((l.filter (·.cls == .listed)).filter fun x => !x.header.intact).map (·.sector)

/-- The sectors that the scan lists with an intact header, by sector sequence. -/
def knownSectors (l : List Scanned) : List Nat :=
  (sortRows (((l.filter (·.cls == .listed)).filter (·.header.intact)).map (scannedRow 0 none))).map (·.2.sector)

theorem scannedEraseList_eq (l : List Scanned) :
    scannedEraseList l = (lostSectors l ++ knownSectors l).map fun n => ⟨n, true, .listed⟩ := rfl

theorem mem_lostSectors {l : List Scanned} {n : Nat} :
    n ∈ lostSectors l ↔ ∃ x ∈ l, x.sector = n ∧ x.cls = .listed ∧ x.header.intact = false := by
  simp only [lostSectors, List.mem_map, List.mem_filter, beq_iff_eq, Bool.not_eq_true']
  exact ⟨fun ⟨x, ⟨⟨h1, h2⟩, h3⟩, h4⟩ => ⟨x, h1, h4, h2, h3⟩, fun ⟨x, h1, h4, h2, h3⟩ => ⟨x, ⟨⟨h1, h2⟩, h3⟩, h4⟩⟩

/-- A row that the sorting of the intact headers meets. -/
theorem mem_knownRows {l : List Scanned} {q : Nat} {r : SectorRow}
    (h : (q, r) ∈ sortRows (((l.filter (·.cls == .listed)).filter (·.header.intact)).map (scannedRow 0 none))) :
    ∃ x ∈ l, r.sector = x.sector ∧ x.cls = .listed ∧ x.header.intact = true ∧ q = x.header.seq := by
  obtain ⟨hr, hq⟩ := mem_sortRows.1 h
  obtain ⟨x, hx, rfl⟩ := List.mem_map.1 hr
  obtain ⟨hx, hi⟩ := List.mem_filter.1 hx
  obtain ⟨hx, hc⟩ := List.mem_filter.1 hx
  have hseq : (scannedRow 0 none x).seq = some x.header.seq := if_pos (by rw [hi, Bool.true_or])
  exact ⟨x, hx, rfl, beq_iff_eq.1 hc, hi, (Option.some.inj (hseq.symm.trans hq)).symm⟩

theorem mem_knownSectors {l : List Scanned} {n : Nat} :
    n ∈ knownSectors l ↔ ∃ x ∈ l, x.sector = n ∧ x.cls = .listed ∧ x.header.intact = true := by
  constructor
  · intro h
    obtain ⟨⟨q, r⟩, hr, rfl⟩ := List.mem_map.1 h
    obtain ⟨x, hx, hs, hc, hi, -⟩ := mem_knownRows hr
    exact ⟨x, hx, hs.symm, hc, hi⟩
  · rintro ⟨x, hx, rfl, hc, hi⟩
    refine List.mem_map.2 ⟨(x.header.seq, scannedRow 0 none x), mem_sortRows.2 ⟨?_, if_pos (by rw [hi, Bool.true_or])⟩, rfl⟩
    exact List.mem_map_of_mem (List.mem_filter.2 ⟨List.mem_filter.2 ⟨hx, beq_iff_eq.2 hc⟩, hi⟩)

theorem scannedEraseList_sectors (l : List Scanned) : (scannedEraseList l).map (·.sector) = lostSectors l ++ knownSectors l := by
  rw [scannedEraseList_eq, List.map_map]
  exact List.map_id _

/-- The erase list holds the sectors taken as ERASE-LISTED (R170). -/
theorem mem_scannedEraseList {l : List Scanned} {n : Nat} :
    n ∈ (scannedEraseList l).map (·.sector) ↔ ∃ x ∈ l, x.sector = n ∧ x.cls = .listed := by
  rw [scannedEraseList_sectors, List.mem_append, mem_lostSectors, mem_knownSectors]
  constructor
  · rintro (⟨x, hx, hn, hc, -⟩ | ⟨x, hx, hn, hc, -⟩) <;> exact ⟨x, hx, hn, hc⟩
  · rintro ⟨x, hx, hn, hc⟩
    cases hi : x.header.intact with
    | false => exact .inl ⟨x, hx, hn, hc, hi⟩
    | true => exact .inr ⟨x, hx, hn, hc, hi⟩

theorem scanSectors_ascending (flash : Memory) : ((scanSectors flash).map (·.sector)).Pairwise (· < ·) := by
  rw [scanSectors_map_sector, List.pairwise_map]
  exact List.pairwise_lt_range.imp fun h => Nat.add_lt_add_left h 128

/-- Headers not intact first, by sector; then by sector sequence (R170). -/
theorem scannedEraseList_ordered (flash : Memory) : (scannedEraseList (scanSectors flash)).Pairwise fun a b =>
    ((headerAt flash a.sector).intact = true → (headerAt flash b.sector).intact = true ∧
      (headerAt flash a.sector).seq ≤ (headerAt flash b.sector).seq) ∧
    ((headerAt flash a.sector).intact = false → (headerAt flash b.sector).intact = false → a.sector < b.sector) := by
  have hheader {x : Scanned} (hx : x ∈ scanSectors flash) : headerAt flash x.sector = x.header := by
    conv_rhs => rw [(mem_scanSectors.1 hx).2]
    rfl
  have hlost {n : Nat} (hn : n ∈ lostSectors (scanSectors flash)) : (headerAt flash n).intact = false := by
    obtain ⟨x, hx, rfl, -, hi⟩ := mem_lostSectors.1 hn
    rw [hheader hx, hi]
  have hknown {n : Nat} (hn : n ∈ knownSectors (scanSectors flash)) : (headerAt flash n).intact = true := by
    obtain ⟨x, hx, rfl, -, hi⟩ := mem_knownSectors.1 hn
    rw [hheader hx, hi]
  rw [scannedEraseList_eq, List.pairwise_map, List.pairwise_append]
  refine ⟨?_, ?_, fun a ha b hb => ?_⟩
  · have hasc : (lostSectors (scanSectors flash)).Pairwise (· < ·) :=
      (scanSectors_ascending flash).sublist ((List.filter_sublist.trans List.filter_sublist).map _)
    refine hasc.imp_of_mem fun ha _ hlt => ⟨fun h => ?_, fun _ _ => hlt⟩
    rw [hlost ha] at h
    cases h
  · refine List.pairwise_map.2 ((sortRows_sorted _).imp_of_mem fun {a b} ha hb hle => ?_)
    obtain ⟨x, hx, hxs, -, hxi, hxq⟩ := mem_knownRows ha
    obtain ⟨y, hy, hys, -, hyi, hyq⟩ := mem_knownRows hb
    dsimp only
    rw [hxs, hys, hheader hx, hheader hy, hxi, hyi, ← hxq, ← hyq]
    exact ⟨fun _ => ⟨rfl, hle⟩, fun h => nomatch h⟩
  · refine ⟨fun h => ?_, fun _ h => ?_⟩
    · rw [hlost ha] at h
      cases h
    · rw [hknown hb] at h
      cases h

theorem mem_scannedMarks {flash : Memory} {head : Option Nat} {m : MarkReq} : m ∈ scannedMarks head (scanSectors flash) ↔
    ∃ n, m = .full n ∧ ScansOpened flash n ∧ (headerAt flash n).full = false ∧ head ≠ some n := by
  simp only [scannedMarks, List.mem_map, List.mem_filter, Bool.and_eq_true, beq_iff_eq, bne_iff_ne, Bool.not_eq_true']
  constructor
  · rintro ⟨x, ⟨hx, ⟨hc, hh⟩, hf⟩, rfl⟩
    obtain ⟨hin, hxe⟩ := mem_scanSectors.1 hx
    refine ⟨x.sector, rfl, scansOpened_iff.2 ⟨hin, hxe ▸ hc⟩, ?_, hh⟩
    rw [hxe] at hf
    exact hf
  · rintro ⟨n, rfl, hn, hf, hh⟩
    obtain ⟨hin, hc⟩ := scansOpened_iff.1 hn
    exact ⟨scanSector flash n, ⟨mem_scanSectors.2 ⟨hin, rfl⟩, ⟨hc, hh⟩, hf⟩, rfl⟩

end Sys2Proof.Machine
end

section
/-!
PROOF. The store that the start-up scan leaves (R170 to R173): its rows, its walk, its head, its marks and what is recovered.
-/

namespace Sys2Proof.Machine

/-! ## A walk reads of a row its sector, its sequence and whether it is in log order -/

/-- A row with only what a walk reads of it. -/
def SectorRow.forWalk (r : SectorRow) : SectorRow where
  sector := r.sector
  state := if r.state.inLog then .full else .erased
  seq := r.seq
  eraseCount := 0
  abandoned := 0
  first := none
  last := none

theorem insertRow_map (f : SectorRow → SectorRow) (x : Nat × SectorRow) (l : List (Nat × SectorRow)) :
    (insertRow x l).map (fun x => (x.1, f x.2)) = insertRow (x.1, f x.2) (l.map fun x => (x.1, f x.2)) := by
  induction l with
  | nil => rfl
  | cons y l ih =>
    rw [insertRow, List.map_cons, insertRow]
    by_cases h : x.1 ≤ y.1
    · rw [if_pos h, if_pos h]
      rfl
    · rw [if_neg h, if_neg h, List.map_cons, ih]

theorem logOrder_map {f : SectorRow → SectorRow} (rows : List SectorRow)
    (hf : ∀ r, (f r).seq = r.seq ∧ (f r).state.inLog = r.state.inLog) :
    logOrder (rows.map f) = (logOrder rows).map fun x => (x.1, f x.2) := by
  have hkeep : (rows.map f).filter (·.state.inLog) = (rows.filter (·.state.inLog)).map f := by
    rw [List.filter_map]
    exact congrArg (List.map f) (List.filter_congr fun r _ => (hf r).2)
  rw [logOrder, logOrder, hkeep]
  induction rows.filter (·.state.inLog) with
  | nil => rfl
  | cons r l ih =>
    unfold sortRows at ih ⊢
    cases hr : r.seq with
    | none => rw [List.map_cons, List.filterMap_cons_none (by rw [(hf r).1, hr]; rfl), List.filterMap_cons_none (by rw [hr]; rfl), ih]
    | some q =>
      rw [List.map_cons, List.filterMap_cons_some (b := (q, f r)) (by rw [(hf r).1, hr]; rfl),
        List.filterMap_cons_some (b := (q, r)) (by rw [hr]; rfl), List.foldr_cons, List.foldr_cons, ih, insertRow_map]

theorem slotsOf_map {f : SectorRow → SectorRow} (l : List (Nat × SectorRow)) (hf : ∀ r, (f r).sector = r.sector) :
    slotsOf (l.map fun x => (x.1, f x.2)) = slotsOf l := by
  rw [slotsOf, slotsOf, List.flatMap_map]
  exact congrArg (l.flatMap ·) (funext fun x => by rw [hf])

/-- Stores of one flash whose rows agree in what a walk reads have one walk. -/
theorem walk_congr {a b : Store} (hflash : a.flash = b.flash) (hrows : a.rows.map SectorRow.forWalk = b.rows.map SectorRow.forWalk) :
    a.walk = b.walk := by
  have hf : ∀ r : SectorRow, r.forWalk.seq = r.seq ∧ r.forWalk.state.inLog = r.state.inLog := fun r => by
    refine ⟨rfl, ?_⟩
    unfold SectorRow.forWalk
    dsimp only
    cases r.state.inLog <;> rfl
  have hslots (rows : List SectorRow) : slotsOf (logOrder rows) = slotsOf (logOrder (rows.map SectorRow.forWalk)) := by
    rw [logOrder_map rows hf, slotsOf_map (f := SectorRow.forWalk) _ fun _ => rfl]
  rw [walk_eq, walk_eq, hslots a.rows, hslots b.rows, hflash, hrows]

/-! ## The rows (R170 to R172) -/

/-- The number of the head sector, where the scan finds one (R171). -/
def headSector (flash : Memory) : Option Nat := (scannedHead (scanSectors flash)).map (·.sector)

/-- The head sector whose last slot is used, so that it is FULL (R171). -/
def pastEnd (flash : Memory) : Option Nat :=
  (headSector flash).filter fun n => decide (128 ≤ scannedSlot flash n)

/-- The records that the walk of the scanned rows accepts (R158, R172). -/
def scannedRecords (st : Store) : List LogRecord :=
  Store.walk { st with rows := (scanSectors st.flash).map (scannedRow (scannedEraseCount (scanSectors st.flash)) (headSector st.flash)) }

/-- The row of a sector as the scan leaves it. -/
def recoveredRow (st : Store) (x : Scanned) : SectorRow :=
  let r := (scannedRow (scannedEraseCount (scanSectors st.flash)) (headSector st.flash) x).withRecords (scannedRecords st)
  if pastEnd st.flash = some x.sector then { r with state := .full } else r

theorem withRecords_eq (recs : List LogRecord) (r : SectorRow) : r.withRecords recs = { r with
    first := (r.withRecords recs).first
    last := (r.withRecords recs).last } := by
  unfold SectorRow.withRecords
  split <;> rfl

/-- The store of the scan with the head sector taken on. -/
def Store.headTaken (st : Store) : Store := st.scanned.takeHead (scannedHead (scanSectors st.flash))

theorem scan_headTaken (st : Store) : st.scan.1 = st.headTaken.openAtScan := rfl

theorem takeHead_inside {st : Store} {x : Scanned} (h : scannedSlot st.flash x.sector < 128) :
    st.takeHead (some x) = { st with head := some (x.sector, scannedSlot st.flash x.sector) } := if_pos h

theorem takeHead_past {st : Store} {x : Scanned} (h : ¬ scannedSlot st.flash x.sector < 128) :
    st.takeHead (some x) = { st with
      rows := st.rows.map fun r => if r.sector = x.sector then { r with state := .full } else r
      marks := if x.header.full ∨ .full x.sector ∈ st.marks ∨ st.serving = some (.mark (.full x.sector)) then st.marks
        else st.marks ++ [.full x.sector] } := by
  refine (if_neg h).trans ?_
  cases hf : x.header.full with
  | true => simp [Store.updateRow]
  | false =>
    rw [if_neg Bool.false_ne_true, requestMark_eq]
    simp [Store.updateRow]

theorem headSector_some {flash : Memory} {x : Scanned} (h : scannedHead (scanSectors flash) = some x) : headSector flash = some x.sector := by
  rw [headSector, h]
  rfl

theorem headTaken_rows (st : Store) : st.headTaken.rows = (scanSectors st.flash).map (recoveredRow st) := by
  have hbase : st.scanned.rows = (scanSectors st.flash).map fun x =>
      (scannedRow (scannedEraseCount (scanSectors st.flash)) (headSector st.flash) x).withRecords (scannedRecords st) :=
    List.map_map
  have hflash : st.scanned.flash = st.flash := rfl
  have hsector (x : Scanned) : ((scannedRow (scannedEraseCount (scanSectors st.flash)) (headSector st.flash) x).withRecords
      (scannedRecords st)).sector = x.sector := by
    rw [withRecords_eq]
    rfl
  unfold Store.headTaken recoveredRow pastEnd
  cases hh : scannedHead (scanSectors st.flash) with
  | none =>
    have hn : headSector st.flash = none := by rw [headSector, hh]; rfl
    refine hbase.trans (List.map_congr_left fun x _ => ?_)
    rw [hn]
    rfl
  | some y =>
    have hn := headSector_some hh
    by_cases hs : scannedSlot st.flash y.sector < 128
    · rw [takeHead_inside (st := st.scanned) hs]
      refine hbase.trans (List.map_congr_left fun x _ => ?_)
      have hp : (some y.sector).filter (fun n => decide (128 ≤ scannedSlot st.flash n)) = none := by
        simp [Option.filter, hs]
      dsimp only
      rw [hn, hp]
      rfl
    · rw [takeHead_past (st := st.scanned) hs]
      dsimp only
      rw [hbase, List.map_map]
      refine List.map_congr_left fun x _ => ?_
      have hp : (some y.sector).filter (fun n => decide (128 ≤ scannedSlot st.flash n)) = some y.sector := by
        simp [Option.filter, Nat.not_lt.1 hs]
      rw [Function.comp, hsector, hn, hp]
      exact if_congr ⟨fun h => congrArg some h.symm, fun h => (Option.some.inj h).symm⟩ rfl rfl

theorem headSector_opened {flash : Memory} {n : Nat} (h : headSector flash = some n) :
    ScansOpened flash n ∧ scannedHead (scanSectors flash) = some (scanSector flash n) := by
  cases hh : scannedHead (scanSectors flash) with
  | none =>
    rw [headSector, hh] at h
    cases h
  | some x =>
    obtain ⟨hx, hc⟩ := scannedHead_opened hh
    obtain ⟨hin, hxe⟩ := mem_scanSectors.1 hx
    obtain rfl : x.sector = n := Option.some.inj ((headSector_some hh).symm.trans h)
    exact ⟨scansOpened_iff.2 ⟨hin, by rw [← hxe]; exact hc⟩, congrArg some hxe⟩

theorem pastEnd_iff {flash : Memory} {n : Nat} : pastEnd flash = some n ↔ headSector flash = some n ∧ 128 ≤ scannedSlot flash n := by
  rw [pastEnd, Option.filter_eq_some_iff, decide_eq_true_eq]

/-- The state of a sector as the scan leaves it (R170, R171). -/
def recoveredState (flash : Memory) (x : Scanned) : SectorState :=
  if pastEnd flash = some x.sector then .full else scannedState (headSector flash) x

theorem recoveredRow_eq (st : Store) (x : Scanned) :
    recoveredRow st x = { scannedRow (scannedEraseCount (scanSectors st.flash)) (headSector st.flash) x with
      state := recoveredState st.flash x
      first := (recoveredRow st x).first
      last := (recoveredRow st x).last } := by
  unfold recoveredRow recoveredState
  rw [withRecords_eq]
  split <;> rfl

theorem recoveredState_opened {flash : Memory} {n : Nat} (h : ScansOpened flash n) : recoveredState flash (scanSector flash n) =
    if headSector flash = some n ∧ scannedSlot flash n < 128 then .opened else .full := by
  obtain ⟨-, hc⟩ := scansOpened_iff.1 h
  unfold recoveredState scannedState
  rw [hc]
  change (if pastEnd flash = some n then SectorState.full else if headSector flash = some n then .opened else .full) = _
  by_cases hh : headSector flash = some n
  · by_cases hs : scannedSlot flash n < 128
    · rw [if_neg fun hp => absurd (pastEnd_iff.1 hp).2 (Nat.not_le.2 hs), if_pos hh, if_pos ⟨hh, hs⟩]
    · rw [if_pos (pastEnd_iff.2 ⟨hh, Nat.not_lt.1 hs⟩), if_neg fun hp => hs hp.2]
  · have hp : ¬ pastEnd flash = some n := fun hp => hh (pastEnd_iff.1 hp).1
    have hb : ¬ (headSector flash = some n ∧ scannedSlot flash n < 128) := fun hb => hh hb.1
    rw [if_neg hp, if_neg hh, if_neg hb]

theorem recoveredState_other {flash : Memory} {n : Nat} (h : ¬ ScansOpened flash n) :
    recoveredState flash (scanSector flash n) = scannedState (headSector flash) (scanSector flash n) :=
  if_neg fun hp => h (headSector_opened (pastEnd_iff.1 hp).1).1

theorem recoveredState_inLog {flash : Memory} (n : Nat) :
    (recoveredState flash (scanSector flash n)).inLog = (scannedState (headSector flash) (scanSector flash n)).inLog := by
  by_cases h : pastEnd flash = some n
  · obtain ⟨hh, -⟩ := pastEnd_iff.1 h
    obtain ⟨-, hc⟩ := scansOpened_iff.1 (headSector_opened hh).1
    have h1 : recoveredState flash (scanSector flash n) = .full := if_pos h
    have h2 : scannedState (headSector flash) (scanSector flash n) = .opened := by
      unfold scannedState
      rw [hc]
      exact if_pos hh
    rw [h1, h2]
    rfl
  · exact congrArg SectorState.inLog (if_neg h)

/-- The rows are those of the log sectors, in their order. -/
theorem mem_headTaken {st : Store} {row : SectorRow} (h : row ∈ st.headTaken.rows) :
    (128 ≤ row.sector ∧ row.sector < 512) ∧ row = recoveredRow st (scanSector st.flash row.sector) := by
  rw [headTaken_rows] at h
  obtain ⟨x, hx, rfl⟩ := List.mem_map.1 h
  have hsec : (recoveredRow st x).sector = x.sector := by rw [recoveredRow_eq]; rfl
  obtain ⟨hin, hxe⟩ := mem_scanSectors.1 hx
  rw [hsec]
  exact ⟨hin, congrArg (recoveredRow st) hxe⟩

theorem recoveredRow_mem {st : Store} {n : Nat} (h : 128 ≤ n ∧ n < 512) : recoveredRow st (scanSector st.flash n) ∈ st.headTaken.rows := by
  rw [headTaken_rows]
  exact List.mem_map_of_mem (mem_scanSectors.2 ⟨h, rfl⟩)

theorem recoveredRow_sector (st : Store) (n : Nat) : (recoveredRow st (scanSector st.flash n)).sector = n := by
  rw [recoveredRow_eq]
  rfl

/-! ## The store after the candidate's opening -/

theorem openAtScan_frame (st : Store) : st.openAtScan = { st with
    opening := st.openAtScan.opening
    head := st.openAtScan.head
    progs := st.openAtScan.progs } := by
  unfold Store.openAtScan
  split
  · exact openCandidate_frame st
  · rfl

theorem headTaken_frame (st : Store) : st.headTaken = { st.scanned with
    head := st.headTaken.head
    rows := st.headTaken.rows
    marks := st.headTaken.marks } := by
  unfold Store.headTaken
  cases scannedHead (scanSectors st.flash) with
  | none => rfl
  | some x =>
    by_cases hs : scannedSlot st.flash x.sector < 128
    · rw [takeHead_inside (st := st.scanned) hs]
    · rw [takeHead_past (st := st.scanned) hs]

theorem scan_frame (st : Store) : st.scan.1 = { st.scanned with
    opening := st.scan.1.opening
    head := st.scan.1.head
    progs := st.scan.1.progs
    rows := st.headTaken.rows
    marks := st.headTaken.marks } := by
  have h := openAtScan_frame st.headTaken
  rw [← scan_headTaken] at h
  generalize st.scan.1 = f at h ⊢
  rw [h]
  have ht := headTaken_frame st
  generalize st.headTaken = t at ht ⊢
  rw [ht]

/-- The walk of the store that the scan leaves is the one the scan made (R172). -/
theorem scan_walk (st : Store) : st.scan.1.walk = scannedRecords st := by
  rw [scan_frame]
  refine walk_congr rfl ?_
  dsimp only
  rw [headTaken_rows, List.map_map, List.map_map]
  refine List.map_congr_left fun x hx => ?_
  obtain ⟨-, hxe⟩ := mem_scanSectors.1 hx
  have hlog : (recoveredState st.flash x).inLog = (scannedState (headSector st.flash) x).inLog := by
    rw [hxe]
    exact recoveredState_inLog x.sector
  rw [Function.comp, recoveredRow_eq]
  unfold SectorRow.forWalk
  dsimp only
  rw [hlog]
  rfl

end Sys2Proof.Machine
end

section
/-!
PROOF. START_UP_SCAN (9.9): the sector table, the head, the FULL marks, the figures recovered and the interrupted run, each from the flash.
-/

namespace Sys2Proof.Machine

/-! ## The sector table (R170, R172) -/

theorem scan_rows (st : Store) : st.scan.1.rows = st.headTaken.rows := (congrArg Store.rows (scan_frame st) :)

theorem scan_sectors (st : Store) : st.scan.1.rows.map (·.sector) = (List.range 384).map (· + 128) := by
  have hsec : (fun x : Scanned => (recoveredRow st x).sector) = (·.sector) := funext fun x => by
    rw [recoveredRow_eq]
    rfl
  rw [scan_rows, headTaken_rows, List.map_map]
  change (scanSectors st.flash).map (fun x => (recoveredRow st x).sector) = _
  rw [hsec, scanSectors_map_sector]
  exact List.map_congr_left fun i _ => Nat.add_comm ..

theorem recoveredRow_state (st : Store) (n : Nat) :
    (recoveredRow st (scanSector st.flash n)).state = recoveredState st.flash (scanSector st.flash n) := by
  rw [recoveredRow_eq]

theorem recoveredRow_seq (st : Store) (n : Nat) : (recoveredRow st (scanSector st.flash n)).seq =
    if (headerAt st.flash n).intact || ((scanSector st.flash n).cls == .retired && (headerAt st.flash n).crcGood) then
      some (headerAt st.flash n).seq else none := by
  rw [recoveredRow_eq]
  rfl

theorem recoveredRow_eraseCount (st : Store) (n : Nat) : (recoveredRow st (scanSector st.flash n)).eraseCount =
    if (headerAt st.flash n).intact then (headerAt st.flash n).eraseCount else scannedEraseCount (scanSectors st.flash) := by
  rw [recoveredRow_eq]
  rfl

/-- A sector of a class other than OPENED: its state follows from the class alone. -/
theorem recoveredState_class {flash : Memory} {n : Nat} {c : ScanClass} (hc : (scanSector flash n).cls = c) (hne : c ≠ .opened) :
    recoveredState flash (scanSector flash n) = match (generalizing := false) c with
      | .retired => .retired
      | .erased => .erased
      | .listed => if (headerAt flash n).eraseBegun then .erasing else .eraseListed
      | .uploaded => .uploaded
      | .opened => .full := by
  have hno : ¬ ScansOpened flash n := fun h => hne (hc.symm.trans (scansOpened_iff.1 h).2)
  rw [recoveredState_other hno, scannedState, hc]
  cases c with
  | opened => exact absurd rfl hne
  | _ => rfl

theorem table_retired {st : Store} {n : Nat} (h : (headerAt st.flash n).retired = true) :
    (recoveredRow st (scanSector st.flash n)).state = .retired ∧
    (recoveredRow st (scanSector st.flash n)).seq = if (headerAt st.flash n).crcGood then some (headerAt st.flash n).seq else none := by
  have hc : (scanSector st.flash n).cls = .retired := scanClass_retired _ h
  refine ⟨(recoveredRow_state st n).trans (recoveredState_class hc (by decide)), ?_⟩
  rw [recoveredRow_seq, hc]
  cases hcrc : (headerAt st.flash n).crcGood with
  | true => rw [beq_self_eq_true, Bool.and_true, Bool.or_true]
  | false =>
    have hi : (headerAt st.flash n).intact = false := by
      rw [← Bool.not_eq_true, intact_iff, hcrc]
      exact fun h => Bool.false_ne_true h.2.1
    rw [hi, Bool.and_false, Bool.or_false]

/-- Of a plain header that is intact, the sequence stands. -/
theorem recoveredRow_seq_intact {st : Store} {n : Nat} (h : (headerAt st.flash n).intact = true) :
    (recoveredRow st (scanSector st.flash n)).seq = some (headerAt st.flash n).seq := by
  rw [recoveredRow_seq, h, Bool.true_or, if_pos rfl]

theorem recoveredRow_seq_lost {st : Store} {n : Nat} (h : (headerAt st.flash n).intact = false) (hc : (scanSector st.flash n).cls ≠ .retired) :
    (recoveredRow st (scanSector st.flash n)).seq = none := by
  rw [recoveredRow_seq, h, beq_eq_false_iff_ne.2 hc, Bool.false_and, Bool.or_false, if_neg Bool.false_ne_true]

theorem table_marked {st : Store} {n : Nat} (hin : 128 ≤ n ∧ n < 512)
    (hplain : (headerAt st.flash n).retired = false ∧ (headerAt st.flash n).allOnes = false)
    (hread : (headerAt st.flash n).magicGood = true ∧ (headerAt st.flash n).crcGood = true) :
    let h := headerAt st.flash n
    let row := recoveredRow st (scanSector st.flash n)
    (h.eraseBegun = true → row.state = .erasing ∧ row.seq = some h.seq) ∧
    (h.eraseBegun = false → h.uploaded = true → row.state = .uploaded ∧ row.seq = some h.seq) ∧
    (h.eraseBegun = false → h.uploaded = false → h.opened = true → (row.state = .opened ∨ row.state = .full) ∧ row.seq = some h.seq) ∧
    (h.eraseBegun = false → h.uploaded = false → h.opened = false → row.state = .eraseListed ∧ row.seq = none) := by
  intro h row
  have hcls : (scanSector st.flash n).cls = _ := scanClass_plain (bodyBlank st.flash n) hplain.1 hplain.2
  have hintact (hm : h.opened = true ∨ h.uploaded = true ∨ h.eraseBegun = true ∨ h.retired = true) : h.intact = true :=
    (intact_iff h).2 ⟨hread.1, hread.2, hm⟩
  change (scanSector st.flash n).cls = (if h.intact && h.eraseBegun then ScanClass.listed else if h.intact && h.uploaded then .uploaded
    else if h.intact && h.opened then .opened else .listed) at hcls
  refine ⟨fun he => ?_, fun he hu => ?_, fun he hu ho => ?_, fun he hu ho => ?_⟩
  · have hi := hintact (.inr (.inr (.inl he)))
    have hcls : (scanSector st.flash n).cls = .listed := by rw [hcls, hi, he]; rfl
    refine ⟨(recoveredRow_state st n).trans ((recoveredState_class hcls (by decide)).trans ?_), recoveredRow_seq_intact hi⟩
    exact if_pos he
  · have hi := hintact (.inr (.inl hu))
    have hcls : (scanSector st.flash n).cls = .uploaded := by rw [hcls, hi, he, hu]; rfl
    exact ⟨(recoveredRow_state st n).trans (recoveredState_class hcls (by decide)), recoveredRow_seq_intact hi⟩
  · have hi := hintact (.inl ho)
    have hopen : ScansOpened st.flash n := ⟨hin, hplain, hread, he, hu, ho⟩
    refine ⟨?_, recoveredRow_seq_intact hi⟩
    rw [recoveredRow_state, recoveredState_opened hopen]
    split
    · exact .inl rfl
    · exact .inr rfl
  · have hi : h.intact = false := by
      rw [← Bool.not_eq_true, intact_iff, ho, hu, he, show h.retired = false from hplain.1]
      exact fun hall => by simp at hall
    have hcls : (scanSector st.flash n).cls = .listed := by rw [hcls, hi]; rfl
    refine ⟨(recoveredRow_state st n).trans ((recoveredState_class hcls (by decide)).trans ?_), recoveredRow_seq_lost hi (by rw [hcls]; decide)⟩
    exact if_neg (by rw [show (headerAt st.flash n).eraseBegun = false from he]; exact Bool.false_ne_true)

theorem table_unread {st : Store} {n : Nat} (hplain : (headerAt st.flash n).retired = false ∧ (headerAt st.flash n).allOnes = false)
    (hread : ¬ ((headerAt st.flash n).magicGood = true ∧ (headerAt st.flash n).crcGood = true)) :
    (recoveredRow st (scanSector st.flash n)).seq = none ∧
    (recoveredRow st (scanSector st.flash n)).state = if (headerAt st.flash n).eraseBegun then .erasing else .eraseListed := by
  have hi : (headerAt st.flash n).intact = false := by
    rw [← Bool.not_eq_true, intact_iff]
    exact fun h => hread ⟨h.1, h.2.1⟩
  have hcls : (scanSector st.flash n).cls = .listed := scanClass_notIntact _ hplain.1 hplain.2 hi
  exact ⟨recoveredRow_seq_lost hi (by rw [hcls]; decide), (recoveredRow_state st n).trans (recoveredState_class hcls (by decide))⟩

/-- A header of ones carries no mark and no magic. -/
theorem headerAt_allOnes {flash : Memory} {n : Nat} (h : (headerAt flash n).allOnes = true) :
    (headerAt flash n).retired = false ∧ (headerAt flash n).intact = false ∧ (headerAt flash n).eraseBegun = false := by
  have hb : flash.readBytes (slotAddress n 0) 32 = List.replicate 32 0xFF := (allOnes_slot flash n 0).1 h
  rw [headerAt, hb]
  decide +kernel

theorem table_blank {st : Store} {n : Nat} (hwf : st.flash.wf = true) (h : (headerAt st.flash n).allOnes = true) :
    (recoveredRow st (scanSector st.flash n)).seq = none ∧
    ((∀ k, 1 ≤ k → k ≤ 127 → slotFree st.flash n k) → (recoveredRow st (scanSector st.flash n)).state = .erased) ∧
    (∀ k, 1 ≤ k → k ≤ 127 → ¬ slotFree st.flash n k → (recoveredRow st (scanSector st.flash n)).state = .eraseListed) := by
  obtain ⟨hr, hi, he⟩ := headerAt_allOnes h
  have hcls : (scanSector st.flash n).cls = if bodyBlank st.flash n then .erased else .listed := scanClass_allOnes _ hr h
  refine ⟨recoveredRow_seq_lost hi ?_, fun hfree => ?_, fun k h1 h2 hk => ?_⟩
  · rw [hcls]
    split <;> decide
  · rw [(bodyBlank_iff hwf n).2 hfree] at hcls
    exact (recoveredRow_state st n).trans (recoveredState_class hcls (by decide))
  · have hb : bodyBlank st.flash n = false := by
      rw [← Bool.not_eq_true, bodyBlank_iff hwf]
      exact fun hall => hk (hall k h1 h2)
    rw [hb] at hcls
    refine (recoveredRow_state st n).trans ((recoveredState_class hcls (by decide)).trans ?_)
    exact if_neg (by rw [he]; exact Bool.false_ne_true)

theorem table_eraseCount {st : Store} {n : Nat} :
    let row := recoveredRow st (scanSector st.flash n)
    ((headerAt st.flash n).intact = true → row.eraseCount = (headerAt st.flash n).eraseCount) ∧
    ((headerAt st.flash n).intact = false →
      (∀ m, 128 ≤ m ∧ m < 512 → (headerAt st.flash m).intact = true → (headerAt st.flash m).eraseCount ≤ row.eraseCount) ∧
      (row.eraseCount = 0 ∨ ∃ m, (128 ≤ m ∧ m < 512) ∧ (headerAt st.flash m).intact = true ∧ row.eraseCount = (headerAt st.flash m).eraseCount)) := by
  dsimp only
  rw [recoveredRow_eraseCount]
  refine ⟨fun h => if_pos h, fun h => ?_⟩
  rw [h, if_neg Bool.false_ne_true]
  refine ⟨fun m hm hi => le_greatest (List.mem_map.2 ⟨scanSector st.flash m, List.mem_filter.2 ⟨mem_scanSectors.2 ⟨hm, rfl⟩, hi⟩, rfl⟩), ?_⟩
  rcases greatest_mem (((scanSectors st.flash).filter (·.header.intact)).map (·.header.eraseCount)) with h0 | hm
  · exact .inl h0
  · obtain ⟨x, hx, he⟩ := List.mem_map.1 hm
    obtain ⟨hx, hi⟩ := List.mem_filter.1 hx
    obtain ⟨hin, hxe⟩ := mem_scanSectors.1 hx
    rw [hxe] at hi he
    exact .inr ⟨x.sector, hin, hi, he.symm⟩

theorem table_records {st : Store} {n : Nat} :
    let row := recoveredRow st (scanSector st.flash n)
    (∀ q, row.seq = some q → row.state.inLog = true →
      let own := st.scan.1.walk.filter fun r => r.pos.sector == q
      row.first = own.head?.map (·.number) ∧ row.last = own.getLast?.map (·.number)) ∧
    (row.seq = none ∨ row.state.inLog = false → row.first = none ∧ row.last = none) := by
  intro row
  have hstate : row.state.inLog = (scannedState (headSector st.flash) (scanSector st.flash n)).inLog :=
    (congrArg SectorState.inLog (recoveredRow_state st n)).trans (recoveredState_inLog n)
  obtain ⟨r, hr⟩ : ∃ r, r = scannedRow (scannedEraseCount (scanSectors st.flash)) (headSector st.flash) (scanSector st.flash n) := ⟨_, rfl⟩
  have hrec : row.first = (r.withRecords (scannedRecords st)).first ∧ row.last = (r.withRecords (scannedRecords st)).last := by
    rw [hr]
    change (recoveredRow st (scanSector st.flash n)).first = _ ∧ (recoveredRow st (scanSector st.flash n)).last = _
    unfold recoveredRow
    dsimp only
    split <;> exact ⟨rfl, rfl⟩
  have hseq : row.seq = r.seq := by
    rw [hr]
    exact (recoveredRow_seq st n).trans rfl
  have hrs : r.state.inLog = row.state.inLog := by rw [hstate, hr]; rfl
  have hnone : r.first = none ∧ r.last = none := by rw [hr]; exact ⟨rfl, rfl⟩
  rw [hrec.1, hrec.2, scan_walk]
  refine ⟨fun q hq hlog => ?_, fun h => ?_⟩
  · unfold SectorRow.withRecords
    rw [← hseq, hq, hrs, hlog]
    dsimp only
    simp
  · unfold SectorRow.withRecords
    cases hq : r.seq with
    | none => exact hnone
    | some q =>
      have hlog : row.state.inLog = false := h.resolve_left (by rw [hseq, hq]; exact fun h => nomatch h)
      dsimp only
      rw [hrs, hlog]
      simp

/-! ## The head and the candidate (R171) -/

theorem recoveredState_eq_opened {flash : Memory} {n : Nat} (hin : 128 ≤ n ∧ n < 512) :
    recoveredState flash (scanSector flash n) = .opened ↔ headSector flash = some n ∧ scannedSlot flash n < 128 := by
  by_cases h : ScansOpened flash n
  · rw [recoveredState_opened h]
    by_cases hb : headSector flash = some n ∧ scannedSlot flash n < 128 <;> simp [hb]
  · have hc : (scanSector flash n).cls ≠ .opened := fun hc => h (scansOpened_iff.2 ⟨hin, hc⟩)
    refine ⟨fun hs => ?_, fun hb => absurd (headSector_opened hb.1).1 h⟩
    rw [recoveredState_class rfl hc] at hs
    cases hcls : (scanSector flash n).cls with
    | opened => exact absurd hcls hc
    | listed =>
      rw [hcls] at hs
      dsimp only at hs
      split at hs <;> cases hs
    | _ =>
      rw [hcls] at hs
      cases hs

/-- The head taken on in its sector, or none. -/
theorem headTaken_head_inside {st : Store} {n : Nat} (h : headSector st.flash = some n) (hs : scannedSlot st.flash n < 128) :
    st.headTaken.head = some (n, scannedSlot st.flash n) := by
  obtain ⟨-, hh⟩ := headSector_opened h
  have := takeHead_inside (st := st.scanned) (x := scanSector st.flash n) hs
  rw [Store.headTaken, hh, this]
  rfl

theorem headTaken_head_none {st : Store} (h : ∀ n, headSector st.flash = some n → 128 ≤ scannedSlot st.flash n) : st.headTaken.head = none := by
  unfold Store.headTaken
  cases hh : scannedHead (scanSectors st.flash) with
  | none => rfl
  | some x =>
    have hs : ¬ scannedSlot st.flash x.sector < 128 := Nat.not_lt.2 (h _ (headSector_some hh))
    rw [takeHead_past (st := st.scanned) hs]
    rfl

theorem scan_of_head {st : Store} {x : Nat × Nat} (h : st.headTaken.head = some x) : st.scan.1 = st.headTaken := by
  rw [scan_headTaken, Store.openAtScan, h]
  rfl

theorem scan_of_none {st : Store} (h : st.headTaken.head = none) : st.scan.1 = st.headTaken.openCandidate := by
  rw [scan_headTaken, Store.openAtScan, h]
  rfl

theorem openCandidate_none {st : Store} (h : st.candidateErased = false) : st.openCandidate = { st with head := none } := by
  unfold Store.openCandidate
  cases hc : st.candidate with
  | none => rfl
  | some c =>
    have hne : c.state ≠ .erased := fun he => Bool.false_ne_true (h.symm.trans ((candidateErased_iff st).2 ⟨c, hc, he⟩))
    exact if_neg hne

theorem candidate_mem {st : Store} {r : SectorRow} (h : st.candidate = some r) : r ∈ st.rows := by
  unfold Store.candidate at h
  cases hn : st.newest with
  | none =>
    rw [hn] at h
    exact List.mem_of_find?_eq_some h
  | some x =>
    rw [hn] at h
    rcases List.mem_append.1 (List.mem_of_find?_eq_some h) with hr | hr <;> exact List.mem_of_mem_filter hr

/-- Past its end, the head sector has no head: none, or the candidate's. -/
theorem scan_head_past {st : Store} {n : Nat} (h : headSector st.flash = some n) (hs : 128 ≤ scannedSlot st.flash n) (m : Nat) :
    st.scan.1.head ≠ some (n, m) := by
  have hnone : st.headTaken.head = none := headTaken_head_none fun k hk => by
    obtain rfl : n = k := Option.some.inj (h.symm.trans hk)
    exact hs
  obtain ⟨hopen, -⟩ := headSector_opened h
  rw [scan_of_none hnone]
  by_cases hc : ∃ c, st.headTaken.candidate = some c ∧ c.state = .erased
  · obtain ⟨c, hc, he⟩ := hc
    rw [openCandidate_erased hc he]
    intro heq
    obtain ⟨rfl, -⟩ := Prod.mk.inj (Option.some.inj heq)
    obtain ⟨-, hrow⟩ := mem_headTaken (candidate_mem hc)
    rw [hrow, recoveredRow_state, recoveredState_opened hopen] at he
    split at he <;> cases he
  · have hnc : st.headTaken.candidateErased = false := by rw [← Bool.not_eq_true, candidateErased_iff]; exact hc
    rw [openCandidate_none hnc]
    exact fun h => nomatch h

/-- The head sector as the scan finds it: OPENED with the head in it, or FULL. -/
theorem scan_head {st : Store} {n : Nat} (h : headSector st.flash = some n) :
    (∀ slot, scannedSlot st.flash n = slot → (slot < 128 → st.scan.1.head = some (n, slot)) ∧ (128 ≤ slot → ∀ m, st.scan.1.head ≠ some (n, m))) ∧
    ((recoveredRow st (scanSector st.flash n)).state = .opened ↔ ∃ m, st.scan.1.head = some (n, m)) := by
  obtain ⟨hopen, -⟩ := headSector_opened h
  have hstate := recoveredState_eq_opened (flash := st.flash) hopen.1
  rw [recoveredRow_state, hstate]
  by_cases hs : scannedSlot st.flash n < 128
  · have hhead := headTaken_head_inside h hs
    have hscan : st.scan.1.head = some (n, scannedSlot st.flash n) := by rw [scan_of_head hhead, hhead]
    refine ⟨fun slot hslot => ⟨fun _ => hslot ▸ hscan, fun hle => absurd hs (by omega)⟩, ⟨fun _ => ⟨_, hscan⟩, fun _ => ⟨h, hs⟩⟩⟩
  · have hpast := scan_head_past h (Nat.not_lt.1 hs)
    exact ⟨fun slot hslot => ⟨fun hlt => absurd hlt (hslot ▸ hs), fun _ => hpast⟩, ⟨fun hb => absurd hb.2 hs, fun ⟨m, hm⟩ => absurd hm (hpast m)⟩⟩

/-- No sector left OPENED: no head taken on. -/
theorem headTaken_head_of_closed {st : Store} (h : ∀ row ∈ st.scan.1.rows, row.state ≠ .opened) : st.headTaken.head = none := by
  refine headTaken_head_none fun n hn => Nat.not_lt.1 fun hs => ?_
  obtain ⟨hopen, -⟩ := headSector_opened hn
  refine h _ (by rw [scan_rows]; exact recoveredRow_mem hopen.1) ?_
  rw [recoveredRow_state]
  exact (recoveredState_eq_opened hopen.1).2 ⟨hn, hs⟩

theorem scan_candidate (st : Store) : st.scan.1.candidate = st.headTaken.candidate := candidate_congr (scan_rows st)

theorem scan_closed {st : Store} (h : ∀ row ∈ st.scan.1.rows, row.state ≠ .opened) :
    (st.scan.1.candidateErased = false → st.scan.1.head = none) ∧
    (∀ r, st.scan.1.candidate = some r → r.state = .erased → st.scan.1.head = some (r.sector, 1) ∧
      st.scan.1.opening = some ⟨r.sector, st.scan.1.sectorSeq, r.eraseCount, st.scan.1.seqCounter⟩ ∧ st.scan.1.progs = st.progs ++ [.opening]) := by
  have hnone := headTaken_head_of_closed h
  have hcand := scan_candidate st
  refine ⟨fun hc => ?_, fun r hr he => ?_⟩
  · have hc' : st.headTaken.candidateErased = false := by
      rw [Store.candidateErased, ← hcand]
      exact hc
    rw [scan_of_none hnone, openCandidate_none hc']
  · have hprogs : st.headTaken.progs = st.progs := (congrArg Store.progs (headTaken_frame st) :)
    rw [scan_of_none hnone, openCandidate_erased (hcand.symm.trans hr) he]
    exact ⟨rfl, rfl, congrArg (· ++ [ProgramReq.opening]) hprogs⟩

theorem scan_opened {st : Store} (h : ∃ row ∈ st.scan.1.rows, row.state = .opened) :
    st.scan.1.opening = st.opening ∧ st.scan.1.progs = st.progs := by
  obtain ⟨row, hrow, hs⟩ := h
  rw [scan_rows] at hrow
  obtain ⟨hin, hr⟩ := mem_headTaken hrow
  rw [hr, recoveredRow_state] at hs
  obtain ⟨hh, hlt⟩ := (recoveredState_eq_opened hin).1 hs
  rw [scan_of_head (headTaken_head_inside hh hlt)]
  have hframe := headTaken_frame st
  exact ⟨(congrArg Store.opening hframe :), (congrArg Store.progs hframe :)⟩

/-! ## The FULL marks (R171) -/

theorem mem_headTaken_marks {st : Store} (hserving : st.serving = none) (m : MarkReq) : m ∈ st.headTaken.marks ↔
    ∃ n, m = .full n ∧ ScansOpened st.flash n ∧ (headerAt st.flash n).full = false ∧ ¬ (headSector st.flash = some n ∧ scannedSlot st.flash n < 128) := by
  have hbase : st.scanned.marks = scannedMarks (headSector st.flash) (scanSectors st.flash) := rfl
  unfold Store.headTaken
  cases hh : scannedHead (scanSectors st.flash) with
  | none =>
    have hn : headSector st.flash = none := by rw [headSector, hh]; rfl
    change m ∈ st.scanned.marks ↔ _
    rw [hbase, mem_scannedMarks, hn]
    simp
  | some x =>
    have hn := headSector_some hh
    by_cases hs : scannedSlot st.flash x.sector < 128
    · rw [takeHead_inside (st := st.scanned) hs]
      change m ∈ st.scanned.marks ↔ _
      rw [hbase, mem_scannedMarks, hn]
      refine exists_congr fun n => and_congr_right fun _ => and_congr_right fun _ => and_congr_right fun _ => not_congr ?_
      refine ⟨fun h => ⟨h, ?_⟩, fun h => h.1⟩
      rwa [← Option.some.inj h]
    · obtain ⟨hopen, hx⟩ := headSector_opened hn
      have hheader : x.header.full = (headerAt st.flash x.sector).full := by
        conv_lhs => rw [Option.some.inj (hh.symm.trans hx)]
        rfl
      have hno : ¬ st.scanned.serving = some (.mark (.full x.sector)) := by
        rw [show st.scanned.serving = none from hserving]
        exact fun h => nomatch h
      have hrest (n : Nat) : ¬ (some x.sector = some n ∧ scannedSlot st.flash n < 128) :=
        fun h => hs (by rw [Option.some.inj h.1]; exact h.2)
      rw [takeHead_past (st := st.scanned) hs]
      dsimp only
      rw [hbase, hheader, hn]
      have hnew : MarkReq.full x.sector ∉ scannedMarks (some x.sector) (scanSectors st.flash) := fun h => by
        obtain ⟨n, hm, -, -, hne⟩ := mem_scannedMarks.1 h
        exact hne (congrArg some (MarkReq.full.inj hm))
      simp only [hrest, not_false_eq_true, and_true]
      cases hf : (headerAt st.flash x.sector).full with
      | true =>
        rw [if_pos (.inl rfl), mem_scannedMarks]
        refine exists_congr fun n => and_congr_right fun _ => and_congr_right fun _ => and_iff_left_of_imp fun hn he => ?_
        rw [← Option.some.inj he, hf] at hn
        cases hn
      | false =>
        have hadd : ¬ (false = true ∨ MarkReq.full x.sector ∈ scannedMarks (some x.sector) (scanSectors st.flash) ∨
            st.scanned.serving = some (.mark (.full x.sector))) := fun h => h.elim Bool.false_ne_true fun h => h.elim hnew hno
        rw [if_neg hadd, List.mem_append, List.mem_singleton, mem_scannedMarks]
        refine ⟨?_, fun ⟨n, hm, ho, hfn⟩ => ?_⟩
        · rintro (⟨n, hm, ho, hfn, -⟩ | rfl)
          · exact ⟨n, hm, ho, hfn⟩
          · exact ⟨x.sector, rfl, hopen, hf⟩
        · by_cases he : some x.sector = some n
          · exact .inr (hm.trans (congrArg MarkReq.full (Option.some.inj he).symm))
          · exact .inl ⟨n, hm, ho, hfn, he⟩

end Sys2Proof.Machine
end

section
/-!
PROOF. START_UP_SCAN (9.9): what is recovered from the headers and the records, the erase list, and the state after the scan.
-/

namespace Sys2Proof.Machine

/-! ## What is recovered (R172) -/

theorem mem_intactHeaders {β : Type} {flash : Memory} {f : SectorHeader → β} {y : β} :
    y ∈ ((scanSectors flash).filter (·.header.intact)).map (fun x => f x.header) ↔
    ∃ n, (128 ≤ n ∧ n < 512) ∧ (headerAt flash n).intact = true ∧ f (headerAt flash n) = y := by
  simp only [List.mem_map, List.mem_filter]
  constructor
  · rintro ⟨x, ⟨hx, hi⟩, rfl⟩
    obtain ⟨hin, hxe⟩ := mem_scanSectors.1 hx
    rw [hxe] at hi ⊢
    exact ⟨x.sector, hin, hi, rfl⟩
  · rintro ⟨n, hin, hi, rfl⟩
    exact ⟨scanSector flash n, ⟨mem_scanSectors.2 ⟨hin, rfl⟩, hi⟩, rfl⟩

theorem scan_counter (st : Store) : 1 ≤ st.scan.1.seqCounter ∧ st.scan.1.durableBound = st.scan.1.seqCounter ∧
    (∀ r ∈ st.scan.1.walk, r.number < st.scan.1.seqCounter) ∧
    (∀ n, 128 ≤ n ∧ n < 512 → (headerAt st.flash n).intact = true → ∀ b ∈ (headerAt st.flash n).reserves, b ≤ st.scan.1.seqCounter) ∧
    (st.scan.1.seqCounter = 1 ∨ (∃ r ∈ st.scan.1.walk, st.scan.1.seqCounter = r.number + 1) ∨
      ∃ n, (128 ≤ n ∧ n < 512) ∧ (headerAt st.flash n).intact = true ∧ st.scan.1.seqCounter ∈ (headerAt st.flash n).reserves) := by
  have hseq : st.scan.1.seqCounter = scannedCounter (scannedRecords st) (scanSectors st.flash) := (congrArg Store.seqCounter (scan_frame st) :)
  have hbound : st.scan.1.durableBound = scannedCounter (scannedRecords st) (scanSectors st.flash) :=
    (congrArg Store.durableBound (scan_frame st) :)
  have hreserve (b : Nat) : b ∈ ((scanSectors st.flash).filter (·.header.intact)).flatMap (·.header.reserves) ↔
      ∃ n, (128 ≤ n ∧ n < 512) ∧ (headerAt st.flash n).intact = true ∧ b ∈ (headerAt st.flash n).reserves := by
    rw [List.mem_flatMap]
    constructor
    · rintro ⟨x, hx, hb⟩
      obtain ⟨n, hin, hi, he⟩ := mem_intactHeaders.1 (List.mem_map_of_mem (f := fun x : Scanned => x.header.reserves) hx)
      exact ⟨n, hin, hi, he ▸ hb⟩
    · rintro ⟨n, hin, hi, hb⟩
      exact ⟨scanSector st.flash n, List.mem_filter.2 ⟨mem_scanSectors.2 ⟨hin, rfl⟩, hi⟩, hb⟩
  rw [hseq, hbound, scan_walk, scannedCounter]
  obtain ⟨G, hG⟩ : ∃ G, greatest ((scannedRecords st).map fun r => r.number + 1) = G := ⟨_, rfl⟩
  obtain ⟨R, hR⟩ : ∃ R, greatest (((scanSectors st.flash).filter (·.header.intact)).flatMap (·.header.reserves)) = R := ⟨_, rfl⟩
  rw [hG, hR]
  refine ⟨Nat.le_max_left .., rfl, fun r hr => ?_, fun n hin hi b hb => ?_, ?_⟩
  · have : r.number + 1 ≤ G := hG ▸ le_greatest (List.mem_map_of_mem (f := fun r : LogRecord => r.number + 1) hr)
    omega
  · have : b ≤ R := hR ▸ le_greatest ((hreserve b).2 ⟨n, hin, hi, hb⟩)
    omega
  · have hcase : max 1 (max G R) = 1 ∨ (max 1 (max G R) = G ∧ G ≠ 0) ∨ (max 1 (max G R) = R ∧ R ≠ 0) := by omega
    rcases hcase with h1 | ⟨h1, h0⟩ | ⟨h1, h0⟩
    · exact .inl h1
    · obtain ⟨r, hr, he⟩ := List.mem_map.1 (hG ▸ (greatest_mem _).resolve_left fun h => h0 (hG.symm.trans h))
      exact .inr (.inl ⟨r, hr, h1.trans he.symm⟩)
    · rw [h1]
      exact .inr (.inr ((hreserve R).1 (hR ▸ (greatest_mem _).resolve_left fun h => h0 (hR.symm.trans h))))

theorem scan_sectorSeq (st : Store) :
    (∀ n, 128 ≤ n ∧ n < 512 → (headerAt st.flash n).intact = true → (headerAt st.flash n).seq < st.scan.1.sectorSeq) ∧
    (st.scan.1.sectorSeq = 1 ∨
      ∃ n, (128 ≤ n ∧ n < 512) ∧ (headerAt st.flash n).intact = true ∧ st.scan.1.sectorSeq = (headerAt st.flash n).seq + 1) := by
  have hseq : st.scan.1.sectorSeq = scannedSectorSeq (scanSectors st.flash) := (congrArg Store.sectorSeq (scan_frame st) :)
  rw [hseq, scannedSectorSeq]
  refine ⟨fun n hin hi => Nat.lt_succ_of_le (le_greatest (mem_intactHeaders.2 ⟨n, hin, hi, rfl⟩)), ?_⟩
  rcases greatest_mem (((scanSectors st.flash).filter (·.header.intact)).map (·.header.seq)) with h0 | hm
  · exact .inl (by rw [h0])
  · obtain ⟨n, hin, hi, he⟩ := mem_intactHeaders.1 hm
    exact .inr ⟨n, hin, hi, congrArg (· + 1) he.symm⟩

theorem mem_highestIn {flash : Memory} {n y : Nat} :
    y ∈ (((List.range Config.sectorSlots).drop 1).filterMap fun k =>
      let bs := flash.readBytes (slotAddress n k) Config.slotBytes
      if recordGood bs then some (fieldOf bs 0 4) else none) ↔
    ∃ k, 1 ≤ k ∧ k ≤ 127 ∧ recordGood (flash.readBytes (slotAddress n k) 32) = true ∧
      fieldOf (flash.readBytes (slotAddress n k) 32) 0 4 = y := by
  have hrange : (List.range Config.sectorSlots).drop 1 = List.range' 1 127 := by decide
  rw [hrange, List.mem_filterMap]
  refine exists_congr fun k => ?_
  rw [List.mem_range'_1]
  dsimp only
  constructor
  · rintro ⟨hk, h⟩
    split at h
    next hg => exact ⟨hk.1, by omega, hg, Option.some.inj h⟩
    next => cases h
  · rintro ⟨h1, h2, hg, rfl⟩
    exact ⟨by omega, if_pos hg⟩

theorem le_highestIn {flash : Memory} {n k : Nat} (h1 : 1 ≤ k) (h2 : k ≤ 127)
    (hg : recordGood (flash.readBytes (slotAddress n k) 32) = true) :
    fieldOf (flash.readBytes (slotAddress n k) 32) 0 4 ≤ highestIn flash n := by
  obtain ⟨v, hv⟩ : ∃ v, fieldOf (flash.readBytes (slotAddress n k) 32) 0 4 = v := ⟨_, rfl⟩
  rw [hv, highestIn]
  exact le_greatest (mem_highestIn.2 ⟨k, h1, h2, hg, hv⟩)

theorem scan_uploadMark (st : Store) :
    (∀ n k, 128 ≤ n ∧ n < 512 → (headerAt st.flash n).intact = true → (headerAt st.flash n).uploaded = true → 1 ≤ k → k ≤ 127 →
      recordGood (st.flash.readBytes (slotAddress n k) 32) = true →
      fieldOf (st.flash.readBytes (slotAddress n k) 32) 0 4 ≤ st.scan.1.uploadMark) ∧
    (st.scan.1.uploadMark = 0 ∨ ∃ n k, (128 ≤ n ∧ n < 512) ∧ (headerAt st.flash n).intact = true ∧ (headerAt st.flash n).uploaded = true ∧
      1 ≤ k ∧ k ≤ 127 ∧ recordGood (st.flash.readBytes (slotAddress n k) 32) = true ∧
      fieldOf (st.flash.readBytes (slotAddress n k) 32) 0 4 = st.scan.1.uploadMark) := by
  have hmark : st.scan.1.uploadMark = scannedMark st.flash (scanSectors st.flash) := (congrArg Store.uploadMark (scan_frame st) :)
  rw [hmark, scannedMark]
  refine ⟨fun n k hin hi hu h1 h2 hg => ?_, ?_⟩
  · have hn : scanSector st.flash n ∈ (scanSectors st.flash).filter fun x => x.header.intact && x.header.uploaded :=
      List.mem_filter.2 ⟨mem_scanSectors.2 ⟨hin, rfl⟩, Bool.and_eq_true_iff.2 ⟨hi, hu⟩⟩
    have hsector : highestIn st.flash (scanSector st.flash n).sector = highestIn st.flash n := congrArg (highestIn st.flash) rfl
    exact (le_highestIn h1 h2 hg).trans (le_greatest (List.mem_map.2 ⟨_, hn, hsector⟩))
  · obtain ⟨G, hG⟩ : ∃ G, greatest (((scanSectors st.flash).filter fun x => x.header.intact && x.header.uploaded).map
        fun x => highestIn st.flash x.sector) = G := ⟨_, rfl⟩
    rw [hG]
    by_cases h0 : G = 0
    · exact .inl h0
    · obtain ⟨x, hx, hxG⟩ := List.mem_map.1 (hG ▸ (greatest_mem _).resolve_left fun h => h0 (hG.symm.trans h))
      obtain ⟨hx, hmarks⟩ := List.mem_filter.1 hx
      obtain ⟨hi, hu⟩ := Bool.and_eq_true_iff.1 hmarks
      obtain ⟨hin, hxe⟩ := mem_scanSectors.1 hx
      obtain ⟨k, h1, h2, hg, he⟩ := mem_highestIn.1 ((greatest_mem _).resolve_left fun h => h0 (hxG.symm.trans h))
      rw [hxe] at hi hu
      exact .inr ⟨x.sector, k, hin, hi, hu, h1, h2, hg, he.trans hxG⟩

theorem scan_lastGiven (st : Store) : (∀ r ∈ st.scan.1.walk, r.number ≤ st.scan.1.lastGiven) ∧
    (st.scan.1.lastGiven = 0 ∨ ∃ r ∈ st.scan.1.walk, r.number = st.scan.1.lastGiven) := by
  have hlast : st.scan.1.lastGiven = greatest ((scannedRecords st).map (·.number)) := (congrArg Store.lastGiven (scan_frame st) :)
  rw [hlast, scan_walk]
  refine ⟨fun r hr => le_greatest (List.mem_map_of_mem (f := fun r : LogRecord => r.number) hr), ?_⟩
  exact (greatest_mem ((scannedRecords st).map (·.number))).imp id fun h => List.mem_map.1 h

theorem scan_interrupted (st : Store) (m : Interrupted) : st.scan.2 = some m ↔ ∃ before r later, st.scan.1.walk = before ++ r :: later ∧
    r.kind = 1 ∧ r.counter = 1 ∧ (∀ x ∈ later, ¬ (x.kind = 1 ∧ (x.counter = 1 ∨ x.counter = 2))) ∧ m = ⟨r.run, r.pos, r.number⟩ := by
  rw [scan_walk]
  exact scannedRun_iff (scannedRecords st) m

/-! ## The erase list (R170) -/

/-- A sector waits for its erase exactly where it is classified so. -/
theorem recoveredState_waits {flash : Memory} {n : Nat} :
    (recoveredState flash (scanSector flash n) = .erasing ∨ recoveredState flash (scanSector flash n) = .eraseListed) ↔
    (scanSector flash n).cls = .listed := by
  by_cases ho : (scanSector flash n).cls = .opened
  · have hne : recoveredState flash (scanSector flash n) = .full ∨ recoveredState flash (scanSector flash n) = .opened := by
      unfold recoveredState scannedState
      rw [ho]
      dsimp only
      split
      · exact .inl rfl
      · split
        · exact .inr rfl
        · exact .inl rfl
    rw [ho]
    rcases hne with h | h <;> simp [h]
  · rw [recoveredState_class rfl ho]
    cases hc : (scanSector flash n).cls with
    | opened => exact absurd hc ho
    | listed =>
      refine iff_of_true ?_ rfl
      dsimp only
      split
      · exact .inl rfl
      · exact .inr rfl
    | _ => simp

theorem scan_eraseList (st : Store) : (∀ i ∈ st.scan.1.eraseList, i.scanPlaced = true ∧ i.phase = .listed) ∧
    (st.scan.1.eraseList.map (·.sector)).Nodup ∧
    (∀ n, n ∈ st.scan.1.eraseList.map (·.sector) ↔
      ∃ row ∈ st.scan.1.rows, row.sector = n ∧ (row.state = .erasing ∨ row.state = .eraseListed)) ∧
    st.scan.1.eraseList.Pairwise fun a b =>
      ((headerAt st.flash a.sector).intact = true → (headerAt st.flash b.sector).intact = true ∧
        (headerAt st.flash a.sector).seq ≤ (headerAt st.flash b.sector).seq) ∧
      ((headerAt st.flash a.sector).intact = false → (headerAt st.flash b.sector).intact = false → a.sector < b.sector) := by
  have hlist : st.scan.1.eraseList = scannedEraseList (scanSectors st.flash) := (congrArg Store.eraseList (scan_frame st) :)
  rw [hlist, scan_rows]
  refine ⟨fun i hi => ?_, (scannedEraseList_fits (scanSectors_nodup st.flash)).1, fun n => ?_, scannedEraseList_ordered st.flash⟩
  · obtain ⟨n, -, rfl⟩ := List.mem_map.1 hi
    exact ⟨rfl, rfl⟩
  · rw [mem_scannedEraseList]
    constructor
    · rintro ⟨x, hx, rfl, hc⟩
      obtain ⟨hin, hxe⟩ := mem_scanSectors.1 hx
      refine ⟨_, recoveredRow_mem hin, recoveredRow_sector st x.sector, ?_⟩
      rw [recoveredRow_state, recoveredState_waits, ← hxe]
      exact hc
    · rintro ⟨row, hrow, rfl, hs⟩
      obtain ⟨hin, hr⟩ := mem_headTaken hrow
      rw [hr, recoveredRow_state, recoveredState_waits] at hs
      exact ⟨_, mem_scanSectors.2 ⟨hin, rfl⟩, rfl, hs⟩

/-! ## The head sector and the FULL marks, by the table (R171) -/

theorem scan_row {st : Store} {row : SectorRow} (h : row ∈ st.scan.1.rows) :
    (128 ≤ row.sector ∧ row.sector < 512) ∧ row = recoveredRow st (scanSector st.flash row.sector) := by
  rw [scan_rows] at h
  exact mem_headTaken h

theorem scan_row_opened {st : Store} {row : SectorRow} (h : row ∈ st.scan.1.rows) (ho : ScansOpened st.flash row.sector) :
    row.state = if headSector st.flash = some row.sector ∧ scannedSlot st.flash row.sector < 128 then .opened else .full := by
  obtain ⟨-, hr⟩ := scan_row h
  exact (congrArg SectorRow.state hr).trans ((recoveredRow_state st row.sector).trans (recoveredState_opened ho))

/-- The head sector is the OPENED one of highest sequence; every other OPENED sector is FULL. -/
theorem scan_highest {st : Store} {n : Nat} (hn : ScansOpened st.flash n)
    (hmax : ∀ m, ScansOpened st.flash m → m ≠ n → (headerAt st.flash m).seq < (headerAt st.flash n).seq) :
    (∀ m, ScansOpened st.flash m → m ≠ n → ∀ row ∈ st.scan.1.rows, row.sector = m → row.state = .full) ∧
    ((∀ k, 1 ≤ k → k ≤ 127 → slotFree st.flash n k) → st.scan.1.head = some (n, 1)) ∧
    (∀ k, 1 ≤ k → k ≤ 127 → ¬ slotFree st.flash n k → (∀ j, k < j → j ≤ 127 → slotFree st.flash n j) →
      ∀ next, (PageSpoiled st.flash n k → next = (k / 8 + 1) * 8) → (¬ PageSpoiled st.flash n k → next = k + 1) →
        (next < 128 → st.scan.1.head = some (n, next)) ∧ (128 ≤ next → ∀ m, st.scan.1.head ≠ some (n, m))) ∧
    (∀ row ∈ st.scan.1.rows, row.sector = n → (row.state = .opened ↔ ∃ m, st.scan.1.head = some (n, m))) := by
  have hhead : headSector st.flash = some n := headSector_some (scannedHead_greatest hn hmax)
  obtain ⟨hslot, hstate⟩ := scan_head (st := st) hhead
  refine ⟨?_, fun hfree => (hslot 1 (scannedSlot_unused hfree)).1 (by decide), fun k h1 h2 hk hfree next hspoiled hclean =>
    hslot next (scannedSlot_used h1 h2 hk hfree hspoiled hclean), ?_⟩
  · rintro _ hm hne row hrow rfl
    rw [scan_row_opened hrow hm, if_neg]
    exact fun hb => hne (Option.some.inj (hb.1.symm.trans hhead))
  · rintro row hrow rfl
    rw [(scan_row hrow).2, recoveredRow_sector]
    exact hstate

theorem scan_marks {st : Store} (hserving : st.serving = none) (m : MarkReq) : m ∈ st.scan.1.marks ↔
    ∃ n, m = .full n ∧ ScansOpened st.flash n ∧ (headerAt st.flash n).full = false ∧
      ∃ row ∈ st.scan.1.rows, row.sector = n ∧ row.state = .full := by
  have hmarks : st.scan.1.marks = st.headTaken.marks := (congrArg Store.marks (scan_frame st) :)
  rw [hmarks, mem_headTaken_marks hserving]
  refine exists_congr fun n => and_congr_right fun _ => and_congr_right fun hn => and_congr_right fun _ => ?_
  constructor
  · intro hb
    have hrow : recoveredRow st (scanSector st.flash n) ∈ st.scan.1.rows := by
      rw [scan_rows]
      exact recoveredRow_mem hn.1
    refine ⟨_, hrow, recoveredRow_sector st n, ?_⟩
    rw [recoveredRow_state, recoveredState_opened hn, if_neg hb]
  · rintro ⟨row, hrow, rfl, hs⟩ hb
    rw [scan_row_opened hrow hn, if_pos hb] at hs
    cases hs

/-! ## The step -/

theorem scanEnds_frame (s : State) : scanEnds s = { s with
    store := { (scanEnds s).store with
      flash := s.store.flash
      pageBuf := s.store.pageBuf
      second := s.store.second
      programming := s.store.programming
      flushing := s.store.flushing
      planErase := s.store.planErase
      serving := s.store.serving
      erase := s.store.erase
      dropped := s.store.dropped
      faults := s.store.faults }
    engine := { s.engine with
      interrupted := (scanEnds s).engine.interrupted
      requests := s.engine.requests ++ [.planCheck] }
    startup := { s.startup with step := .planCheck } } := by
  have hframe := scan_frame s.store
  unfold scanEnds requestStation
  dsimp only
  generalize s.store.scan.1 = f at hframe ⊢
  rw [hframe]
  rfl

/-- What the scan leaves of one sector (R170, R172). -/
theorem scan_table {st : Store} {row : SectorRow} (hrow : row ∈ st.scan.1.rows) :
    let h := headerAt st.flash row.sector
    let plain := h.retired = false ∧ h.allOnes = false
    let read := h.magicGood = true ∧ h.crcGood = true
    row.abandoned = 0 ∧
    (h.retired = true → row.state = .retired ∧ row.seq = if h.crcGood then some h.seq else none) ∧
    (plain → read →
      (h.eraseBegun = true → row.state = .erasing ∧ row.seq = some h.seq) ∧
      (h.eraseBegun = false → h.uploaded = true → row.state = .uploaded ∧ row.seq = some h.seq) ∧
      (h.eraseBegun = false → h.uploaded = false → h.opened = true → (row.state = .opened ∨ row.state = .full) ∧ row.seq = some h.seq) ∧
      (h.eraseBegun = false → h.uploaded = false → h.opened = false → row.state = .eraseListed ∧ row.seq = none)) ∧
    (plain → ¬ read → row.seq = none ∧ row.state = if h.eraseBegun then .erasing else .eraseListed) ∧
    (st.flash.wf = true → h.allOnes = true →
      row.seq = none ∧
      ((∀ k, 1 ≤ k → k ≤ 127 → slotFree st.flash row.sector k) → row.state = .erased) ∧
      (∀ k, 1 ≤ k → k ≤ 127 → ¬ slotFree st.flash row.sector k → row.state = .eraseListed)) ∧
    (h.intact = true → row.eraseCount = h.eraseCount) ∧
    (h.intact = false →
      (∀ n, 128 ≤ n ∧ n < 512 → (headerAt st.flash n).intact = true → (headerAt st.flash n).eraseCount ≤ row.eraseCount) ∧
      (row.eraseCount = 0 ∨
        ∃ n, (128 ≤ n ∧ n < 512) ∧ (headerAt st.flash n).intact = true ∧ row.eraseCount = (headerAt st.flash n).eraseCount)) ∧
    (∀ q, row.seq = some q → row.state.inLog = true →
      let own := st.scan.1.walk.filter fun r => r.pos.sector == q
      row.first = own.head?.map (·.number) ∧ row.last = own.getLast?.map (·.number)) ∧
    (row.seq = none ∨ row.state.inLog = false → row.first = none ∧ row.last = none) := by
  obtain ⟨hin, hr⟩ := scan_row hrow
  obtain ⟨n, hn⟩ : ∃ n, row.sector = n := ⟨_, rfl⟩
  rw [hn] at hin hr ⊢
  subst hr
  refine ⟨?_, table_retired, table_marked hin, table_unread, table_blank, table_eraseCount.1, table_eraseCount.2, table_records.1,
    table_records.2⟩
  rw [recoveredRow_eq]
  rfl

theorem scan_recovers {s : State} (hp : s.startup.powered = true) (hstep : s.startup.step = .scan) :
    exec .startUpScan s = .next (settle (scanEnds s)) :=
  act_onlyIf (c := fun s => s.startup.step == .scan) (f := scanEnds) hp (beq_iff_eq.2 hstep)

/-- Settles O34: each clause by the lemma about the part of the scan it speaks of; the walk by its equation as one pass over the slots. -/
theorem scanRecovers : Obligations.ScanRecovers := by
  unfold Obligations.ScanRecovers
  refine ⟨intact_iff, fun s hp hstep => ?_, fun st => ⟨fun r hr => mem_walk hr, walk_ascending st,
    fun hnodup => ⟨walk_before hnodup, fun n q k hh h1 h2 => mem_walk_iff hnodup hh h1 h2⟩, tail_eq st, holdsAt_iff st⟩⟩
  intro flash header slot free inLog plain read isOpened
  exact ⟨scanEnds s, scan_recovers hp hstep, scanEnds_frame s, scan_sectors s.store, fun row hrow => scan_table hrow,
    fun n hn hmax => scan_highest hn hmax, scan_closed, scan_opened, fun hserving m => scan_marks hserving m, scan_counter s.store,
    scan_sectorSeq s.store, scan_uploadMark s.store, scan_lastGiven s.store, scan_eraseList s.store, scan_interrupted s.store⟩

end Sys2Proof.Machine
end
